-- ==== Sys2Proof/Word.lean ====
section
/-!
DEFINITION. The stored form of a value (02 R18, R21, R24, R27): bytes, 64-bit payloads, tagged words, granules and
granules as memory holds them, with their sidecar. Types and names of values only; what is computed on them stands
in the files of Machine/.
-/

namespace Sys2Proof

/-- One byte. -/
abbrev Byte := BitVec 8

/-- A 64-bit payload. -/
abbrev Word64 := BitVec 64

/-- A tagged word: an 8-bit tag beside a 64-bit payload (02 R18). -/
structure TWord where
  tag : BitVec 8
  val : Word64
  deriving DecidableEq, Repr

/-- A granule, or a register slot: the low word and the high word, each with its tag (02, *Words and granules*; 04 R76). -/
structure Gran where
  lo : TWord
  hi : TWord
  deriving DecidableEq, Repr

/-- A granule as memory stores it: its two tagged words and its sidecar's check bytes and collector bits (02 Table 2.3). -/
structure MGran where
  g : Gran
  chk : BitVec 24
  ver : BitVec 4
  age : BitVec 2
  mark : BitVec 2
  deriving DecidableEq, Repr

/-- Tag values of Table 2.1. -/
abbrev tagRAW : BitVec 8 := 0x00
abbrev tagFIX : BitVec 8 := 0x01
abbrev tagFLO : BitVec 8 := 0x02
abbrev tagCHR : BitVec 8 := 0x03
abbrev tagNIL : BitVec 8 := 0x04
abbrev tagBOOL : BitVec 8 := 0x05
abbrev tagUNBOUND : BitVec 8 := 0x06
abbrev tagEMPTY : BitVec 8 := 0x08
abbrev tagFUTURE : BitVec 8 := 0x09
abbrev tagHDR : BitVec 8 := 0x0C
abbrev tagCAPL : BitVec 8 := 0x10
abbrev tagCAPH : BitVec 8 := 0x11
abbrev tagFWDL : BitVec 8 := 0x12
abbrev tagFWDH : BitVec 8 := 0x13

/-- RAW zero (04 R76). -/
abbrev TWord.zero : TWord := ⟨tagRAW, 0⟩

/-- A RAW word of a given payload. -/
abbrev TWord.raw (v : Word64) : TWord := ⟨tagRAW, v⟩

/-- A FIX word of a given payload. -/
abbrev TWord.fix (v : Word64) : TWord := ⟨tagFIX, v⟩

/-- RAW zero in both halves (04 R76, R84). -/
abbrev Gran.zero : Gran := ⟨TWord.zero, TWord.zero⟩

/-- A word in slot form: the word in the low half, RAW zero in the high half (04 R76). -/
abbrev Gran.ofWord (w : TWord) : Gran := ⟨w, TWord.zero⟩

/-- An initialised granule of memory: RAW zero, check bytes 0, VER 0 (02 R35). -/
abbrev MGran.zero : MGran := ⟨Gran.zero, 0, 0, 0, 0⟩

end Sys2Proof
end

