-- ==== Sys2Proof/Syntax.lean ====
section
/-!
DEFINITION. The commands of the block: one constructor of `Instr` for each row of spec/opcode_table.json, with the
operands the row's rule gives the step. The table gives its rows no bits, so an operand is plain data: the number of a
unit (00 R10), the value written, the frame received.
-/

namespace Sys2Proof

/-- A door into the dictionary (17 Table 17.2), with what a write through it carries. `dictWin` names the stall whose
store it is, or none for host software and debug; `jtag` is DBG_ACCESS (20 R465). -/
inductive Path where
  | helm (node : Nat)
  | pf
  | vf (n : Nat)
  | dictWin (stall : Option Nat)
  | fabric (node : Nat)
  | jtag
  deriving DecidableEq, Repr

/-- A value of a dictionary entry (17 Table 17.1): a number, or the bytes of a STR or OCT entry. -/
inductive EVal where
  | num (n : Nat)
  | bytes (b : List Byte)
  deriving DecidableEq, Repr

/-- A user of a data port (17 R394): a Helm-bus session's instance, the PF BAR's, a VF BAR's, the shared one. -/
inductive DpInst where
  | helm (node : Nat)
  | pf
  | vf (n : Nat)
  | win
  deriving DecidableEq, Repr

/-- A master of control space other than a stall (17 Table 17.15). -/
inductive CtlMaster where
  | helm (node : Nat)
  | hostpf
  | debug
  | fabric (node : Nat)
  deriving DecidableEq, Repr

/-- What a 304-symbol codeword's decoder found (14 R315, R318). -/
inductive FecResult where
  | clean
  | corrected
  | uncorrectable
  deriving DecidableEq, Repr

/-- Kind of a report to the watch (18 Table 18.1). -/
inductive ReportKind where
  | contained
  | unit
  deriving DecidableEq, Repr

/-- A report on a unit's error line (18 R412, Table 18.5): the WATCH_STATUS bit, the kind, and where the unit knows
them the address with its space, the reporting source, the access, the master and the berth it is attributed to. -/
structure Report where
  bit : Nat
  kind : ReportKind
  addr : Option Nat := none
  space : Nat := 0
  source : Nat := 0
  berth : Option Nat := none
  access : Nat := 0
  master : Nat := 0
  deriving DecidableEq, Repr

/-- How the training of a memory port ends (13 R298, R299). -/
inductive TrainEnd where
  | active (capacity lanes rate : Nat) (serial : List Byte)
  | noDevice
  | unsupported
  | link
  deriving DecidableEq, Repr

/-- What a memory device acknowledges (13 R304, R307): one dirty sidecar group's write, or a data write, with success. -/
inductive NdrKind where
  | sidecar (group : Nat)
  | dataWrite (pda : Nat)
  deriving DecidableEq, Repr

/-- A data line as its memory device returns it, with poison or without (13 R306). -/
structure DeviceLine where
  line : Nat
  poison : Bool
  deriving DecidableEq, Repr

/-- The three sidecar lines of a line group as the memory device returns them, line j with poison where bit j of `poison` is set (13 R304, R306). -/
structure DeviceGroup where
  group : Nat
  poison : Nat
  deriving DecidableEq, Repr

/-- One access through the stall window (08 R196): a word load or store, or a capability load or store. -/
inductive WinOp where
  | ldw
  | stw (w : TWord)
  | ldc
  | stc (g : Gran)
  deriving DecidableEq, Repr

/-- A translation cache (11 R263, R265). -/
inductive TlbUnit where
  | core (c : Nat)
  | compass
  | groom (s : Nat)
  | stable (s : Nat)
  deriving DecidableEq, Repr

/-- A copy of the boot image as the flash holds it (19 R443): the file's bytes, none where the flash answers no copy. -/
structure FlashImages where
  copyA : List Byte
  copyB : List Byte
  patch : Option (List Byte) := none
  deriving DecidableEq, Repr

/-- The commands: one constructor for each row of spec/opcode_table.json. -/
inductive Instr where
  | bundleIssue (stall : Nat)
  | microwordWait (core seqr : Nat)
  | vz3Nop (stall : Nat)
  | vz3Pushb (stall : Nat)
  | vz3Pushw (stall : Nat)
  | vz3Pushnil (stall : Nat)
  | vz3Pusht (stall : Nat)
  | vz3Pushf (stall : Nat)
  | vz3Pushk (stall : Nat)
  | vz3Pushkw (stall : Nat)
  | vz3Loadl (stall : Nat)
  | vz3Storel (stall : Nat)
  | vz3Loadlw (stall : Nat)
  | vz3Storelw (stall : Nat)
  | vz3Dup (stall : Nat)
  | vz3Drop (stall : Nat)
  | vz3Swap (stall : Nat)
  | vz3Over (stall : Nat)
  | vz3Add (stall : Nat)
  | vz3Sub (stall : Nat)
  | vz3Mul (stall : Nat)
  | vz3Div (stall : Nat)
  | vz3Rem (stall : Nat)
  | vz3Neg (stall : Nat)
  | vz3Ash (stall : Nat)
  | vz3Eq (stall : Nat)
  | vz3Ne (stall : Nat)
  | vz3Lt (stall : Nat)
  | vz3Ge (stall : Nat)
  | vz3Le (stall : Nat)
  | vz3Gt (stall : Nat)
  | vz3And (stall : Nat)
  | vz3Or (stall : Nat)
  | vz3Xor (stall : Nat)
  | vz3Jmp (stall : Nat)
  | vz3Jf (stall : Nat)
  | vz3Jt (stall : Nat)
  | vz3Tag (stall : Nat)
  | vz3Loadx (stall : Nat)
  | vz3Storex (stall : Nat)
  | vz3Callk (stall : Nat)
  | vz3Retn (stall : Nat)
  | vz3Exit (stall : Nat)
  | vz3Native (stall : Nat)
  | vz3Break (stall : Nat)
  | excEntry (stall : Nat)
  | deviceEvent (core : Nat)
  | timer (stall : Nat)
  | resultDelivery (cid reg : Nat)
  | waiterWake (agent index : Nat)
  | pollRetry (cid reg : Nat)
  | bufferDrain (core line : Nat)
  | parkCut (stall : Nat)
  | parkComplete (stall : Nat)
  | preemption (stall : Nat)
  | stallAssign (stall : Nat)
  | frameReload (stall reg : Nat)
  | floatStateSwitch (stall : Nat)
  | tlbWalk (unit : TlbUnit) (berth va : Nat) (speculative : Bool)
  | stridePrefetch (shed stream : Nat)
  | ownershipRequest (shed line : Nat)
  | directoryEviction (line : Nat)
  | writeBackAck (shed line : Nat)
  | lineRead (line : DeviceLine)
  | sidecarFetch (port : Nat) (group : DeviceGroup)
  | immutTtl (shed : Nat)
  | clean (shed : Nat)
  | inval (shed : Nat)
  | cleanShed (shed : Nat)
  | immutDrop (shed : Nat)
  | wayLock (shed : Nat) (value : Word64)
  | wayPwr (shed : Nat) (value : Word64)
  | wayCleanDone (shed way : Nat)
  | xcommit (berth : Nat)
  | tlbiAll (berth : Nat)
  | tlbiAddr (berth : Nat)
  | tlbiComplete (berth : Nat)
  | minorCycle (berth : Nat)
  | majorCycle (berth : Nat)
  | sweep (berth : Nat)
  | clearStatistics (berth : Nat)
  | markEnd (berth : Nat) (minor : Bool)
  | evacEnd (berth : Nat) (minor : Bool)
  | updateEnd (berth : Nat) (minor : Bool)
  | sweepEnd (berth : Nat)
  | objClaim (berth n : Nat)
  | berthStart (berth : Nat)
  | resetDrain (berth : Nat)
  | resetSquash (berth : Nat)
  | removeDrain (berth : Nat)
  | removeSquash (berth : Nat)
  | drainLimit (berth : Nat)
  | berthCommit (path : Path) (berth : Nat)
  | quiescentPoint (index : Nat)
  | quiesceLimit (index : Nat)
  | discard (path : Path) (index : Nat)
  | entryWrite (path : Path) (index sub : Nat) (value : EVal)
  | train (port : Nat)
  | portInit (port : Nat)
  | codedUnitInit (port : Nat)
  | portOff (port : Nat)
  | resync (port : Nat)
  | flush (port : Nat)
  | mapCommit (path : Path)
  | portFailure (port : Nat)
  | portTimeout (port : Nat)
  | dataCodeword (link : Nat) (fec : FecResult) (header : BitVec 20) (flits : List (List Byte))
  | alignmentCodeword (link : Nat) (good : BitVec 4)
  | retryTimeout (link : Nat)
  | laneFailure (link lane : Nat)
  | lkRetryMs (link : Nat)
  | linkUp (link : Nat)
  | lkEnable (path : Path) (link : Nat) (enable : Bool)
  | retrain (link : Nat)
  | takeDown (link : Nat)
  | retrainFullWidth (link : Nat)
  | hello (link : Nat) (msg : List Byte)
  | lsa (link : Nat) (msg : List Byte)
  | lsaRefresh
  | soundQuiet
  | assign (link : Nat) (msg : List Byte)
  | nodedown (link : Nat) (msg : List Byte)
  | startSounding
  | rebuildCharts
  | stopSounding
  | chartCommit (path : Path)
  | packetRoute (index : Nat)
  | routeHold (index : Nat)
  | requestInjection
  | load
  | store
  | remoteCas
  | remoteFadd
  | remoteFill
  | remoteInvoke
  | list
  | drop
  | data
  | ack
  | line
  | refuse
  | retry
  | waiting
  | xack
  | remoteTimeout (slot : Nat)
  | resentEntryExpiry (index : Nat)
  | tsyncInterval
  | tsyncReq (link : Nat) (t1 t2 t3 : Nat)
  | tsyncRsp (t1 t2 t3 t4 : Nat)
  | stallWindowAccess (stall offset : Nat) (op : WinOp)
  | halt (stall : Nat)
  | stallctlStart (core : Nat)
  | kill (stall : Nat)
  | helmOpen (node seqn : Nat)
  | helmClose (node seqn : Nat)
  | helmRead (node seqn index sub : Nat)
  | helmWrite (node seqn index sub : Nat) (value : EVal)
  | ctrlRd (node seqn offset : Nat)
  | ctrlWr (node seqn offset : Nat) (value : Word64)
  | dpWrite (node seqn : Nat)
  | dpRead (node seqn : Nat)
  | dpAck (node seqn next : Nat)
  | seg (node segno : Nat) (bytes : List Byte)
  | sessionTimeout (node : Nat)
  | helmAckTimeout (node : Nat)
  | alive
  | busOffRecovery
  | dpAddr (inst : DpInst) (value : Word64)
  | dpLen (inst : DpInst) (value : Nat)
  | dpData (inst : DpInst) (wr : Bool) (bytes : List Byte) (count : Nat)
  | verifyAndLoad (path : Path)
  | verifyOnly (path : Path)
  | winBase (path : Path) (slot value : Nat)
  | lock (path : Path) (slot : Nat) (value : Nat)
  | violClear (path : Path) (slot : Nat) (value : Nat)
  | gateFence (path : Path)
  | gateFenceComplete
  | hostDoorbell (value : Word64)
  | hostLinkDown
  | hostLinkUp
  | functionLevelReset (vf : Nat)
  | pePerstN (level : Bool)
  | watchReport (hw : Option Report)
  | watchDisagreement
  | moorCmd (path : Path) (value : Nat)
  | moorN (level : Bool) (widthNs : Nat)
  | feClear (path : Path) (value : Nat)
  | injectCorr (path : Path) (value : BitVec 32)
  | injectUncorr (path : Path) (value : BitVec 32)
  | injectPoison (path : Path) (value : BitVec 32)
  | injectUnit (path : Path) (value : BitVec 32)
  | lanternToggle
  | coreDivReq (path : Path) (value : Nat)
  | voutSettled
  | voutTimeout
  | throttle (shed : Nat) (tenths : Int)
  | throttleExit (shed : Nat) (tenths : Int)
  | thermalTrip (sensor : Nat) (tenths : Int)
  | thermtripN (level : Bool) (widthNs : Nat)
  | pmbusPoll (status : List (Nat × BitVec 16))
  | pmbAlertN (status : List (Nat × BitVec 16))
  | ageAlarm (shed : Nat) (margin : Int)
  | powerOnReset (thermtripLow : Bool)
  | pwrgoodFall
  | resetN (level : Bool) (widthNs : Nat)
  | resetCmd (path : Path) (value : Nat)
  | resetExit
  | boot (flash : FlashImages)
  | yardGo (path : Path) (value : Nat)
  | tallyArm (path : Path) (value : Nat)
  | tallyWrite (path : Path) (tally value : Nat)
  | bypass
  | idcode
  | samplePreload (shift : List Bool)
  | extest
  | dbgAccess (offset : Nat) (wr : Option Word64)
  | trstN (level : Bool)
  | vz3Undefined (stall : Nat)
  | portTrainingEnd (port : Nat) (how : TrainEnd)
  | resyncUnitCopied (port : Nat)
  | maintComplete (shed : Nat)
  | wayPowerUpDone (shed way : Nat)
  | s2mNdr (port : Nat) (kind : NdrKind) (ok : Bool)
  | cxlEventRecord (port count : Nat)
  | canErrorFrame (busOff : Bool)
  | patchCheckEnd
  | tallyProgrammed
  | objStatusDone (berth : Nat)
  deriving DecidableEq, Repr

end Sys2Proof
end

