-- ==== Sys2Proof/Machine/SMap.lean ====
section
/-!
DEFINITION. Sparse maps from a number to a value, as plain data: a list of pairs, keys strictly rising, no entry equal
to what an unlisted key reads as. Memory, register files and the dictionary are held so: equal maps are equal lists.
-/

namespace Sys2Proof

/-- A sparse map. -/
abbrev SMap (α : Type) := List (Nat × α)

/-- The value at a key; an unlisted key reads as `d key`. -/
def SMap.get {α : Type} (d : Nat → α) : SMap α → Nat → α
  | [], k => d k
  | (k', v) :: m, k => if k = k' then v else SMap.get d m k

/-- The map with an entry for a key put in its place. -/
def SMap.put {α : Type} : SMap α → Nat → α → SMap α
  | [], k, v => [(k, v)]
  | (k', v') :: m, k, v =>
    if k < k' then (k, v) :: (k', v') :: m
    else if k = k' then (k, v) :: m
    else (k', v') :: SMap.put m k v

/-- The map without the entry for a key. -/
def SMap.del {α : Type} : SMap α → Nat → SMap α
  | [], _ => []
  | (k', v') :: m, k => if k = k' then SMap.del m k else (k', v') :: SMap.del m k

/-- The map that reads `v` at `k`: the entry is removed where `v` is what an unlisted key reads as. -/
def SMap.set {α : Type} [DecidableEq α] (d : Nat → α) (m : SMap α) (k : Nat) (v : α) : SMap α :=
  if v = d k then SMap.del m k else SMap.put m k v

/-- Every key of the list lies above `lo`, and the keys rise strictly. -/
def SMap.rising {α : Type} : Option Nat → SMap α → Bool
  | _, [] => true
  | lo, (k, _) :: m => (match lo with | none => true | some l => decide (l < k)) && SMap.rising (some k) m

/-- The canonical form. -/
def SMap.wf {α : Type} [DecidableEq α] (d : Nat → α) (m : SMap α) : Bool :=
  SMap.rising none m && m.all (fun e => !decide (e.2 = d e.1))

/-- Change the value at a key. -/
def SMap.upd {α : Type} [DecidableEq α] (d : Nat → α) (m : SMap α) (k : Nat) (f : α → α) : SMap α :=
  SMap.set d m k (f (SMap.get d m k))

/-- Change every listed value; an entry that becomes what an unlisted key reads as is removed. -/
def SMap.mapv {α : Type} [DecidableEq α] (d : Nat → α) (f : Nat → α → α) : SMap α → SMap α
  | [] => []
  | (k, v) :: m => if f k v = d k then SMap.mapv d f m else (k, f k v) :: SMap.mapv d f m

end Sys2Proof
end

