-- ==== Sys2Proof/Machine/Bits.lean ====
section
/-!
DEFINITION. Bit fields, sign extension and byte order (00 R7), and the tests on tags and granules of chapter 02.
-/

namespace Sys2Proof

/-- Bits hi..lo of a number. -/
def nbits (x hi lo : Nat) : Nat := (x >>> lo) % 2 ^ (hi + 1 - lo)

/-- One bit of a number. -/
def nbit (x i : Nat) : Bool := x.testBit i

/-- A Bool as 0 or 1. -/
def b2n (b : Bool) : Nat := if b then 1 else 0

/-- A Bool as a predicate or BOOL payload. -/
def b2w (b : Bool) : Word64 := if b then 1 else 0

/-- A 64-bit payload from a number, modulo 2^64. -/
def w64 (n : Nat) : Word64 := BitVec.ofNat 64 n

/-- A 64-bit payload from an integer, modulo 2^64. -/
def w64i (n : Int) : Word64 := BitVec.ofInt 64 n

/-- A number of `w` bits read as two's complement. -/
def sextN (w x : Nat) : Int := if x % 2 ^ w < 2 ^ (w - 1) then Int.ofNat (x % 2 ^ w) else Int.ofNat (x % 2 ^ w) - Int.ofNat (2 ^ w)

/-- The `n` low bytes of a number, byte 0 first (00 R7: little-endian). -/
def leBytes : Nat → Nat → List Byte
  | 0, _ => []
  | n + 1, x => BitVec.ofNat 8 x :: leBytes n (x / 256)

/-- A little-endian number. -/
def leNat : List Byte → Nat
  | [] => 0
  | b :: bs => b.toNat + 256 * leNat bs

/-- A little-endian number: `n` bytes from offset `o`; bytes beyond the list count 0. -/
def leAt (bs : List Byte) (o n : Nat) : Nat := leNat ((bs.drop o).take n)

/-- The word of a granule that a byte address names: the high word where bit 3 is set. -/
def Gran.word (g : Gran) (hi : Bool) : TWord := if hi then g.hi else g.lo

/-- A granule with one of its words replaced. -/
def Gran.setWord (g : Gran) (hi : Bool) (w : TWord) : Gran := if hi then ⟨g.lo, w⟩ else ⟨w, g.hi⟩

/-- Table 2.1: whether a tag value is defined. -/
def tagDefined (t : BitVec 8) : Bool :=
  let n := t.toNat
  n ≤ 0x06 || n == 0x08 || n == 0x09 || n == 0x0C || (0x10 ≤ n && n ≤ 0x13) || (0x40 ≤ n && n ≤ 0x7F)

/-- A tag of a capability or forwarding word, 0x10 to 0x13. -/
def tagIsCap (t : BitVec 8) : Bool := 0x10 ≤ t.toNat && t.toNat ≤ 0x13

/-- 02 R24: a capability granule. -/
def Gran.isCap (g : Gran) : Bool := g.lo.tag == tagCAPL && g.hi.tag == tagCAPH

/-- 02 R24: a forwarding granule. -/
def Gran.isFwd (g : Gran) : Bool := g.lo.tag == tagFWDL && g.hi.tag == tagFWDH

/-- 02 R24: a malformed granule: neither, and a tag from 0x10 to 0x13 appears. -/
def Gran.isMalformed (g : Gran) : Bool := (tagIsCap g.lo.tag || tagIsCap g.hi.tag) && !g.isCap && !g.isFwd

/-- A word tagged EMPTY or FUTURE (05 R106). -/
def TWord.isSync (w : TWord) : Bool := w.tag == tagEMPTY || w.tag == tagFUTURE

/-- Table 2.2, Table 8.1 and Table 12.4: whether a payload is canonical for a tag. Pairs (0x10 to 0x13) are judged only
as granules, and a reserved tag has no canonical payload. -/
def canonical (w : TWord) : Bool :=
  let v := w.val.toNat
  if w.tag == tagRAW || w.tag == tagFIX || w.tag == tagFLO then true
  else if w.tag == tagCHR then decide (v ≤ 0x10FFFF) && !(decide (0xD800 ≤ v) && decide (v ≤ 0xDFFF))
  else if w.tag == tagNIL then v == 0
  else if w.tag == tagBOOL then decide (v ≤ 1)
  else if w.tag == tagUNBOUND || w.tag == tagEMPTY then true
  else if w.tag == tagFUTURE then nbits v 47 32 == 0
  else if w.tag == tagHDR then nbits v 62 52 == 0 && nbits v 39 36 == 0 && decide (1 ≤ nbits v 35 0)
  else decide (0x40 ≤ w.tag.toNat) && decide (w.tag.toNat ≤ 0x7F)

/-- A word that an operation not taking whole slots writes: one tagged 0x10 to 0x13 is written RAW (05 R89). -/
def TWord.noCap (w : TWord) : TWord := if tagIsCap w.tag then ⟨tagRAW, w.val⟩ else w

/-- 02 R25: what a word write leaves of a granule that is a capability, forwarding or malformed granule, and of any
other granule. -/
def Gran.writeWord (g : Gran) (hi : Bool) (w : TWord) : Gran :=
  if g.isCap || g.isFwd || g.isMalformed then
    Gran.setWord ⟨⟨tagRAW, g.lo.val⟩, ⟨tagRAW, g.hi.val⟩⟩ hi ⟨tagRAW, w.val⟩
  else g.setWord hi w.noCap

/-- A saturating counter of `w` bits. -/
def satAdd (w a b : Nat) : Nat := min (2 ^ w - 1) (a + b)

/-- Replace the element at an index, where there is one. -/
def listSet {α : Type} : List α → Nat → α → List α
  | [], _, _ => []
  | _ :: xs, 0, y => y :: xs
  | x :: xs, n + 1, y => x :: listSet xs n y

/-- Remove the element at an index, where there is one. -/
def listDel {α : Type} : List α → Nat → List α
  | [], _ => []
  | _ :: xs, 0 => xs
  | x :: xs, n + 1 => x :: listDel xs n

/-- The element at an index. -/
def listAt {α : Type} : List α → Nat → Option α
  | [], _ => none
  | x :: _, 0 => some x
  | _ :: xs, n + 1 => listAt xs n

/-- The index of the first element that passes a test. -/
def listFind {α : Type} (p : α → Bool) : List α → Option Nat
  | [] => none
  | x :: xs => if p x then some 0 else (listFind p xs).map (· + 1)

/-- 0, 1, …, n−1. -/
def upTo : Nat → List Nat
  | 0 => []
  | n + 1 => upTo n ++ [n]

/-- Whether bit i of a mask is set. -/
def maskBit {w : Nat} (m : BitVec w) (i : Nat) : Bool := m.getLsbD i

/-- A mask with bit i set. -/
def maskSet {w : Nat} (m : BitVec w) (i : Nat) : BitVec w := m ||| (1#w <<< i)

/-- A mask with bit i cleared. -/
def maskClr {w : Nat} (m : BitVec w) (i : Nat) : BitVec w := m &&& ~~~(1#w <<< i)

end Sys2Proof
end

