-- ==== Sys2Proof/Machine/Cap.lean ====
section
/-!
DEFINITION. Capabilities as values (chapter 03): fields, bounds, well-formedness, derivation. Nothing here reads memory.
-/

namespace Sys2Proof

/-- The fields of a capability (03 Tables 3.1 and 3.2). -/
structure Cap where
  node : Nat
  addr : Nat
  perms : BitVec 12
  kind : Nat
  ver : Nat
  otype : Nat
  e : Nat
  b : Nat
  t : Nat
  deriving DecidableEq, Repr

/-- Kinds (03 Table 3.4). -/
abbrev kDATA : Nat := 0
abbrev kCODE : Nat := 1
abbrev kPAIR : Nat := 2
abbrev kVEC : Nat := 3
abbrev kREC : Nat := 4
abbrev kENTRY : Nat := 5
abbrev kSTACK : Nat := 6
abbrev kFRAME : Nat := 7
abbrev kDEVICE : Nat := 8

/-- PERMS bits (03 Table 3.3). -/
abbrev pLD : Nat := 11
abbrev pST : Nat := 10
abbrev pEX : Nat := 9
abbrev pLDC : Nat := 8
abbrev pSTC : Nat := 7
abbrev pSTLC : Nat := 6
abbrev pSEAL : Nat := 5
abbrev pUNSEAL : Nat := 4
abbrev pINVOKE : Nat := 3
abbrev pGLOBAL : Nat := 2
abbrev pIMMUT : Nat := 1
abbrev pSYS : Nat := 0

/-- Read the fields of a slot's two payloads, whatever its tags. -/
def Cap.ofGran (g : Gran) : Cap :=
  let l := g.lo.val.toNat
  let h := g.hi.val.toNat
  { node := nbits l 63 48, addr := nbits l 47 0, perms := BitVec.ofNat 12 (nbits h 63 52), kind := nbits h 51 48,
    ver := nbits h 47 44, otype := nbits h 43 32, e := nbits h 31 26, b := nbits h 25 13, t := nbits h 12 0 }

/-- The low word's payload. -/
def Cap.loVal (c : Cap) : Word64 := w64 ((c.node % 2 ^ 16) * 2 ^ 48 + c.addr % 2 ^ 48)

/-- The high word's payload. -/
def Cap.hiVal (c : Cap) : Word64 :=
  w64 (c.perms.toNat * 2 ^ 52 + (c.kind % 16) * 2 ^ 48 + (c.ver % 16) * 2 ^ 44 + (c.otype % 4096) * 2 ^ 32 +
    (c.e % 64) * 2 ^ 26 + (c.b % 8192) * 2 ^ 13 + c.t % 8192)

/-- The capability granule of a capability (02 R24). -/
def Cap.toGran (c : Cap) : Gran := ⟨⟨tagCAPL, c.loVal⟩, ⟨tagCAPH, c.hiVal⟩⟩

/-- Whether a permission is held. -/
def Cap.has (c : Cap) (p : Nat) : Bool := c.perms.getLsbD p

/-- 03 R44: base and top as granule indices; none for a form fault. -/
def Cap.bounds (c : Cap) : Option (Nat × Nat) :=
  if c.e > 32 then none
  else
    let base? : Option Nat :=
      if c.e ≥ 31 then some (c.b * 2 ^ c.e)
      else if c.t > 7167 then none
      else
        let u := (c.addr / 16) / 2 ^ c.e
        let d := (u % 8192 + 8192 * 2 - c.b + 1024) % 8192
        some (((u + 2 ^ 45 - d + 1024) * 2 ^ c.e) % 2 ^ 44)
    match base? with
    | none => none
    | some base =>
      let top := base + c.t * 2 ^ c.e
      if base ≥ 2 ^ 44 || top > 2 ^ 44 then none else some (base, top)

/-- 03 R38: a capability that has IMMUT holds none of ST, STC, STLC. -/
def Cap.immutOk (c : Cap) : Bool := !(c.has pIMMUT && (c.has pST || c.has pSTC || c.has pSTLC))

/-- 03 R46: well-formed. -/
def Cap.wf (c : Cap) : Bool := c.bounds.isSome && c.kind ≤ 8 && c.ver != 15 && c.immutOk

/-- Base in granules, 0 where decoding faults. -/
def Cap.base (c : Cap) : Nat := match c.bounds with | some (b, _) => b | none => 0

/-- Top in granules, 0 where decoding faults. -/
def Cap.top (c : Cap) : Nat := match c.bounds with | some (_, t) => t | none => 0

/-- 03 R43: an access of `s` bytes at `x` lies within bounds. -/
def Cap.inBounds (c : Cap) (x : Int) (s : Nat) : Bool :=
  decide ((16 * c.base : Int) ≤ x) && decide (x + s ≤ (16 * c.top : Int))

/-- 03 R45: whether the granule index of a new address lies in the representable window. -/
def Cap.inWindow (c : Cap) (addr : Nat) : Bool :=
  if c.e ≥ 31 then true
  else
    let lowEdge := c.base + 2 ^ 44 * 2 - 1024 * 2 ^ c.e
    decide ((addr / 16 + 2 ^ 44 * 2 - lowEdge % 2 ^ 44) % 2 ^ 44 < 2 ^ (c.e + 13))

/-- 03 R45: a slot with ADDR changed to `a`, untagged to RAW where `a` overflows 48 bits or leaves the window. -/
def Cap.withAddr (c : Cap) (a : Int) : Gran :=
  let a48 := (a % (2 ^ 48 : Int)).toNat
  if decide (0 ≤ a) && decide (a < 2 ^ 48) && c.inWindow a48 then ({ c with addr := a48 } : Cap).toGran
  else Gran.ofWord (TWord.raw ({ c with addr := a48 } : Cap).loVal)

/-- 03 R47: the exponent search over e = 0 … 30, from `e`, `n` steps left. -/
def fitExp (lo hi : Nat) : Nat → Nat → Option (Nat × Nat)
  | 0, _ => none
  | n + 1, e =>
    let span := (hi + 2 ^ e - 1) / 2 ^ e - lo / 2 ^ e
    if span ≤ 7167 then some (e, span) else fitExp lo hi n (e + 1)

/-- 03 R47: the smallest exponent that fits [lo, hi), in granules. -/
def boundsExp (lo hi : Nat) : Nat :=
  match fitExp lo hi 31 0 with
  | some (e, _) => e
  | none => if (hi + 2 ^ 31 - 1) / 2 ^ 31 - lo / 2 ^ 31 > 8191 then 32 else 31

/-- A capability with the bounds [base, top) in granules, encoded with exponent `e`. -/
def Cap.encBounds (c : Cap) (e base top : Nat) : Cap :=
  { c with e := e, b := (base / 2 ^ e) % 8192, t := (top - base) / 2 ^ e }

/-- 03 R47: the outward-rounded bounds of `n` bytes from ADDR: exponent, base', top', and the granules wanted. -/
def Cap.reqBounds (c : Cap) (n : Nat) : Nat × Nat × Nat × Nat × Nat :=
  let lo := c.addr / 16
  let hi := (c.addr + n + 15) / 16
  let e := boundsExp lo hi
  (e, lo / 2 ^ e * 2 ^ e, (hi + 2 ^ e - 1) / 2 ^ e * 2 ^ e, lo, hi)

/-- 03 R48: the exponent for an object of `g` granules at a suitable base, `n` steps from `e`. -/
def fitLenExp (g : Nat) : Nat → Nat → Option Nat
  | 0, _ => none
  | n + 1, e => if (g + 2 ^ e - 1) / 2 ^ e ≤ 7167 then some e else fitLenExp g n (e + 1)

/-- 03 R48: the exponent of CFITLEN and CFITALN. -/
def lenExp (n : Nat) : Nat :=
  let g := (n + 15) / 16
  match fitLenExp g 31 0 with
  | some e => e
  | none => if (g + 2 ^ 31 - 1) / 2 ^ 31 ≤ 8191 then 31 else 32

/-- 03 R48: CFITLEN. -/
def cfitlen (n : Nat) : Nat :=
  let e := lenExp n
  ((n + 15) / 16 + 2 ^ e - 1) / 2 ^ e * 2 ^ e * 16

/-- 03 R48: CFITALN. -/
def cfitaln (n : Nat) : Nat := 16 * 2 ^ lenExp n

/-- An exact capability over [base, top) granules; the exponent is R47's. -/
def Cap.exact (node addr : Nat) (perms : BitVec 12) (kind ver base top : Nat) : Cap :=
  ({ node := node, addr := addr, perms := perms, kind := kind, ver := ver, otype := 0, e := 0, b := 0, t := 0 } : Cap).encBounds
    (boundsExp base top) base top

/-- 03 Table 3.4: whether CSETK may change KIND `k` to `k'` for a capability whose length is `bytes` bytes. -/
def kindPath (k k' bytes : Nat) : Bool :=
  if k' > 8 then false
  else if k == k' then k ≤ 8
  else
    match k, k' with
    | 0, 2 => bytes == 32
    | 0, 3 => true
    | 0, 4 => true
    | 0, 6 => true
    | 2, 0 => true
    | 3, 0 => true
    | 4, 0 => true
    | 6, 0 => true
    | 1, 5 => true
    | _, _ => false

/-- Kinds that loads of memory may go through (03 Table 3.4). -/
def kindLoads (k : Nat) : Bool := k == kDATA || k == kCODE || k == kPAIR || k == kVEC || k == kREC || k == kSTACK || k == kFRAME

/-- Kinds that stores to memory may go through. -/
def kindStores (k : Nat) : Bool := kindLoads k && k != kCODE

/-- 03 R50: a sealing key's bounds are exactly one granule. -/
def Cap.isKey (c : Cap) : Bool := match c.bounds with | some (b, t) => t == b + 1 | none => false

/-- CANDP (03 Table 3.6): IMMUT is kept whatever the mask's bit 1 holds. -/
def Cap.andPerms (c : Cap) (mask : BitVec 12) : Cap := { c with perms := c.perms &&& (mask ||| 0x002#12) }

/-- CFREEZE (03 Table 3.6). -/
def Cap.freeze (c : Cap) : Cap := { c with perms := (c.perms &&& 0xB3F#12) ||| 0x002#12 }

/-- Subcodes of CAPABILITY_FAULT (03 Table 3.8). -/
abbrev cfVALID : Nat := 0x01
abbrev cfFORM : Nat := 0x02
abbrev cfSEALED : Nat := 0x03
abbrev cfUNSEALED : Nat := 0x04
abbrev cfOTYPE : Nat := 0x05
abbrev cfPERM : Nat := 0x06
abbrev cfKIND : Nat := 0x07
abbrev cfBOUNDS : Nat := 0x08
abbrev cfREPRESENT : Nat := 0x09
abbrev cfLOCAL : Nat := 0x0A
abbrev cfVERSION : Nat := 0x0B
abbrev cfRETIRED : Nat := 0x0C
abbrev cfUNVERSIONED : Nat := 0x0D
abbrev cfREMOTE : Nat := 0x0E

/-- The roots of 03 Table 3.7. -/
def rootMemory : Gran := ⟨⟨tagCAPL, 0xFFFF_0000_0000_0000⟩, ⟨tagCAPH, 0xDC40_0000_8000_1000⟩⟩
def rootCodeYard : Gran := ⟨⟨tagCAPL, 0xFFFF_0000_0000_0000⟩, ⟨tagCAPH, 0xB051_0000_8000_1000⟩⟩
def rootCodeBerth : Gran := ⟨⟨tagCAPL, 0xFFFF_0000_0000_0000⟩, ⟨tagCAPH, 0xB041_0000_8000_1000⟩⟩
def rootSealing : Gran := ⟨⟨tagCAPL, 0xFFFF_0000_0000_0000⟩, ⟨tagCAPH, 0x0340_0000_0000_1000⟩⟩
def rootDevice : Gran := ⟨⟨tagCAPL, 0xFFFF_0000_0000_0000⟩, ⟨tagCAPH, 0xC058_0000_4000_1000⟩⟩

end Sys2Proof
end

