-- ==== Sys2Proof/Machine/Rs.lean ====
section
/-!
DEFINITION. The check code of granules (02 R30, R31) and the poisoned form (13 R306).
-/

namespace Sys2Proof

/-- Multiplication by α in GF(2)[x] modulo x^8 + x^4 + x^3 + x^2 + 1 (02 R30). -/
def gfAlpha (a : BitVec 8) : BitVec 8 := (a <<< 1) ^^^ (if a.getLsbD 7 then 0x1D#8 else 0#8)

/-- Multiplication in the field, one bit of the second factor at a time. -/
def gfMulAux : Nat → BitVec 8 → BitVec 8 → BitVec 8
  | 0, _, _ => 0
  | n + 1, a, b => (if b.getLsbD 0 then a else 0) ^^^ gfMulAux n (gfAlpha a) (b >>> 1)

/-- Multiplication in the field. -/
def gfMul (a b : BitVec 8) : BitVec 8 := gfMulAux 8 a b

/-- The information bytes at positions 3 to 20 of the codeword (Table 2.4), position 3 first. -/
def infoBytes (g : Gran) : List Byte :=
  leBytes 8 g.lo.val.toNat ++ leBytes 8 g.hi.val.toNat ++ [g.lo.tag, g.hi.tag]

/-- The 21 bytes of the codeword (Table 2.4), position 0 first. -/
def codeword (g : Gran) (chk : BitVec 24) : List Byte := leBytes 3 chk.toNat ++ infoBytes g

/-- One step of the division by g(x) = x³ + 0x07·x² + 0x0E·x + 0x08 (02 R30). -/
def rsStep (r : BitVec 8 × BitVec 8 × BitVec 8) (c : BitVec 8) : BitVec 8 × BitVec 8 × BitVec 8 :=
  let fb := c ^^^ r.2.2
  (gfMul fb 0x08, r.1 ^^^ gfMul fb 0x0E, r.2.1 ^^^ gfMul fb 0x07)

/-- The check bytes CHK[23:0] of a granule: the remainder of 02 R30. -/
def rsEncode (g : Gran) : BitVec 24 :=
  let r := (infoBytes g).reverse.foldl rsStep (0, 0, 0)
  BitVec.ofNat 24 (r.1.toNat + 256 * r.2.1.toNat + 65536 * r.2.2.toNat)

/-- The syndromes s0, s1, s2 of received bytes, position 0 first (02 R31). -/
def rsSyndromes : List Byte → BitVec 8 × BitVec 8 × BitVec 8
  | [] => (0, 0, 0)
  | c :: cs =>
    let s := rsSyndromes cs
    (c ^^^ s.1, c ^^^ gfAlpha s.2.1, c ^^^ gfAlpha (gfAlpha s.2.2))

/-- The position p with s1 = s0·α^p, where it is at most 20: `n` positions from `p` are tried. -/
def rsLocate : Nat → Nat → BitVec 8 → BitVec 8 → Option Nat
  | 0, _, _, _ => none
  | n + 1, p, x, s1 => if x == s1 then some p else rsLocate n (p + 1) (gfAlpha x) s1

/-- What a decoder finds (02 R31, 13 R306). -/
inductive Decoded where
  | clean
  | corrected
  | poison
  | uncorrectable
  deriving DecidableEq, Repr

/-- A granule and its check bytes rebuilt from a codeword. -/
def ofCodeword (c : List Byte) : Gran × BitVec 24 :=
  (⟨⟨BitVec.ofNat 8 (leAt c 19 1), w64 (leAt c 3 8)⟩, ⟨BitVec.ofNat 8 (leAt c 20 1), w64 (leAt c 11 8)⟩⟩,
   BitVec.ofNat 24 (leAt c 0 3))

/-- Decode a granule with its check bytes (02 R31): the finding, and the granule and check bytes as corrected. The
syndrome 0x00, 0x03, 0x05 is the mark of a poisoned granule (13 R306). -/
def rsDecode (g : Gran) (chk : BitVec 24) : Decoded × Gran × BitVec 24 :=
  let cw := codeword g chk
  let s := rsSyndromes cw
  if s.1 == 0 && s.2.1 == 0 && s.2.2 == 0 then (.clean, g, chk)
  else if s.1 == 0 && s.2.1 == 0x03 && s.2.2 == 0x05 then (.poison, g, chk)
  else if s.1 != 0 && s.2.1 != 0 && s.2.2 != 0 && gfMul s.2.1 s.2.1 == gfMul s.1 s.2.2 then
    match rsLocate 21 0 s.1 s.2.1 with
    | some p =>
      let r := ofCodeword (listSet cw p ((listAt cw p).getD 0 ^^^ s.1))
      (.corrected, r.1, r.2)
    | none => (.uncorrectable, g, chk)
  else (.uncorrectable, g, chk)

/-- The check bytes of a granule marked poisoned: K0 and K1 each with bit 0 inverted (13 R306). -/
def rsPoison (g : Gran) : BitVec 24 := rsEncode g ^^^ 0x000101#24

/-- A memory granule with a new content, check bytes recomputed and collector bits kept (02 R20, R28, R31). -/
def MGran.setGran (m : MGran) (g : Gran) : MGran := { m with g := g, chk := rsEncode g }

/-- A memory granule marked poisoned (13 R306). -/
def MGran.poisoned (m : MGran) : MGran := { m with chk := rsPoison m.g }

end Sys2Proof
end

