-- ==== Sys2Proof/Config.lean ====
section
/-!
DEFINITION. What the spec leaves open as a VALUE: opaque constants, with no body that a proof could look into. A
statement that mentions one holds for every value of it. Each has a row in notes/assumptions.
-/

namespace Sys2Proof

/-- Which entry of a full translation cache a fill replaces (11 R263: 'replaced at random'), by the fill's count. -/
opaque Config.tlbVictim : Nat → Nat

/-- Which of its eligible ways a hayloft fill replaces once none is invalid (10 R228: pseudo-LRU, whose tree the spec
does not give), by the fill's count. -/
opaque Config.wayVictim : Nat → Nat

/-- The keys of R213 stand in no access path: whether a signature verifies under the public key of a KEY_EPOCH, over the
bytes before it (09 R213, 19 R443). -/
opaque Config.signatureValid : Nat → List Byte → List Byte → Bool

/-- AES-256-GCM decryption under the family key of a KEY_EPOCH: the payload in clear, or none where it does not
authenticate (09 R213). -/
opaque Config.gcmDecrypt : Nat → List Byte → Option (List Byte)

/-- The 8-bit hash of the PC that keys a stride stream (10 R235 names no function). -/
opaque Config.pcHash : Nat → BitVec 8

/-- The serial number of the part (17 Table 17.12: no default is given). -/
opaque Config.serial : Word64

/-- The words of the firmware image that runs after boot step 2 are not the spec's: the address at which it places
SOUND_BUF, and its size (19 Table 19.9 step 7). -/
opaque Config.soundBuf : Nat × Nat

/-- START_PC and START_REGION that the boot firmware commits for B0 (19 Table 19.9 step 8). -/
opaque Config.yardStart : Nat × Nat

/-- The code and the detail of the trace record of a boot step (19 R452 gives neither). -/
opaque Config.bootTrace : Nat → Nat × Nat

/-- Whether a pulse of uncertain width acts (18 R420, 20 Table 20.7), by its width in ns and the count of draws. -/
opaque Config.shortPulseActs : Nat → Nat → Bool

/-- The WATCH_STATUS bit number in the MOORED frame of a moor that no bit caused (17 R403 states none), by MOOR_SOURCE. -/
opaque Config.moorBit : Nat → Nat

/-- Which FREE segment an engine takes (12 R272 names none), by the number of takes, among the FREE ones in rising order. -/
opaque Config.freeSegment : Nat → Nat

/-- The one-way flight time of a link in ns, half the round trip measured at its training (15 R342). -/
opaque Config.flightTime : Nat → Nat

/-- What FOWNER reads as where a stall holds no context's float state (08 Table 8.10 gives no encoding of 'none'). -/
opaque Config.fownerNone : Word64

/-- The strap HELM_ADDR (20 Table 20.3): the helm's node number, tied on the board. -/
opaque Config.helmAddr : Nat

/-- The straps LKk_MEDIA (20 Table 20.3), tied on the board: 0 to 3 for each link. -/
opaque Config.lkMedia : Nat → Nat

/-- Which line of a full set of an L1 cache a fill replaces (10 R221: pseudo-LRU, whose tree the spec does not give), by the
fill's count. -/
opaque Config.l1Victim : Nat → Nat

/-- The set of a home agent's directory that a line falls in (10 R229 gives 8,192 sets and no index), and which of its lines
an entry that needs room evicts, by the fill's count. -/
opaque Config.dirSet : Nat → Nat
opaque Config.dirVictim : Nat → Nat

/-- The microwords of the ROM by control-store address, the words of the 18-bit ROM of VZ-3, and the address at which each
routine of Table 9.7 is entered, by the table's row (09 R199, R217: the contents are not in the spec). -/
opaque Config.rom : Nat → BitVec 192
opaque Config.rom18 : Nat → BitVec 18
opaque Config.routineEntry : Nat → Nat

/-- What the datapath of a sequencer answers: a branch condition that depends on it, and the value of an ALU or memory result,
by the count of draws (09 R201: AOP, TAGOP, MATTR, CAPOP and CHK have no code points in the spec). -/
opaque Config.microFlag : Nat → Nat → Bool
opaque Config.microValue : Nat → BitVec 144

/-- What the board measures (19 Table 19.14): POWER_IN, and TJ_AVG as an I32, at a time since power-on. -/
opaque Config.powerIn : Nat → Nat
opaque Config.tjAvg : Nat → Nat

end Sys2Proof
end

