-- ==== Sys2Proof/Machine/Entries.lean ====
section
/-!
DEFINITION. The dictionary's entry tables: for each entry its type, its access code, its default and the values it takes
(11 to 20, the tables named beside each index).
-/

namespace Sys2Proof

/-- The key of entry index:subindex. -/
abbrev ekey (idx sub : Nat) : Nat := idx * 256 + sub

/-! ### Gate slots (17 Table 17.13) -/

/-- Window sizes. -/
def gateSize (g : Nat) : Nat :=
  if g ≤ 16 then 0x1000
  else match g with
    | 17 => 0x10000
    | 18 => 0x4000
    | 19 => 0x4000
    | 20 => 0x800_0000
    | _ => 0

/-- Default window bases. -/
def gateBase (g : Nat) : Nat :=
  if g < 16 then 0x1000 * g
  else match g with
    | 16 => 0x0001_0000
    | 17 => 0x0002_0000
    | 18 => 0x0003_0000
    | 19 => 0x0003_4000
    | 20 => 0x0800_0000
    | _ => 0

/-- Default LEVELS. -/
def gateLevels (g : Nat) : Nat :=
  if g < 16 then 0x1D
  else match g with
    | 16 => 0x01
    | 17 => 0x1F
    | 18 => 0x1F
    | 19 => 0x1F
    | 20 => 0x39
    | _ => 0

/-- Text as the bytes of a STR entry. -/
def strBytes (t : String) : List Byte := t.toList.map (fun c => BitVec.ofNat 8 c.toNat)

/-- A number of up to two digits, as text. -/
def digits (n : Nat) : List Byte := (if n < 10 then [] else [BitVec.ofNat 8 (48 + n / 10)]) ++ [BitVec.ofNat 8 (48 + n % 10)]

/-- Unit names. -/
def gateUnit (g : Nat) : List Byte :=
  if g < 16 then strBytes "Hayloft control, SH" ++ digits g
  else if 25 ≤ g ∧ g ≤ 40 then strBytes "Memory port MP" ++ digits (g - 25)
  else if 41 ≤ g ∧ g ≤ 52 then strBytes "Link LK" ++ digits (g - 41)
  else match g with
    | 16 => strBytes "Stall window"
    | 17 => strBytes "Translation control"
    | 18 => strBytes "Groom control"
    | 19 => strBytes "Berth control"
    | 20 => strBytes "Dictionary window"
    | 21 => strBytes "Watch"
    | 22 => strBytes "Helm"
    | 23 => strBytes "Host port"
    | 24 => strBytes "Compass"
    | 53 => strBytes "Clock and power control"
    | 54 => strBytes "Mesh"
    | 55 => strBytes "Gate unit"
    | _ => []

/-! ### Defaults -/

/-- Defaults of a berth's entries (12 Table 12.7, 16 Table 16.6). -/
def berthDefault (b sub : Nat) : Nat :=
  match sub with
  | 0x01 => if b = 0 then 2 else 0
  | 0x05 => if b = 0 then 2 else 1
  | 0x08 => 512
  | 0x09 => 1048576
  | 0x0A => 1008
  | 0x0B => 16384
  | 0x0C => 0xFFFF_FFFF_FFFF_FFFF
  | 0x0D => 0xFFFF
  | 0x0E => 16
  | 0x0F => 16
  | 0x1B => 5000
  | 0x43 => 16384
  | 0x44 => 0xDC4
  | 0x4D => 256
  | 0x4E => 2
  | 0x4F => 60
  | 0x50 => 25
  | 0x51 => 64
  | _ => 0

/-- Defaults of a memory port's entries (13 Table 13.5). -/
def portDefault (sub : Nat) : Nat :=
  match sub with
  | 0x0A => 8
  | 0x13 => 1
  | _ => 0

/-- Defaults of the compass's entries (14 Table 14.8, 15 Table 15.6). -/
def compassDefault (sub : Nat) : Nat :=
  match sub with
  | 0x01 => 0xFFFF
  | 0x02 => 0xFFFF
  | 0x09 => 1000
  | 0x0A => 1
  | 0x10 => 128
  | 0x11 => 8
  | 0x12 => 20
  | 0x13 => 10
  | 0x14 => 100
  | 0x15 => 0xFF
  | _ => 0

/-- Defaults of a link's entries (14 Table 14.9). -/
def linkDefault (sub : Nat) : Nat :=
  match sub with
  | 0x06 => 1
  | 0x0A => 0xFFFF
  | 0x0B => 2
  | 0x0C => 4
  | 0x0D => 50000
  | 0x0E => 1000
  | _ => 0

/-- Defaults of the helm's entries (17 Table 17.12). -/
def helmDefault (sub : Nat) : Nat :=
  match sub with
  | 0x01 => 0x5160
  | 0x02 => 0xB0
  | 0x08 => 1
  | 0x10 => 2
  | 0x11 => 30
  | 0x12 => 100
  | _ => 0

/-- Default severities (18 Table 18.4). -/
def sevDefault (n : Nat) : Nat := if (44 ≤ n ∧ n ≤ 45) ∨ (47 ≤ n ∧ n ≤ 49) then 4 else 2

/-- Defaults of the watch's entries (18 Table 18.8). -/
def watchDefault (sub : Nat) : Nat :=
  match sub with
  | 0x03 => 0xFF
  | 0x06 => 0xFF
  | 0x0C => 0x0001_0100
  | n => if 0x40 ≤ n ∧ n < 0x78 then sevDefault (n - 0x40) else 0

/-- Defaults of a gate slot's entries (17 Tables 17.13 and 17.14). -/
def gateDefault (g sub : Nat) : Nat :=
  match sub with
  | 0x02 => gateSize g
  | 0x03 => gateBase g
  | 0x04 => gateLevels g
  | 0x05 => 0xFFFF_FFFF_FFFF_FFFF
  | _ => 0

/-- Default values, by key. -/
def entryDefault (k : Nat) : Nat :=
  let idx := k / 256
  let sub := k % 256
  if 0x3100 ≤ idx ∧ idx < 0x3140 then berthDefault (idx - 0x3100) sub
  else if 0x4000 ≤ idx ∧ idx < 0x4010 then portDefault sub
  else if 0x5010 ≤ idx ∧ idx < 0x501C then linkDefault sub
  else if 0x7000 ≤ idx ∧ idx < 0x7040 then gateDefault (idx - 0x7000) sub
  else
    match idx with
    | 0x1000 => helmDefault sub
    | 0x2000 => if sub = 2 ∨ sub = 3 then 4 else 0
    | 0x2100 => (match sub with | 0x01 => 50 | 0x02 => 20 | 0x03 => 95 | 0x04 => 750 | _ => 0)
    | 0x2200 => if sub = 5 then 0xFF else 0
    | 0x5000 => compassDefault sub
    | 0x6000 => watchDefault sub
    | 0x8000 => (match sub with | 0x01 => 0x5160_B001 | 0x04 => 0x0200_0000_0000_0000 | 0x05 => 65536 | _ => 0)
    | 0xA000 => if sub = 6 then 65536 else 0
    | 0xF000 => if sub = 5 then 10000 else 0
    | _ => 0

/-- The tallies of an unprogrammed part (19 Table 19.11): value of tally t at key t, its changes left at key 0x10 + t. -/
def tallyDefault (t : Nat) : Nat :=
  match t with
  | 0x01 => 0xFFFF
  | 0x11 => 8
  | 0x12 => 32
  | 0x13 => 64
  | 0x14 => 8
  | 0x15 => 2
  | _ => 0

/-! ### Types, access codes and ranges -/

/-- Entry types (17 Table 17.1). -/
inductive EType where
  | bool
  | u8
  | u16
  | u32
  | u64
  | i32
  | str
  | oct
  | dom
  deriving DecidableEq, Repr

/-- Bytes of a type's value; 0 for those of varying length. -/
def EType.bytes : EType → Nat
  | .bool | .u8 => 1
  | .u16 => 2
  | .u32 | .i32 => 4
  | .u64 => 8
  | _ => 0

/-- Access codes of dictionary entries (00 R11). -/
inductive EAcc where
  | ro
  | rw
  | wo
  | w1c
  | rws
  | tal
  deriving DecidableEq, Repr

/-- A berth's entries (12 Table 12.7, 16 Table 16.6). -/
def berthInfo (sub : Nat) : Option (EType × EAcc) :=
  match sub with
  | 0x01 | 0x03 | 0x15 | 0x1E => some (.u8, .ro)
  | 0x02 | 0xFF => some (.u8, .wo)
  | 0x04 => some (.u32, .rws)
  | 0x05 => some (.u8, .rws)
  | 0x06 | 0x07 | 0x17 => some (.u64, .rws)
  | 0x08 | 0x0A | 0x0D => some (.u16, .rw)
  | 0x09 | 0x0B | 0x14 | 0x19 | 0x1B => some (.u32, .rw)
  | 0x0C => some (.u64, .rw)
  | 0x0E | 0x0F => some (.u8, .rw)
  | 0x10 => some (.bool, .ro)
  | 0x11 | 0x12 | 0x1A | 0x1D => some (.u32, .ro)
  | 0x13 => some (.u64, .ro)
  | 0x16 | 0x1C => some (.u32, .w1c)
  | 0x18 => some (.u32, .rws)
  | 0x40 => some (.bool, .rws)
  | 0x41 | 0x42 | 0x46 | 0x47 | 0x48 | 0x49 | 0x4A | 0x4B | 0x4C => some (.u64, .rws)
  | 0x43 | 0x45 => some (.u32, .rws)
  | 0x44 => some (.u16, .rws)
  | 0x4D | 0x51 => some (.u32, .rw)
  | 0x4E | 0x4F | 0x50 => some (.u8, .rw)
  | 0x52 => some (.u8, .wo)
  | 0x53 | 0x56 => some (.u8, .ro)
  | 0x54 => some (.u64, .rw)
  | 0x55 => some (.u64, .wo)
  | 0x57 | 0x58 | 0x5C | 0x5E | 0x5F => some (.u64, .ro)
  | 0x59 | 0x5A | 0x5B | 0x5D => some (.u32, .ro)
  | _ => none

/-- A memory port's entries (13 Table 13.5). -/
def portInfo (p sub : Nat) : Option (EType × EAcc) :=
  match sub with
  | 0x01 | 0x02 | 0x09 | 0x18 => some (.u8, .ro)
  | 0x03 => some (.u16, .ro)
  | 0x04 | 0x06 => some (.u64, .ro)
  | 0x05 | 0x07 | 0x19 => some (.u32, .ro)
  | 0x08 => some (.u8, .wo)
  | 0x0A => some (.u8, .rw)
  | 0x0B => some (.oct, .ro)
  | 0x10 | 0x16 => some (.bool, .rws)
  | 0x11 | 0x12 => some (.u64, .rws)
  | 0x13 | 0x14 | 0x15 => some (.u8, .rws)
  | 0x20 | 0x21 | 0x22 | 0x23 | 0x27 => some (.u64, .w1c)
  | 0x24 | 0x25 | 0x26 => some (.u64, .ro)
  | 0x28 => some (.u32, .w1c)
  | 0xFF => if p = 0 then some (.u8, .wo) else none
  | _ => none

/-- The compass's entries (14 Table 14.8, 15 Table 15.6). -/
def compassInfo (sub : Nat) : Option (EType × EAcc) :=
  match sub with
  | 0x01 | 0x02 => some (.u16, .ro)
  | 0x03 | 0x0A => some (.bool, .rw)
  | 0x04 => some (.u8, .wo)
  | 0x05 | 0x06 | 0x15 | 0x16 | 0x17 => some (.u8, .ro)
  | 0x07 => some (.u64, .rw)
  | 0x08 | 0x09 => some (.u32, .rw)
  | 0x0B | 0x1C | 0x1D => some (.u64, .ro)
  | 0x0C | 0x0D | 0x19 => some (.u32, .ro)
  | 0x0E | 0x1F => some (.u32, .w1c)
  | 0x10 | 0x12 | 0x13 | 0x14 => some (.u16, .rw)
  | 0x11 => some (.u8, .rw)
  | 0x18 => some (.i32, .ro)
  | 0x1A | 0x1B | 0x1E => some (.u64, .w1c)
  | 0x20 => some (.u16, .w1c)
  | 0x21 => some (.u8, .w1c)
  | _ => none

/-- A link's entries (14 Table 14.9). -/
def linkInfo (sub : Nat) : Option (EType × EAcc) :=
  match sub with
  | 0x01 => some (.bool, .rw)
  | 0x02 | 0x06 | 0x0B | 0x0C => some (.u8, .rw)
  | 0x03 | 0x04 | 0x05 | 0x07 | 0x09 => some (.u8, .ro)
  | 0x08 | 0x16 | 0x17 => some (.u64, .ro)
  | 0x0A => some (.u16, .ro)
  | 0x0D => some (.u32, .rw)
  | 0x0E => some (.u16, .rw)
  | 0x0F => some (.u8, .wo)
  | 0x10 | 0x11 | 0x12 | 0x13 => some (.u64, .w1c)
  | 0x14 | 0x15 => some (.u32, .w1c)
  | _ => none

/-- The helm's entries (17 Table 17.12). -/
def helmInfo (sub : Nat) : Option (EType × EAcc) :=
  match sub with
  | 0x01 | 0x07 | 0x08 => some (.u16, .ro)
  | 0x02 | 0x06 | 0x13 | 0x1A => some (.u8, .ro)
  | 0x03 => some (.u64, .ro)
  | 0x04 | 0x05 => some (.str, .ro)
  | 0x10 => some (.u8, .rw)
  | 0x11 | 0x12 => some (.u16, .rw)
  | 0x14 | 0x15 | 0x16 => some (.u32, .w1c)
  | 0x17 | 0x18 => some (.u8, .w1c)
  | 0x19 => some (.u64, .rw)
  | _ => none

/-- The watch's entries (18 Table 18.8). -/
def watchInfo (sub : Nat) : Option (EType × EAcc) :=
  match sub with
  | 0x01 => some (.u64, .w1c)
  | 0x02 | 0x03 | 0x06 | 0x07 => some (.u8, .ro)
  | 0x04 | 0x08 | 0x0A => some (.u64, .ro)
  | 0x05 | 0x0B => some (.u8, .wo)
  | 0x09 => some (.u32, .ro)
  | 0x0C => some (.u32, .rw)
  | n =>
    if 0x40 ≤ n ∧ n < 0x78 then some (.u8, .rw)
    else if (0x80 ≤ n ∧ n < 0xB8) ∨ (0xC0 ≤ n ∧ n < 0xF8) then some (.u32, .w1c)
    else none

/-- A gate slot's entries (17 Table 17.14). -/
def gateInfo (g sub : Nat) : Option (EType × EAcc) :=
  match sub with
  | 0x01 => some (.str, .ro)
  | 0x02 | 0x11 => some (.u32, .ro)
  | 0x03 => some (.u32, .rw)
  | 0x04 | 0x09 => some (.u8, .rw)
  | 0x05 => some (.u64, .rw)
  | 0x06 => some (.bool, .rw)
  | 0x07 | 0x08 => some (.u8, .ro)
  | 0x10 | 0x12 => some (.u64, .ro)
  | 0x13 => some (.u8, .wo)
  | 0x14 => some (.u32, .w1c)
  | 0xF0 => if g = 0 then some (.u8, .wo) else none
  | 0xF1 => if g = 0 then some (.bool, .ro) else none
  | _ => none

/-- Indexes 0x1100, 0x2000, 0x2100 and 0x2200 (19 Tables 19.2, 19.4, 19.10 and 19.13). -/
def chipInfo (idx sub : Nat) : Option (EType × EAcc) :=
  match idx, sub with
  | 0x1100, 0x01 => some (.u16, .tal)
  | 0x1100, 0x02 | 0x1100, 0x04 | 0x1100, 0x05 => some (.u8, .tal)
  | 0x1100, 0x03 => some (.u32, .tal)
  | 0x1100, 0x10 => some (.u8, .wo)
  | 0x1100, 0x20 => some (.u16, .ro)
  | 0x2000, 0x01 => some (.bool, .ro)
  | 0x2000, 0x02 => some (.u8, .rw)
  | 0x2000, 0x03 | 0x2000, 0x04 => some (.u8, .ro)
  | 0x2100, 0x01 => some (.u16, .rw)
  | 0x2100, 0x02 | 0x2100, 0x03 => some (.u8, .rw)
  | 0x2100, 0x04 => some (.u16, .ro)
  | 0x2200, 0x01 | 0x2200, 0x07 => some (.u8, .wo)
  | 0x2200, 0x02 | 0x2200, 0x03 | 0x2200, 0x04 | 0x2200, 0x05 => some (.u8, .ro)
  | 0x2200, 0x06 => some (.u32, .ro)
  | 0x2200, 0x08 => some (.u64, .ro)
  | i, n =>
    if i = 0x1100 ∧ 0x11 ≤ n ∧ n ≤ 0x15 then some (.u8, .ro)
    else if i = 0x2100 ∧ 0x10 ≤ n ∧ n ≤ 0x1A then some (.u8, .rw)
    else none

/-- Indexes 0x5100, 0x8000, 0x9000, 0xA000 and 0xF000 (14 Table 14.10, 09 Table 9.12, 17 Tables 17.7 and 17.4, 19 Table 19.14). -/
def toolInfo (idx sub : Nat) : Option (EType × EAcc) :=
  match idx, sub with
  | 0x5100, 0x01 | 0x5100, 0x02 => some (.dom, .rw)
  | 0x5100, 0x03 | 0x5100, 0x04 => some (.dom, .ro)
  | 0x5100, 0x05 => some (.u8, .ro)
  | 0x5100, 0xFF => some (.u8, .wo)
  | 0x8000, 0x01 | 0x8000, 0x02 | 0x8000, 0x03 | 0x8000, 0x05 => some (.u32, .ro)
  | 0x8000, 0x04 => some (.u64, .ro)
  | 0x8000, 0x06 => some (.u8, .wo)
  | 0x8000, 0x07 | 0x8000, 0x08 => some (.u8, .ro)
  | 0x8000, 0x09 => some (.u16, .ro)
  | 0x8000, 0x0A => some (.u32, .w1c)
  | 0x9000, 0x01 => some (.u64, .rw)
  | 0x9000, 0x02 => some (.u32, .rw)
  | 0x9000, 0x03 => some (.dom, .rw)
  | 0x9000, 0x04 => some (.u8, .ro)
  | 0x9000, 0x05 => some (.u32, .ro)
  | 0x9000, 0x06 => some (.u64, .ro)
  | 0xA000, 0x01 | 0xA000, 0x04 | 0xA000, 0x06 | 0xA000, 0x07 => some (.u32, .ro)
  | 0xA000, 0x02 => some (.i32, .ro)
  | 0xA000, 0x03 => some (.u64, .ro)
  | 0xA000, 0x05 => some (.u16, .ro)
  | 0xF000, 0x01 => some (.u16, .ro)
  | 0xF000, 0x02 => some (.u8, .ro)
  | 0xF000, 0x03 | 0xF000, 0x04 => some (.u32, .ro)
  | 0xF000, 0x05 => some (.u32, .rw)
  | 0xF000, 0x06 => some (.u16, .wo)
  | i, n =>
    if i = 0x8000 ∧ 0x40 ≤ n ∧ n < 0x80 then some (.u32, .ro)
    else if i = 0x9000 ∧ 0x80 ≤ n then some (.dom, .rw)
    else if i = 0xA000 ∧ ((0x10 ≤ n ∧ n < 0x24) ∨ (0x30 ≤ n ∧ n < 0x40)) then some (.i32, .ro)
    else none

/-- The type and the access code of an entry; none where no table defines it (17 R388). -/
def entryInfo (idx sub : Nat) : Option (EType × EAcc) :=
  if 256 ≤ sub then none
  else if 0x3100 ≤ idx ∧ idx < 0x3140 then berthInfo sub
  else if 0x4000 ≤ idx ∧ idx < 0x4010 then portInfo (idx - 0x4000) sub
  else if 0x5010 ≤ idx ∧ idx < 0x501C then linkInfo sub
  else if 0x7000 ≤ idx ∧ idx < 0x7040 then gateInfo (idx - 0x7000) sub
  else
    match idx with
    | 0x1000 => helmInfo sub
    | 0x1100 | 0x2000 | 0x2100 | 0x2200 => chipInfo idx sub
    | 0x5000 => compassInfo sub
    | 0x6000 => watchInfo sub
    | 0x5100 | 0x8000 | 0x9000 | 0xA000 | 0xF000 => toolInfo idx sub
    | _ => none

/-- Whether a value lies between two others. -/
def within (v lo hi : Nat) : Bool := decide (lo ≤ v) && decide (v ≤ hi)

/-- The values that an entry's table admits, beyond those of its type (17 R387; 00 R13). -/
def entryRange (idx sub v : Nat) : Bool :=
  if 0x3100 ≤ idx ∧ idx < 0x3140 then
    match sub with
    | 0x05 => within v 0 3
    | 0x08 => within v 64 65535
    | 0x09 => v == 0 || within v 65536 1073741824
    | 0x0A => within v 0 1008
    | 0x0B => within v 0 262144
    | 0x0F => within v 1 255
    | 0x1B => within v 10 1000000
    | 0x4D => within v 1 65536
    | 0x4E => within v 1 3
    | 0x4F => within v 10 95
    | 0x50 => within v 0 90
    | _ => true
  else if 0x4000 ≤ idx ∧ idx < 0x4010 then
    match sub with
    | 0x0A => within v 2 20
    | 0x13 => v == 1 || v == 2 || v == 4 || v == 8 || v == 16
    | 0x14 => within v 0 15
    | 0x15 => within v 0 2
    | _ => true
  else if 0x5010 ≤ idx ∧ idx < 0x501C then
    match sub with
    | 0x02 => within v 0 1
    | 0x06 => v == 1 || v == 2 || v == 4
    | 0x0B => within v 1 4
    | 0x0C => within v 1 4
    | 0x0D => within v 1000 10000000
    | 0x0E => within v 10 60000
    | _ => true
  else if 0x7000 ≤ idx ∧ idx < 0x7040 then
    match sub with
    | 0x03 => let w := gateSize (idx - 0x7000); v % w == 0 && decide (v + w ≤ 2 ^ 32)
    | _ => true
  else
    match idx, sub with
    | 0x1000, 0x10 => v == 1 || v == 2 || v == 4 || v == 5 || v == 8
    | 0x1000, 0x11 => within v 1 3600
    | 0x1000, 0x12 => within v 10 10000
    | 0x2000, 0x02 => v == 4 || v == 5 || v == 6 || v == 8
    | 0x2100, 0x01 => within v 50 1000
    | 0x2100, 0x02 => within v 5 100
    | 0x2100, 0x03 => within v 85 95
    | 0x5000, 0x07 => v % 4096 == 0
    | 0x5000, 0x09 => within v 100 1000000
    | 0x5000, 0x10 => within v 0 256
    | 0x5000, 0x11 => within v 4 32
    | 0x5000, 0x12 => within v 1 1000
    | 0x5000, 0x13 => within v 1 10000
    | 0x5000, 0x14 => within v 10 10000
    | 0x9000, 0x01 => within (v / 2 ^ 56) 0 4 && v % 8 == 0
    | 0x9000, 0x02 => v % 8 == 0
    | 0xF000, 0x05 => within v 100 1000000
    | 0x2100, n => if 0x10 ≤ n then within v 0 127 else true
    | 0x6000, n => if 0x40 ≤ n ∧ n < 0x78 then within v 0 4 else true
    | _, _ => true

/-- Reserved bits of a value are ignored (00 R12). -/
def entryMask (idx sub v : Nat) : Nat :=
  if 0x3100 ≤ idx ∧ idx < 0x3140 ∧ sub = 0x19 then Nat.land v 0x33FFF
  else if 0x7000 ≤ idx ∧ idx < 0x7040 ∧ sub = 0x04 then v % 64
  else if idx = 0x6000 ∧ sub = 0x0C then Nat.land v 0x80FF0F3F
  else v

/-- Whether a value lies in its entry's type. -/
def typeOk (t : EType) (v : Nat) : Bool :=
  match t with
  | .bool => decide (v ≤ 1)
  | .u8 => decide (v < 2 ^ 8)
  | .u16 => decide (v < 2 ^ 16)
  | .u32 | .i32 => decide (v < 2 ^ 32)
  | .u64 => decide (v < 2 ^ 64)
  | _ => false

end Sys2Proof
end

