-- ==== Sys2Proof/Machine/Float.lean ====
section
/-!
DEFINITION. IEEE 754-2019 arithmetic in binary64 and binary32 as chapter 06 decides it. Every operation computes the
exact result on integers and rounds it once. Encodings are numbers; flags are numbered as FSTATUS bits 4:0 (04 R83).
-/

namespace Sys2Proof

/-- A format: precision in bits (hidden bit included) and exponent width. -/
structure Fmt where
  p : Nat
  ew : Nat
  deriving DecidableEq, Repr

/-- binary64 and binary32 (06 R117). -/
abbrev f64 : Fmt := ⟨53, 11⟩
abbrev f32 : Fmt := ⟨24, 8⟩

/-- FSTATUS flags, as numbers. -/
abbrev fNV : Nat := 16
abbrev fDZ : Nat := 8
abbrev fOF : Nat := 4
abbrev fUF : Nat := 2
abbrev fNX : Nat := 1

/-- The result of an operation: encoding, flags (OR of bits), and whether the result is tiny and not zero, exact or
not (06 R122, R123). -/
structure FRes where
  bits : Nat
  flags : Nat
  tiny : Bool
  deriving DecidableEq, Repr

/-- What an encoding stands for; a finite non-zero value is mant · 2^ex. -/
inductive FVal where
  | zero (neg : Bool)
  | fin (neg : Bool) (mant : Nat) (ex : Int)
  | inf (neg : Bool)
  | nan (quiet : Bool)
  deriving DecidableEq, Repr

/-- The exponent of the least significant bit of a subnormal. -/
def Fmt.qmin (f : Fmt) : Int := 3 - Int.ofNat (2 ^ (f.ew - 1)) - Int.ofNat f.p

/-- The sign bit's weight. -/
def Fmt.signBit (f : Fmt) : Nat := 2 ^ (f.p - 1 + f.ew)

/-- Positive infinity. -/
def Fmt.infBits (f : Fmt) : Nat := (2 ^ f.ew - 1) * 2 ^ (f.p - 1)

/-- The default NaN (06 R126). -/
def Fmt.nanBits (f : Fmt) : Nat := f.infBits + 2 ^ (f.p - 2)

/-- The sign of an encoding. -/
def Fmt.neg (f : Fmt) (x : Nat) : Bool := x.testBit (f.p - 1 + f.ew)

/-- An encoding with its sign given. -/
def Fmt.withSign (f : Fmt) (neg : Bool) (mag : Nat) : Nat := if neg then f.signBit + mag else mag

/-- Read an encoding. -/
def Fmt.val (f : Fmt) (x : Nat) : FVal :=
  let neg := f.neg x
  let frac := x % 2 ^ (f.p - 1)
  let e := x / 2 ^ (f.p - 1) % 2 ^ f.ew
  if e == 2 ^ f.ew - 1 then
    if frac == 0 then .inf neg else .nan (frac.testBit (f.p - 2))
  else if e == 0 then
    if frac == 0 then .zero neg else .fin neg frac f.qmin
  else .fin neg (frac + 2 ^ (f.p - 1)) (f.qmin + Int.ofNat (e - 1))

/-- Whether an encoding is a NaN, and whether it is a signalling one. -/
def Fmt.isNan (f : Fmt) (x : Nat) : Bool := match f.val x with | .nan _ => true | _ => false
def Fmt.isSnan (f : Fmt) (x : Nat) : Bool := match f.val x with | .nan q => !q | _ => false

/-- A NaN with its quiet bit set (06 R127). -/
def Fmt.quieten (f : Fmt) (x : Nat) : Nat := x ||| 2 ^ (f.p - 2)

/-- Whether rounding to an integer multiple moves the magnitude up, from the kept part `sig`, the remainder and its
modulus (FSTATUS.RM: 0 nearest even, 1 toward zero, 2 down, 3 up, 4 nearest away). -/
def roundUp (rm : Nat) (neg : Bool) (sig rem modulus : Nat) : Bool :=
  if rem == 0 then false
  else if rm == 1 then false
  else if rm == 2 then neg
  else if rm == 3 then !neg
  else if rm == 4 then decide (2 * rem ≥ modulus)
  else decide (2 * rem > modulus) || (2 * rem == modulus && sig % 2 == 1)

/-- The value m·2^e rounded to a multiple of 2^q: the multiple, and whether it is inexact. -/
def roundAt (rm : Nat) (neg : Bool) (m : Nat) (e q : Int) : Nat × Bool :=
  if q ≤ e then (m * 2 ^ (e - q).toNat, false)
  else
    let s := (q - e).toNat
    let sig := m / 2 ^ s
    let rem := m % 2 ^ s
    (if roundUp rm neg sig rem (2 ^ s) then sig + 1 else sig, rem != 0)

/-- Round the exact non-zero value ±m·2^e into the format (06 R121, R122: overflow, tininess after rounding). -/
def Fmt.round (f : Fmt) (rm : Nat) (neg : Bool) (m : Nat) (e : Int) : FRes :=
  let qu : Int := Int.ofNat (Nat.log2 m) + 1 - Int.ofNat f.p + e
  let ru := roundAt rm neg m e qu
  -- the rounded magnitude with an unbounded exponent lies below the smallest normal, 2^(qmin + p − 1)
  let tiny : Bool := decide (qu < f.qmin) && !(qu + 1 == f.qmin && ru.1 == 2 ^ f.p)
  let q0 := if qu < f.qmin then f.qmin else qu
  let r := roundAt rm neg m e q0
  let sig := if r.1 == 2 ^ f.p then 2 ^ (f.p - 1) else r.1
  let q := if r.1 == 2 ^ f.p then q0 + 1 else q0
  let biased : Nat := if sig < 2 ^ (f.p - 1) then 0 else (q - f.qmin).toNat + 1
  if biased ≥ 2 ^ f.ew - 1 then
    let toInf := rm == 0 || rm == 4 || (rm == 3 && !neg) || (rm == 2 && neg)
    ⟨f.withSign neg (if toInf then f.infBits else f.infBits - 1), fOF ||| fNX, false⟩
  else
    let mag := if biased == 0 then sig else biased * 2 ^ (f.p - 1) + (sig - 2 ^ (f.p - 1))
    ⟨f.withSign neg mag, (if r.2 then fNX else 0) ||| (if tiny && r.2 then fUF else 0), tiny⟩

/-- An exact signed value z·2^e rounded; `zneg` is the sign of an exact zero. -/
def Fmt.roundZ (f : Fmt) (rm : Nat) (zneg : Bool) (z : Int) (e : Int) : FRes :=
  if z == 0 then ⟨f.withSign zneg 0, 0, false⟩ else f.round rm (decide (z < 0)) z.natAbs e

/-- The result that a NaN among the operands decides (06 R127), in operand order; none where there is no NaN. -/
def Fmt.nanOf (f : Fmt) (ops : List Nat) : Option FRes :=
  match ops.find? f.isNan with
  | none => none
  | some x => some ⟨f.quieten x, if ops.any f.isSnan then fNV else 0, false⟩

/-- An invalid operation without a NaN operand. -/
def Fmt.invalid (f : Fmt) : FRes := ⟨f.nanBits, fNV, false⟩

/-- A result with no flag. -/
def FRes.pure (x : Nat) : FRes := ⟨x, 0, false⟩

/-- The signed mantissa and exponent of a finite value. -/
def FVal.parts : FVal → Int × Int
  | .fin neg m e => (if neg then -(Int.ofNat m) else Int.ofNat m, e)
  | _ => (0, 0)

/-- A value with its sign inverted. -/
def FVal.negate : FVal → FVal
  | .zero n => .zero (!n)
  | .fin n m e => .fin (!n) m e
  | .inf n => .inf (!n)
  | .nan q => .nan q

/-- The sign of a value. -/
def FVal.sign : FVal → Bool
  | .zero n => n
  | .fin n _ _ => n
  | .inf n => n
  | .nan _ => false

/-- The exact sum of two finite values, as a signed mantissa and exponent. -/
def exactAdd (x y : Int × Int) : Int × Int :=
  let e := min x.2 y.2
  (x.1 * 2 ^ (x.2 - e).toNat + y.1 * 2 ^ (y.2 - e).toNat, e)

/-- Sum of two values that are not NaN. -/
def Fmt.addV (f : Fmt) (rm : Nat) (x y : FVal) : FRes :=
  match x, y with
  | .inf s, .inf t => if s == t then FRes.pure (f.withSign s f.infBits) else f.invalid
  | .inf s, _ => FRes.pure (f.withSign s f.infBits)
  | _, .inf t => FRes.pure (f.withSign t f.infBits)
  | .zero s, .zero t => FRes.pure (f.withSign (if s == t then s else rm == 2) 0)
  | .zero _, .fin n m e => f.round rm n m e
  | .fin n m e, .zero _ => f.round rm n m e
  | a, b =>
    let r := exactAdd a.parts b.parts
    f.roundZ rm (rm == 2) r.1 r.2

/-- FADD, FSUB (06 R117). -/
def Fmt.add (f : Fmt) (rm a b : Nat) : FRes :=
  match f.nanOf [a, b] with
  | some r => r
  | none => f.addV rm (f.val a) (f.val b)

def Fmt.sub (f : Fmt) (rm a b : Nat) : FRes :=
  match f.nanOf [a, b] with
  | some r => r
  | none => f.addV rm (f.val a) (f.val b).negate

/-- FMUL. -/
def Fmt.mul (f : Fmt) (rm a b : Nat) : FRes :=
  match f.nanOf [a, b] with
  | some r => r
  | none =>
    let s := Bool.xor (f.neg a) (f.neg b)
    match f.val a, f.val b with
    | .inf _, .zero _ => f.invalid
    | .zero _, .inf _ => f.invalid
    | .inf _, _ => FRes.pure (f.withSign s f.infBits)
    | _, .inf _ => FRes.pure (f.withSign s f.infBits)
    | .fin _ m e, .fin _ m' e' => f.round rm s (m * m') (e + e')
    | _, _ => FRes.pure (f.withSign s 0)

/-- FMA: a·b + c with one rounding (06 R127 for ∞ × 0). -/
def Fmt.fma (f : Fmt) (rm a b c : Nat) : FRes :=
  let inv := match f.val a, f.val b with
    | .inf _, .zero _ => true
    | .zero _, .inf _ => true
    | _, _ => false
  match f.nanOf [a, b, c] with
  | some r => ⟨r.bits, if inv then r.flags ||| fNV else r.flags, false⟩
  | none =>
    if inv then f.invalid
    else
      let s := Bool.xor (f.neg a) (f.neg b)
      match f.val a, f.val b with
      | .fin _ m e, .fin _ m' e' =>
        match f.val c with
        | .inf t => FRes.pure (f.withSign t f.infBits)
        | .zero _ => f.round rm s (m * m') (e + e')
        | cv =>
          let pm : Int := Int.ofNat (m * m')
          let r := exactAdd (if s then -pm else pm, e + e') cv.parts
          f.roundZ rm (rm == 2) r.1 r.2
      | .inf _, _ => f.addV rm (.inf s) (f.val c)
      | _, .inf _ => f.addV rm (.inf s) (f.val c)
      | _, _ => f.addV rm (.zero s) (f.val c)

/-- FDIV. -/
def Fmt.div (f : Fmt) (rm a b : Nat) : FRes :=
  match f.nanOf [a, b] with
  | some r => r
  | none =>
    let s := Bool.xor (f.neg a) (f.neg b)
    match f.val a, f.val b with
    | .inf _, .inf _ => f.invalid
    | .zero _, .zero _ => f.invalid
    | .inf _, _ => FRes.pure (f.withSign s f.infBits)
    | _, .inf _ => FRes.pure (f.withSign s 0)
    | .zero _, _ => FRes.pure (f.withSign s 0)
    | .fin _ _ _, .zero _ => ⟨f.withSign s f.infBits, fDZ, false⟩
    | .fin _ m e, .fin _ m' e' =>
      let k := f.p + 3 + Nat.log2 m'
      let q := m * 2 ^ k / m'
      let r := m * 2 ^ k % m'
      f.round rm s (2 * q + (if r == 0 then 0 else 1)) (e - e' - Int.ofNat k - 1)
    | _, _ => f.invalid

/-- The integer square root, one bit at a time from bit k−1. -/
def isqrtAux : Nat → Nat → Nat → Nat
  | 0, _, acc => acc
  | k + 1, x, acc => if (acc + 2 ^ k) * (acc + 2 ^ k) ≤ x then isqrtAux k x (acc + 2 ^ k) else isqrtAux k x acc

/-- FSQRT. -/
def Fmt.sqrt (f : Fmt) (rm a : Nat) : FRes :=
  match f.nanOf [a] with
  | some r => r
  | none =>
    match f.val a with
    | .zero n => FRes.pure (f.withSign n 0)
    | .inf n => if n then f.invalid else FRes.pure f.infBits
    | .nan _ => f.invalid
    | .fin n m e =>
      if n then f.invalid
      else
        let m1 := if e % 2 == 0 then m else 2 * m
        let e1 := if e % 2 == 0 then e else e - 1
        let k := f.p + 3
        let x := m1 * 2 ^ (2 * k)
        let r := isqrtAux (2 * f.p + 8) x 0
        f.round rm false (2 * r + (if r * r == x then 0 else 1)) (e1 / 2 - Int.ofNat k - 1)

/-- REM.G on FLO operands: x − y·trunc(x / y), exact, with the sign of x (05 Table 5.2). -/
def Fmt.rem (f : Fmt) (a b : Nat) : FRes :=
  match f.nanOf [a, b] with
  | some r => r
  | none =>
    match f.val a, f.val b with
    | .inf _, _ => f.invalid
    | _, .zero _ => f.invalid
    | .zero _, _ => FRes.pure a
    | .fin n m e, .inf _ => f.round 0 n m e
    | .fin n m e, .fin _ m' e' =>
      let q := min e e'
      let r := (m * 2 ^ (e - q).toNat) % (m' * 2 ^ (e' - q).toNat)
      if r == 0 then FRes.pure (f.withSign n 0) else f.round 0 n r q
    | _, _ => f.invalid

/-- Signed order of two values that are not NaN: a < b. −0 and +0 are equal. -/
def Fmt.lt (f : Fmt) (a b : Nat) : Bool :=
  match f.val a, f.val b with
  | .inf s, .inf t => s && !t
  | .inf s, _ => s
  | _, .inf t => !t
  | x, y =>
    let d := exactAdd x.parts ((fun p : Int × Int => (-p.1, p.2)) y.parts)
    decide (d.1 < 0)

/-- Equality of two values that are not NaN. -/
def Fmt.eq (f : Fmt) (a b : Nat) : Bool := !f.lt a b && !f.lt b a

/-- Order with −0 below +0, for FMIN and FMAX (06 R129). -/
def Fmt.lt0 (f : Fmt) (a b : Nat) : Bool :=
  match f.val a, f.val b with
  | .zero s, .zero t => s && !t
  | _, _ => f.lt a b

/-- FMIN and FMAX (06 R129). -/
def Fmt.fmin (f : Fmt) (a b : Nat) : FRes :=
  match f.nanOf [a, b] with
  | some r => r
  | none => FRes.pure (if f.lt0 b a then b else a)

def Fmt.fmax (f : Fmt) (a b : Nat) : FRes :=
  match f.nanOf [a, b] with
  | some r => r
  | none => FRes.pure (if f.lt0 a b then b else a)

/-- FABS and FNEG change only the sign bit (06 R128). -/
def Fmt.abs (f : Fmt) (a : Nat) : Nat := a % f.signBit
def Fmt.fneg (f : Fmt) (a : Nat) : Nat := if f.neg a then a % f.signBit else a % f.signBit + f.signBit

/-- Relation codes 0–6 on floats: the predicate and the flags (06 Table 6.1). -/
def Fmt.cmp (f : Fmt) (rel a b : Nat) : Bool × Nat :=
  if f.isNan a || f.isNan b then
    (rel == 1 || rel == 6,
     if (2 ≤ rel && rel ≤ 5) || f.isSnan a || f.isSnan b then fNV else 0)
  else
    (match rel with
      | 0 => f.eq a b
      | 1 => !f.eq a b
      | 2 => f.lt a b
      | 3 => !f.lt a b
      | 4 => !f.lt b a
      | 5 => f.lt b a
      | _ => false, 0)

/-- FCLASS (06 Table 6.2): the number with exactly one bit set. -/
def Fmt.classify (f : Fmt) (a : Nat) : Nat :=
  match f.val a with
  | .nan true => 512
  | .nan false => 256
  | .inf n => if n then 1 else 128
  | .zero n => if n then 8 else 16
  | .fin n m _ =>
    let sub := m < 2 ^ (f.p - 1)
    if n then (if sub then 4 else 2) else (if sub then 32 else 64)

/-- FCVT to FIX (06 R132): the payload and the flags. -/
def Fmt.toFix (f : Fmt) (rm a : Nat) : Word64 × Nat :=
  match f.val a with
  | .nan _ => (0, fNV)
  | .inf n => (if n then 0x8000_0000_0000_0000 else 0x7FFF_FFFF_FFFF_FFFF, fNV)
  | .zero _ => (0, 0)
  | .fin n m e =>
    let r := roundAt rm n m e 0
    let z : Int := if n then -(Int.ofNat r.1) else Int.ofNat r.1
    if z < -(2 ^ 63) then (0x8000_0000_0000_0000, fNV)
    else if z ≥ 2 ^ 63 then (0x7FFF_FFFF_FFFF_FFFF, fNV)
    else (w64i z, if r.2 then fNX else 0)

/-- FCVT from FIX (06 R132). -/
def Fmt.ofFix (f : Fmt) (rm : Nat) (x : Word64) : FRes := f.roundZ rm false x.toInt 0

/-- FCVT .64→.32 and .32→.64 (06 R128, R132). -/
def cvt64to32 (rm a : Nat) : FRes :=
  match f64.val a with
  | .nan _ =>
    ⟨f32.withSign (f64.neg a) (f32.nanBits ||| nbits a 50 29), if f64.isSnan a then fNV else 0, false⟩
  | .inf n => FRes.pure (f32.withSign n f32.infBits)
  | .zero n => FRes.pure (f32.withSign n 0)
  | .fin n m e => f32.round rm n m e

def cvt32to64 (a : Nat) : FRes :=
  match f32.val a with
  | .nan _ =>
    ⟨f64.withSign (f32.neg a) (f64.nanBits ||| nbits a 21 0 * 2 ^ 29), if f32.isSnan a then fNV else 0, false⟩
  | .inf n => FRes.pure (f64.withSign n f64.infBits)
  | .zero n => FRes.pure (f64.withSign n 0)
  | .fin n m e => f64.round 0 n m e

end Sys2Proof
end

