-- ==== Sys2Proof/Machine/Flags.lean ====
section
/-!
DEFINITION. IFLAGS and FSTATUS (04 R82, R83): the flags operations raise, the trap enables, and what MTSR writes of
each. Flags are numbers: IFLAGS bits 2:0 are C, DZ, V; FSTATUS bits 4:0 are NV, DZ, OF, UF, NX.
-/

namespace Sys2Proof

/-- IFLAGS bits (04 Table 4.10). -/
abbrev iC : Nat := 4
abbrev iDZ : Nat := 2
abbrev iV : Nat := 1

/-- FSTATUS.RM (04 Table 4.11). -/
def fsRM (fs : Nat) : Nat := nbits fs 14 12

/-- FSTATUS.TE. -/
def fsTE (fs : Nat) : Nat := nbits fs 9 5

/-- Sticky flags: operations only set them (04 R82, R83). -/
def flagsOr (fs f : Nat) : Nat := fs ||| f

/-- What MTSR FSTATUS writes: RM, TE and flags; a reserved RM leaves RM unchanged (04 R83, 00 R13). -/
def fsWrite (old v : Nat) : Nat :=
  let rm := if nbits v 14 12 ≤ 4 then nbits v 14 12 else nbits old 14 12
  rm * 2 ^ 12 + nbits v 9 0

/-- FSTATUS as a frame word gives it (08 R188): reserved bits read 0 (00 R12). DESIGN CHOICE (log entry 110): a frame word is memory, and the spec
does not say what RM becomes where it holds a reserved code; no earlier RM of the context exists to be left unchanged (00 R13), and the model takes 0. -/
def fsLoad (v : Nat) : Nat := fsWrite 0 v

/-- What MTSR IFLAGS writes (04 Table 4.10). -/
def iflagsWrite (v : Nat) : Nat := v % 8

/-- 06 R122, R123: every exception an operation signals, enabled or not: its flags, and underflow for a tiny result
where the underflow trap is enabled. -/
def signalled (te : Nat) (r : FRes) : Nat := r.flags ||| (if r.tiny && nbit te 1 then fUF else 0)

/-- 06 R123: whether a set of signalled exceptions meets an enabled trap. -/
def fpTraps (te sig : Nat) : Bool := (te &&& sig) != 0

end Sys2Proof
end

