-- ==== Sys2Proof/Machine/Alu.lean ====
section
/-!
DEFINITION. What the A and F units compute from operand words (chapters 05 and 06): generic, raw, logic and shift
operations, compares, tag operations, bit operations. Nothing here reads the state.
-/

namespace Sys2Proof

/-- A result: the word, the IFLAGS and the FSTATUS flags raised. -/
structure OpOut where
  w : TWord
  iflags : Nat := 0
  fflags : Nat := 0
  deriving DecidableEq, Repr

/-- Why an operation on operands raises instead: the Generic Trap, Fixnum Overflow, Divide by Zero, the Floating-Point
Trap with the exceptions signalled. -/
inductive OpFail where
  | generic
  | overflow
  | divZero
  | fpTrap (sig : Nat)
  deriving DecidableEq, Repr

/-- The generic operations of 05 R92, by what they compute. -/
inductive GOp where
  | add | sub | mul | div | rem | neg | abs | ash
  deriving DecidableEq, Repr

/-- A FIX result, or Fixnum Overflow (05 R95). -/
def fixOut (z : Int) : Except OpFail OpOut :=
  if -(2 ^ 63) ≤ z ∧ z < 2 ^ 63 then .ok { w := TWord.fix (w64i z) } else .error .overflow

/-- Deliver a float result under the trap enables (06 R122, R123); `pre` are the flags of an operand's conversion. -/
def floOut (tag : BitVec 8) (te pre : Nat) (r : FRes) : Except OpFail OpOut :=
  let sig := signalled te r ||| pre
  if fpTraps te sig then .error (.fpTrap sig) else .ok { w := ⟨tag, w64 r.bits⟩, fflags := r.flags ||| pre }

/-- A word as a binary64 operand of a generic operation, with the flags of its conversion (05 R92, 06 R120). -/
def asFlo (rm : Nat) (w : TWord) : Nat × Nat :=
  if w.tag == tagFIX then let r := f64.ofFix rm w.val; (r.bits, r.flags) else (w.val.toNat, 0)

/-- 05 R94: ASH.G on integers. A shift count beyond 64 is met without building the power. -/
def ashG (x n : Int) : Except OpFail OpOut :=
  if 0 ≤ n then
    if x = 0 then fixOut 0 else if n ≥ 64 then .error .overflow else fixOut (x * 2 ^ n.toNat)
  else if n ≤ -64 then fixOut (if 0 ≤ x then 0 else -1)
  else fixOut (x / 2 ^ (-n).toNat)

/-- Whether a binary generic operation computes in binary64 on these tags (05 R93). -/
def gUsesFloat (op : GOp) (ta tb : BitVec 8) : Bool :=
  match op with
  | .ash => false
  | .neg | .abs => ta == tagFLO
  | _ => (ta == tagFLO && (tb == tagFLO || tb == tagFIX)) || (ta == tagFIX && tb == tagFLO)

/-- Integer remainder and quotient truncate toward zero (05 Table 5.2). -/
def gFix (op : GOp) (x y : Int) : Except OpFail OpOut :=
  match op with
  | .add => fixOut (x + y)
  | .sub => fixOut (x - y)
  | .mul => fixOut (x * y)
  | .div => if y = 0 then .error .divZero else fixOut (x.tdiv y)
  | .rem => if y = 0 then .error .divZero else fixOut (x.tmod y)
  | .neg => fixOut (-x)
  | .abs => fixOut (if x < 0 then -x else x)
  | .ash => ashG x y

/-- The binary64 form of a generic operation (05 Table 5.2, 06 R120). -/
def gFlo (op : GOp) (rm a b : Nat) : FRes :=
  match op with
  | .add => f64.add rm a b
  | .sub => f64.sub rm a b
  | .mul => f64.mul rm a b
  | .div => f64.div rm a b
  | .rem => f64.rem a b
  | .neg => FRes.pure (f64.fneg a)
  | .abs => FRes.pure (f64.abs a)
  | .ash => FRes.pure a

/-- A generic operation on two words (a unary one ignores the second), under FSTATUS (05 R92–R94). -/
def gOp (op : GOp) (fs : Nat) (a b : TWord) : Except OpFail OpOut :=
  let unary := op == .neg || op == .abs
  if gUsesFloat op a.tag b.tag then
    let x := asFlo (fsRM fs) a
    let y := if unary then (0, 0) else asFlo (fsRM fs) b
    floOut tagFLO (fsTE fs) (x.2 ||| y.2) (gFlo op (fsRM fs) x.1 y.1)
  else if a.tag == tagFIX && (unary || b.tag == tagFIX) then gFix op a.val.toInt b.val.toInt
  else .error .generic

/-- Relation codes 0–5 on integers (04 Table 4.7). -/
def relInt (rel : Nat) (x y : Int) : Bool :=
  match rel with
  | 0 => x == y
  | 1 => x != y
  | 2 => decide (x < y)
  | 3 => decide (y ≤ x)
  | 4 => decide (x ≤ y)
  | 5 => decide (y < x)
  | _ => false

/-- CMP.G and CMPI.G (05 Table 5.2, 06 R130): the predicate as a payload. -/
def gCmp (rel fs : Nat) (a b : TWord) : Except OpFail OpOut :=
  if gUsesFloat .add a.tag b.tag then
    let x := asFlo (fsRM fs) a
    let y := asFlo (fsRM fs) b
    let r := f64.cmp rel x.1 y.1
    floOut tagRAW (fsTE fs) (x.2 ||| y.2) ⟨b2n r.1, r.2, false⟩
  else if a.tag == tagFIX && b.tag == tagFIX then .ok { w := TWord.raw (b2w (relInt rel a.val.toInt b.val.toInt)) }
  else .error .generic

/-- The raw operations of 05 R97. -/
inductive ROp where
  | add | sub | mul | mulh | div | rem | neg | abs
  deriving DecidableEq, Repr

/-- A signed raw result, low 64 bits; V where the exact result differs. -/
def rawS (z : Int) : OpOut :=
  { w := TWord.raw (w64i z), iflags := if -(2 ^ 63) ≤ z ∧ z < 2 ^ 63 then 0 else iV }

/-- The .S forms (05 R97, Table 5.3). -/
def rawSigned (op : ROp) (a b : Word64) : OpOut :=
  let x := a.toInt
  let y := b.toInt
  match op with
  | .add => rawS (x + y)
  | .sub => rawS (x - y)
  | .mul => rawS (x * y)
  | .mulh => { w := TWord.raw (w64i (x * y / 2 ^ 64)) }
  | .div => if y = 0 then { w := TWord.raw (BitVec.allOnes 64), iflags := iDZ } else rawS (x.tdiv y)
  | .rem => if y = 0 then { w := TWord.raw a, iflags := iDZ } else rawS (x.tmod y)
  | .neg => rawS (-x)
  | .abs => rawS (if x < 0 then -x else x)

/-- The .U forms (05 R97, Table 5.3). NEG and ABS have none. -/
def rawUnsigned (op : ROp) (a b : Word64) : OpOut :=
  let x := a.toNat
  let y := b.toNat
  match op with
  | .add => { w := TWord.raw (w64 (x + y)), iflags := if x + y < 2 ^ 64 then 0 else iC }
  | .sub => { w := TWord.raw (a - b), iflags := if y ≤ x then 0 else iC }
  | .mul => { w := TWord.raw (w64 (x * y)), iflags := if x * y < 2 ^ 64 then 0 else iC }
  | .mulh => { w := TWord.raw (w64 (x * y / 2 ^ 64)) }
  | .div => if y = 0 then { w := TWord.raw (BitVec.allOnes 64), iflags := iDZ } else { w := TWord.raw (w64 (x / y)) }
  | .rem => if y = 0 then { w := TWord.raw a, iflags := iDZ } else { w := TWord.raw (w64 (x % y)) }
  | .neg => { w := TWord.raw (0 - a) }
  | .abs => { w := TWord.raw a }

/-- Tag of a tag-preserving operation's result (05 R98). -/
def keepFix (ts : List (BitVec 8)) : BitVec 8 := if ts.all (· == tagFIX) then tagFIX else tagRAW

/-- The logic and shift operations (05 R98, R99). -/
inductive LOp where
  | and | or | xor | andn | shl | shr | sar | rot
  deriving DecidableEq, Repr

/-- Payload of a logic or shift operation; a shift amount is the whole unsigned payload. -/
def logicVal (op : LOp) (a b : Word64) : Word64 :=
  let n := b.toNat
  match op with
  | .and => a &&& b
  | .or => a ||| b
  | .xor => a ^^^ b
  | .andn => a &&& ~~~b
  | .shl => if n ≥ 64 then 0 else a <<< n
  | .shr => if n ≥ 64 then 0 else a >>> n
  | .sar => if n ≥ 64 then (if a.getLsbD 63 then BitVec.allOnes 64 else 0) else a.sshiftRight n
  | .rot => a.rotateLeft (n % 64)

/-- Whether RB is a value operand: not for shifts. -/
def LOp.isShift : LOp → Bool
  | .shl | .shr | .sar | .rot => true
  | _ => false

/-- A logic or shift operation on words. -/
def logicOp (op : LOp) (a b : TWord) : OpOut :=
  { w := ⟨keepFix (if op.isShift then [a.tag] else [a.tag, b.tag]), logicVal op a.val b.val⟩ }

/-- SETTAG's checks after its index operand (05 R102), at privilege `pl`: the word, or the Tag Fault subcode; a Privilege
Fault answers 0. -/
def setTag (pl : Nat) (a : TWord) (t : Word64) : Except Nat TWord :=
  let n := t.toNat
  if n > 0xFF then .error 0x05
  else
    let tb : BitVec 8 := BitVec.ofNat 8 n
    if !tagDefined tb || tagIsCap tb then .error 0x05
    else if (tb == tagHDR || tb == tagFUTURE) && pl == 0 then .error 0
    else if !canonical ⟨tb, a.val⟩ then .error 0x02
    else .ok ⟨tb, a.val⟩

/-- One step of CRC.C per data bit, `n` bits from bit `i` (06 R136). -/
def crcCAux : Nat → Nat → BitVec 32 → Word64 → BitVec 32
  | 0, _, c, _ => c
  | n + 1, i, c, d =>
    let bit := c.getLsbD 0 ^^ d.getLsbD i
    crcCAux n (i + 1) ((c >>> 1) ^^^ (if bit then 0x82F6_3B78#32 else 0)) d

/-- CRC.C (06 R136). -/
def crcC (a d : Word64) : Word64 := (crcCAux 64 0 (a.setWidth 32) d).setWidth 64

/-- One step of CRC.K per data bit, bit n−1 first (06 R137). -/
def crcKAux : Nat → Word64 → Word64 → Word64
  | 0, c, _ => c
  | n + 1, c, d =>
    let bit := c.getLsbD 63 ^^ d.getLsbD n
    crcKAux n ((c <<< 1) ^^^ (if bit then 0x42F0_E1EB_A9EA_3693#64 else 0)) d

/-- CRC.K (06 R137). -/
def crcK (a d : Word64) : Word64 := crcKAux 64 a d

/-- Parity of the low n bits (06 R138). -/
def parity : Nat → Word64 → Bool
  | 0, _ => false
  | n + 1, v => v.getLsbD n ^^ parity n v

/-- The bits i of a payload moved to `f i`, for i below n (06 R138). -/
def moveBits (f : Nat → Nat) : Nat → Word64 → Word64
  | 0, _ => 0
  | n + 1, v => (if v.getLsbD n then 1#64 <<< f n else 0) ||| moveBits f n v

/-- BREV. -/
def brev (v : Word64) : Word64 := moveBits (fun i => 63 - i) 64 v

/-- BREV.B. -/
def brevB (v : Word64) : Word64 := moveBits (fun i => i / 8 * 8 + (7 - i % 8)) 64 v

/-- The F-class arithmetic operations of Table 4.5 (codes 0x00 to 0x09). -/
inductive FOp where
  | fadd | fsub | fmul | fdiv | fsqrt | fma | fmin | fmax | fabs | fneg
  deriving DecidableEq, Repr

/-- An F operation in a format: RA, RB and the addend RD of FMA. -/
def fCompute (f : Fmt) (op : FOp) (rm a b d : Nat) : FRes :=
  match op with
  | .fadd => f.add rm a b
  | .fsub => f.sub rm a b
  | .fmul => f.mul rm a b
  | .fdiv => f.div rm a b
  | .fsqrt => f.sqrt rm a
  | .fma => f.fma rm a b d
  | .fmin => f.fmin a b
  | .fmax => f.fmax a b
  | .fabs => FRes.pure (f.abs a)
  | .fneg => FRes.pure (f.fneg a)

/-- The operand tag and the number of a float operand in a format (06 R117). -/
def fTag (single : Bool) : BitVec 8 := if single then tagRAW else tagFLO
def fNum (single : Bool) (w : TWord) : Nat := if single then w.val.toNat % 2 ^ 32 else w.val.toNat

end Sys2Proof
end

