-- ==== Sys2Proof/Machine/Operands.lean ====
section
/-!
DEFINITION. Syllables and bundles (chapter 04): the operations, their operand forms and immediates, the decoding of
Tables 4.1 to 4.7, the registers each operation names, and the form rules of R69 and R70. Nothing here reads the state.
-/

namespace Sys2Proof

/-- The second source of an operation: a G register or an immediate, which arrives as a FIX word (04 R68). -/
inductive Src where
  | reg (n : Nat)
  | imm (v : Word64)
  deriving DecidableEq, Repr

/-- The capability-field reads of 03 Table 3.6. -/
inductive CGet where
  | base | top | len | perms | kind | ver | otype | addr
  deriving DecidableEq, Repr

/-- The operations of Tables 4.3 to 4.6. Registers are numbers; a predicate destination is named `pn`. -/
inductive Op where
  | gen (op : GOp) (rd ra : Nat) (b : Src)
  | raw (op : ROp) (signed : Bool) (rd ra rb : Nat)
  | addi (rd ra : Nat) (v : Word64)
  | cmpG (rel pn ra : Nat) (b : Src)
  | cmpS (rel pn ra : Nat) (b : Src)
  | cmpU (rel pn ra : Nat) (b : Src)
  | logic (op : LOp) (rd ra : Nat) (b : Src)
  | mov (rd ra : Nat)
  | tagof (rd ra : Nat)
  | settag (rd ra rb : Nat)
  | crc (k : Bool) (rd ra rb : Nat)
  | par (rd ra : Nat)
  | brev (bytes : Bool) (rd ra : Nat)
  | li (rd : Nat) (v : Word64)
  | teqi (ne : Bool) (pn ra tag : Nat)
  | ldw (acq : Bool) (rd ra : Nat) (off : Src)
  | stw (rel : Bool) (rd ra : Nat) (off : Src)
  | ldc (acq : Bool) (rd ra : Nat) (off : Src)
  | stc (rel : Bool) (rd ra : Nat) (off : Src)
  | cas (cap : Bool) (rd ra rb : Nat)
  | faddG (rd ra rb : Nat)
  | fill (rd ra rb : Nat)
  | fence (variant : Nat)
  | cget (what : CGet) (rd ra : Nat)
  | ctest (rd ra : Nat)
  | cseta (rd ra rb : Nat)
  | cinca (rd ra : Nat) (b : Src)
  | csetb (round : Bool) (rd ra : Nat) (b : Src)
  | cfit (align : Bool) (rd ra : Nat)
  | candp (rd ra : Nat) (b : Src)
  | cfreeze (rd ra : Nat)
  | csetk (rd ra kind : Nat)
  | csetv (rd ra rb : Nat)
  | cseal (rd ra rb : Nat)
  | cunseal (rd ra rb : Nat)
  | vnew (rd ra : Nat)
  | vfree (ra : Nat)
  | farith (op : FOp) (single : Bool) (rd ra rb : Nat)
  | fcmp (single : Bool) (rel pn ra rb : Nat)
  | fclass (single : Bool) (rd ra : Nat)
  | fcvt (conv rd ra : Nat)
  | fmovGF (rd ra : Nat)
  | fmovFG (rd ra : Nat)
  | jmp (ra : Nat)
  | call (ra : Nat)
  | ret
  | leave
  | rety
  | mfsr (rd sr : Nat)
  | mtsr (sr ra : Nat)
  | repLC
  | repI (n : Nat)
  | cons (rd ra rb : Nat)
  | car (rd ra : Nat)
  | cdr (rd ra : Nat)
  | setcar (rd ra : Nat)
  | setcdr (rd ra : Nat)
  | yield (timed : Bool)
  | exit
  | spawn (far : Bool) (rd ra rb : Nat)
  | invoke (ra rb : Nat)
  | stallwin (rd ra : Nat)
  | plog (op pd pa pb : Nat)
  | brk
  | vz3 (ra : Nat)
  | br (disp : Word64)
  | loop (ra : Nat) (disp : Word64)
  | enter (n : Nat)
  deriving DecidableEq, Repr

/-- A syllable of a bundle: its 32 bits, its place (0 A0, 1 A1, 2 M, 3 F, 4 C; 07 Table 7.5 SLOT), its condition. -/
structure Syl where
  word : Nat
  slot : Nat
  cond : Nat
  op : Op
  deriving DecidableEq, Repr

/-- Register identifiers for R70 and R85: G n is n, special register n is 32 + n, predicate n is 96 + n, F n is 104 + n. -/
abbrev idG (n : Nat) : Nat := n
abbrev idSR (n : Nat) : Nat := 32 + n
abbrev idP (n : Nat) : Nat := 96 + n
abbrev idF (n : Nat) : Nat := 104 + n

/-- Special-register numbers (04 Table 4.8). -/
abbrev srPCC : Nat := 0x00
abbrev srSTATUS : Nat := 0x01
abbrev srIFLAGS : Nat := 0x02
abbrev srFSTATUS : Nat := 0x03
abbrev srLC : Nat := 0x04
abbrev srLSTART : Nat := 0x05
abbrev srLEND : Nat := 0x06
abbrev srPREDS : Nat := 0x07
abbrev srTIMER : Nat := 0x08
abbrev srTIME : Nat := 0x09
abbrev srALLOC : Nat := 0x0A
abbrev srSPCC : Nat := 0x0B
abbrev srSSTATUS : Nat := 0x0C
abbrev srVBASE_S : Nat := 0x0D
abbrev srVBASE_Y : Nat := 0x0E
abbrev srENTRY0 : Nat := 0x10

/-- Whether a special-register number is defined (04 Table 4.8). -/
def srDefined (n : Nat) : Bool := decide (n ≤ 0x0E) || (decide (0x10 ≤ n) && decide (n ≤ 0x17))

/-- Whether MTSR may name it: PCC and TIME have no Write column. -/
def srWritable (n : Nat) : Bool := srDefined n && n != srPCC && n != srTIME

/-- The lowest privilege that may read, and write, a special register (04 Table 4.8). -/
def srReadPL (n : Nat) : Nat :=
  if n == srVBASE_Y then 2 else if n == srSPCC || n == srSSTATUS || n == srVBASE_S || 0x10 ≤ n then 1 else 0
def srWritePL (n : Nat) : Nat :=
  if n == srVBASE_Y then 2
  else if n == srSTATUS || n == srALLOC || n == srSPCC || n == srSSTATUS || n == srVBASE_S || 0x10 ≤ n then 1 else 0

/-- Whether a special register holds a capability. -/
def srIsCap (n : Nat) : Bool :=
  n == srPCC || n == srALLOC || n == srSPCC || n == srVBASE_S || n == srVBASE_Y || decide (0x10 ≤ n)

/-- An immediate field of `w` bits extended by the payloads of its LIMMs (04 R68): the value before extension and its width. -/
def immJoin (w field : Nat) (limms : List Nat) : Nat × Nat :=
  match limms with
  | [] => (field, w)
  | [a] => (field + a * 2 ^ w, w + 27)
  | a :: b :: _ => ((field + a * 2 ^ w + b * 2 ^ (w + 27)) % 2 ^ 64, min (w + 54) 64)

/-- A signed immediate, scaled. -/
def immS (w field : Nat) (limms : List Nat) (scale : Int) : Word64 :=
  let j := immJoin w field limms
  w64i (sextN j.2 j.1 * scale)

/-- An unsigned immediate. -/
def immU (w field : Nat) (limms : List Nat) : Word64 := w64 (immJoin w field limms).1

/-- Fields of a syllable (04 Tables 4.1 and 4.2). -/
def sRD (w : Nat) : Nat := nbits w 23 19
def sRA (w : Nat) : Nat := nbits w 18 14
def sRB (w : Nat) : Nat := nbits w 13 9
def sOP (w : Nat) : Nat := nbits w 8 3
def sSUB (w : Nat) : Nat := nbits w 2 0

/-- A form accepted under a condition. -/
def onlyIf (c : Bool) (o : Op) : Option Op := if c then some o else none

/-- Class A, register form (04 Table 4.3). -/
def decAR (w : Nat) : Option Op :=
  let rd := sRD w
  let ra := sRA w
  let rb := sRB w
  let sub := sSUB w
  let bin (g : GOp) (r : ROp) : Option Op :=
    if sub == 0 then some (.gen g rd ra (.reg rb))
    else if sub == 1 then some (.raw r true rd ra rb)
    else onlyIf (sub == 2) (.raw r false rd ra rb)
  let una (g : GOp) (r : ROp) : Option Op :=
    if rb != 0 then none else if sub == 0 then some (.gen g rd ra (.reg 0)) else onlyIf (sub == 1) (.raw r true rd ra 0)
  let lg (o : LOp) : Option Op := onlyIf (sub == 0) (.logic o rd ra (.reg rb))
  match sOP w with
  | 0x00 => bin .add .add
  | 0x01 => bin .sub .sub
  | 0x02 => bin .mul .mul
  | 0x03 => if sub == 1 then some (.raw .mulh true rd ra rb) else onlyIf (sub == 2) (.raw .mulh false rd ra rb)
  | 0x04 => bin .div .div
  | 0x05 => bin .rem .rem
  | 0x06 => una .neg .neg
  | 0x07 => una .abs .abs
  | 0x08 => onlyIf (sub == 0) (.gen .ash rd ra (.reg rb))
  | 0x09 => onlyIf (sub ≤ 5 && rd < 8) (.cmpG sub rd ra (.reg rb))
  | 0x0A => onlyIf (sub ≤ 5 && rd < 8) (.cmpS sub rd ra (.reg rb))
  | 0x0B => onlyIf (sub ≤ 5 && rd < 8) (.cmpU sub rd ra (.reg rb))
  | 0x10 => lg .and
  | 0x11 => lg .or
  | 0x12 => lg .xor
  | 0x13 => lg .andn
  | 0x14 => lg .shl
  | 0x15 => lg .shr
  | 0x16 => lg .sar
  | 0x17 => lg .rot
  | 0x18 => onlyIf (sub == 0 && rb == 0) (.mov rd ra)
  | 0x1C => onlyIf (sub == 0 && rb == 0) (.tagof rd ra)
  | 0x1D => onlyIf (sub == 0) (.settag rd ra rb)
  | 0x20 => onlyIf (sub ≤ 1) (.crc (sub == 1) rd ra rb)
  | 0x21 => onlyIf (sub == 0 && rb == 0) (.par rd ra)
  | 0x22 => onlyIf (sub ≤ 1 && rb == 0) (.brev (sub == 1) rd ra)
  | _ => none

/-- SHI's operation (04 Table 4.3). -/
def shiOp (k : Nat) : LOp := match k with | 0 => .shl | 1 => .shr | 2 => .sar | _ => .rot

/-- Class A, immediate forms (04 Table 4.3); the Bool says whether the form takes LIMMs. -/
def decAI (w : Nat) (limms : List Nat) : Option (Op × Bool) :=
  let rd := sRD w
  let ra := sRA w
  if nbit w 13 then
    let i := nbits w 11 0
    if nbit w 12 then
      if nbits i 11 8 == 0 && rd < 16 then some (.teqi (rd / 8 == 1) (rd % 8) ra (i % 256), false) else none
    else if nbits i 11 8 == 0 then some (.logic (shiOp (nbits i 7 6)) rd ra (.imm (w64 (i % 64))), false) else none
  else
    let v := immS 10 (nbits w 9 0) limms 1
    match nbits w 12 10 with
    | 0 => some (.gen .add rd ra (.imm v), true)
    | 1 => some (.addi rd ra v, true)
    | 2 => some (.logic .and rd ra (.imm v), true)
    | 3 => some (.logic .xor rd ra (.imm v), true)
    | 4 => some (.cmpG (rd / 8) (rd % 8) ra (.imm v), true)
    | 5 => some (.cmpS (rd / 8) (rd % 8) ra (.imm v), true)
    | 6 => some (.cmpU (rd / 8) (rd % 8) ra (.imm v), true)
    | _ => if ra == 0 then some (.li rd v, true) else none

/-- The CGET operations in opcode order (04 Table 4.4). -/
def cgetOf (k : Nat) : CGet :=
  match k with | 0 => .base | 1 => .top | 2 => .len | 3 => .perms | 4 => .kind | 5 => .ver | 6 => .otype | _ => .addr

/-- Class M, register form (04 Table 4.4). -/
def decMR (w : Nat) : Option Op :=
  let rd := sRD w
  let ra := sRA w
  let rb := sRB w
  let sub := sSUB w
  let s0 := sub == 0
  let b0 := rb == 0
  match sOP w with
  | 0x00 => onlyIf (sub ≤ 1) (.ldw (sub == 1) rd ra (.reg rb))
  | 0x01 => onlyIf (sub ≤ 1) (.stw (sub == 1) rd ra (.reg rb))
  | 0x02 => onlyIf (sub ≤ 1) (.ldc (sub == 1) rd ra (.reg rb))
  | 0x03 => onlyIf (sub ≤ 1) (.stc (sub == 1) rd ra (.reg rb))
  | 0x04 => onlyIf (sub ≤ 1) (.cas (sub == 1) rd ra rb)
  | 0x05 => onlyIf s0 (.faddG rd ra rb)
  | 0x06 => onlyIf s0 (.fill rd ra rb)
  | 0x07 => onlyIf (sub ≤ 4 && rd == 0 && ra == 0 && b0) (.fence sub)
  | 0x10 => onlyIf (s0 && b0) (.ctest rd ra)
  | 0x11 => onlyIf s0 (.cseta rd ra rb)
  | 0x12 => onlyIf s0 (.cinca rd ra (.reg rb))
  | 0x13 => onlyIf (sub ≤ 1) (.csetb (sub == 1) rd ra (.reg rb))
  | 0x14 => onlyIf (s0 && b0) (.cfit false rd ra)
  | 0x15 => onlyIf (s0 && b0) (.cfit true rd ra)
  | 0x16 => onlyIf s0 (.candp rd ra (.reg rb))
  | 0x17 => onlyIf (s0 && b0) (.cfreeze rd ra)
  | 0x18 => onlyIf (s0 && rb < 16) (.csetk rd ra rb)
  | 0x19 => onlyIf s0 (.csetv rd ra rb)
  | 0x1A => onlyIf s0 (.cseal rd ra rb)
  | 0x1B => onlyIf s0 (.cunseal rd ra rb)
  | 0x1C => onlyIf (s0 && b0) (.vnew rd ra)
  | 0x1D => onlyIf (s0 && b0 && rd == 0) (.vfree ra)
  | k => onlyIf (0x08 ≤ k && k ≤ 0x0F && s0 && b0) (.cget (cgetOf (k - 8)) rd ra)

/-- Class M, immediate forms (04 Table 4.4). -/
def decMI (w : Nat) (limms : List Nat) : Option (Op × Bool) :=
  let rd := sRD w
  let ra := sRA w
  let f := nbits w 9 0
  if nbit w 13 then
    if nbit w 12 then none else some (.candp rd ra (.imm (w64 (nbits w 11 0))), false)
  else
    match nbits w 12 10 with
    | 0 => some (.ldw false rd ra (.imm (immS 10 f limms 8)), true)
    | 1 => some (.stw false rd ra (.imm (immS 10 f limms 8)), true)
    | 2 => some (.ldc false rd ra (.imm (immS 10 f limms 16)), true)
    | 3 => some (.stc false rd ra (.imm (immS 10 f limms 16)), true)
    | 4 => some (.cinca rd ra (.imm (immS 10 f limms 1)), true)
    | 5 => some (.csetb false rd ra (.imm (immU 10 f limms)), true)
    | 6 => some (.csetb true rd ra (.imm (immU 10 f limms)), true)
    | _ => none

/-- The arithmetic operations in opcode order (04 Table 4.5). -/
def fopOf (k : Nat) : FOp :=
  match k with
  | 0 => .fadd | 1 => .fsub | 2 => .fmul | 3 => .fdiv | 4 => .fsqrt | 5 => .fma | 6 => .fmin | 7 => .fmax | 8 => .fabs
  | _ => .fneg

/-- Class F (04 Table 4.5); F registers hold 0–15 (R67). -/
def decF (w : Nat) : Option Op :=
  let rd := sRD w
  let ra := sRA w
  let rb := sRB w
  let sub := sSUB w
  let k := sOP w
  if k ≤ 9 then
    let unary := k == 4 || k == 8 || k == 9
    onlyIf (sub ≤ 1 && rd < 16 && ra < 16 && rb < 16 && (!unary || rb == 0)) (.farith (fopOf k) (sub == 1) rd ra rb)
  else
    match k with
    | 0x0A => onlyIf (sub ≤ 6 && rd < 8 && ra < 16 && rb < 16) (.fcmp false sub rd ra rb)
    | 0x0B => onlyIf (sub ≤ 6 && rd < 8 && ra < 16 && rb < 16) (.fcmp true sub rd ra rb)
    | 0x0C => onlyIf (sub ≤ 1 && ra < 16 && rb == 0) (.fclass (sub == 1) rd ra)
    | 0x0D =>
      let raF := sub == 1 || sub == 2 || sub == 3 || sub == 5
      let rdF := sub == 0 || sub == 2 || sub == 3 || sub == 4
      onlyIf (sub ≤ 5 && rb == 0 && (!raF || ra < 16) && (!rdF || rd < 16)) (.fcvt sub rd ra)
    | 0x0E => onlyIf (sub == 0 && rb == 0 && rd < 16) (.fmovGF rd ra)
    | 0x0F => onlyIf (sub == 0 && rb == 0 && ra < 16) (.fmovFG rd ra)
    | _ => none

/-- Class C, register form (04 Table 4.6). -/
def decCR (w : Nat) : Option Op :=
  let rd := sRD w
  let ra := sRA w
  let rb := sRB w
  let sub := sSUB w
  let s0 := sub == 0
  let none0 := s0 && rd == 0 && ra == 0 && rb == 0
  let sr := sub % 2 * 32 + rb
  match sOP w with
  | 0x00 => onlyIf (s0 && rd == 0 && rb == 0) (.jmp ra)
  | 0x01 => onlyIf (s0 && rd == 0 && rb == 0) (.call ra)
  | 0x02 => onlyIf none0 .ret
  | 0x03 => onlyIf none0 .leave
  | 0x04 => onlyIf none0 .rety
  | 0x05 => onlyIf (sub ≤ 1 && ra == 0 && srDefined sr) (.mfsr rd sr)
  | 0x06 => onlyIf (sub ≤ 1 && rd == 0 && srWritable sr) (.mtsr sr ra)
  | 0x07 => onlyIf none0 .repLC
  | 0x08 => onlyIf s0 (.cons rd ra rb)
  | 0x09 => onlyIf (s0 && rb == 0) (.car rd ra)
  | 0x0A => onlyIf (s0 && rb == 0) (.cdr rd ra)
  | 0x0B => onlyIf (s0 && rb == 0) (.setcar rd ra)
  | 0x0C => onlyIf (s0 && rb == 0) (.setcdr rd ra)
  | 0x0D => onlyIf (sub ≤ 1 && rd == 0 && ra == 0 && rb == 0) (.yield (sub == 1))
  | 0x0E => onlyIf none0 .exit
  | 0x0F => onlyIf (sub ≤ 1) (.spawn (sub == 1) rd ra rb)
  | 0x10 => onlyIf (s0 && rd == 0) (.invoke ra rb)
  | 0x11 => onlyIf (s0 && rb == 0) (.stallwin rd ra)
  | 0x12 => onlyIf (sub ≤ 3 && rd < 8 && ra < 8 && rb < 8) (.plog sub rd ra rb)
  | 0x13 => onlyIf none0 .brk
  | 0x14 => onlyIf (s0 && rd == 0 && rb == 0) (.vz3 ra)
  | _ => none

/-- Class C, J form (04 Table 4.6). -/
def decCJ (w : Nat) (limms : List Nat) : Option (Op × Bool) :=
  let f := nbits w 19 0
  match nbits w 23 20 with
  | 0 => some (.br (immS 20 f limms 4), true)
  | 1 => if nbits w 19 8 == 0 then some (.repI (nbits w 7 0), false) else none
  | 2 => some (.loop (nbits w 19 15) (immS 15 (nbits w 14 0) limms 4), true)
  | 3 => if nbits w 19 3 == 0 then some (.enter (nbits w 2 0), false) else none
  | _ => none

/-- One syllable with the payloads of the LIMMs that follow it (04 R67, R68, R75); none where it is illegal. -/
def decSyl (w : Nat) (limms : List Nat) : Option Op :=
  let imm := nbit w 24
  let cls := nbits w 26 25
  let r : Option (Op × Bool) :=
    if imm then
      match cls with
      | 0 => decAI w limms
      | 1 => decMI w limms
      | 2 => none
      | _ => decCJ w limms
    else
      (match cls with
        | 0 => decAR w
        | 1 => decMR w
        | 2 => decF w
        | _ => decCR w).map (fun o => (o, false))
  match r with
  | some (o, takes) => if limms.isEmpty || takes then some o else none
  | none => none

/-- 04 R66: a long immediate. -/
def isLimm (w : Nat) : Bool := nbits w 30 27 == 8

/-- The LIMM payloads at the head of a list of syllable words, and the rest. -/
def takeLimms : List Nat → List Nat × List Nat
  | [] => ([], [])
  | w :: ws => if isLimm w then let r := takeLimms ws; (nbits w 26 0 :: r.1, r.2) else ([], w :: ws)

/-- The place of a syllable of unit class `cls` after one at place `prev` (04 R69); none where order or count break. -/
def nextSlot (prev : Option Nat) (cls : Nat) : Option Nat :=
  match cls, prev with
  | 0, none => some 0
  | 0, some 0 => some 1
  | 0, some _ => none
  | c, none => some (c + 1)
  | c, some p => if p < c + 1 then some (c + 1) else none

/-- The syllables of a bundle from its words, in order, with fuel for their number. -/
def decSyls : Nat → Option Nat → List Nat → Option (List Syl)
  | 0, _, ws => if ws.isEmpty then some [] else none
  | _ + 1, _, [] => some []
  | n + 1, prev, w :: ws =>
    if isLimm w then none
    else
      let l := takeLimms ws
      match nextSlot prev (nbits w 26 25), decSyl w l.1 with
      | some slot, some op =>
        match decSyls n (some slot) l.2 with
        | some rest => some (⟨w, slot, nbits w 30 27, op⟩ :: rest)
        | none => none
      | _, _ => none

/-- Whether an operation is class C's REP. -/
def Op.isRep : Op → Bool
  | .repLC | .repI _ => true
  | _ => false

/-- The G registers an operation names in its fields, in the order RD, RA, RB (08 R175). -/
def Op.gFields : Op → List Nat
  | .gen _ rd ra (.reg rb) => [rd, ra, rb]
  | .gen _ rd ra (.imm _) => [rd, ra]
  | .raw _ _ rd ra rb => [rd, ra, rb]
  | .addi rd ra _ => [rd, ra]
  | .cmpG _ _ ra (.reg rb) | .cmpS _ _ ra (.reg rb) | .cmpU _ _ ra (.reg rb) => [ra, rb]
  | .cmpG _ _ ra _ | .cmpS _ _ ra _ | .cmpU _ _ ra _ => [ra]
  | .logic _ rd ra (.reg rb) => [rd, ra, rb]
  | .logic _ rd ra (.imm _) => [rd, ra]
  | .mov rd ra | .tagof rd ra | .par rd ra | .brev _ rd ra => [rd, ra]
  | .settag rd ra rb | .crc _ rd ra rb => [rd, ra, rb]
  | .li rd _ => [rd]
  | .teqi _ _ ra _ => [ra]
  | .ldw _ rd ra (.reg rb) | .stw _ rd ra (.reg rb) | .ldc _ rd ra (.reg rb) | .stc _ rd ra (.reg rb) => [rd, ra, rb]
  | .ldw _ rd ra _ | .stw _ rd ra _ | .ldc _ rd ra _ | .stc _ rd ra _ => [rd, ra]
  | .cas _ rd ra rb | .faddG rd ra rb | .fill rd ra rb => [rd, ra, rb]
  | .fence _ => []
  | .cget _ rd ra | .ctest rd ra | .cfit _ rd ra | .cfreeze rd ra | .csetk rd ra _ | .vnew rd ra => [rd, ra]
  | .cseta rd ra rb | .csetv rd ra rb | .cseal rd ra rb | .cunseal rd ra rb => [rd, ra, rb]
  | .cinca rd ra (.reg rb) | .csetb _ rd ra (.reg rb) | .candp rd ra (.reg rb) => [rd, ra, rb]
  | .cinca rd ra _ | .csetb _ rd ra _ | .candp rd ra _ => [rd, ra]
  | .vfree ra => [ra]
  | .farith .. | .fcmp .. => []
  | .fclass _ rd _ => [rd]
  | .fcvt conv rd ra => if conv == 0 || conv == 4 then [ra] else if conv == 1 || conv == 5 then [rd] else []
  | .fmovGF _ ra => [ra]
  | .fmovFG rd _ => [rd]
  | .jmp ra | .call ra | .vz3 ra => [ra]
  | .ret | .leave | .rety | .repLC | .repI _ | .yield _ | .exit | .plog .. | .brk | .br _ | .enter _ => []
  | .mfsr rd _ => [rd]
  | .mtsr _ ra => [ra]
  | .cons rd ra rb | .spawn _ rd ra rb => [rd, ra, rb]
  | .car rd ra | .cdr rd ra | .setcar rd ra | .setcdr rd ra | .stallwin rd ra => [rd, ra]
  | .invoke ra rb => [ra, rb]
  | .loop ra _ => [ra]

/-- Whether an operation only writes the register of its RD field. -/
def Op.putsRD : Op → Bool
  | .gen .. | .raw .. | .addi .. | .logic .. | .mov .. | .tagof .. | .settag .. | .crc .. | .par .. | .brev .. | .li .. | .ldw .. | .ldc .. |
    .faddG .. | .cget .. | .ctest .. | .cseta .. | .cinca .. | .csetb .. | .cfit .. | .candp .. | .cfreeze .. | .csetk .. | .csetv .. |
    .cseal .. | .cunseal .. | .vnew .. | .fclass .. | .fmovFG .. | .mfsr .. | .cons .. | .spawn .. | .car .. | .cdr .. | .stallwin .. => true
  | .fcvt conv .. => conv == 1 || conv == 5
  | _ => false

/-- The G registers whose slots an operation fetches (02 R31): its sources, and G31 where it pushes or pops. -/
def Op.gSources (o : Op) : List Nat :=
  (if o.putsRD then o.gFields.drop 1 else o.gFields) ++ (match o with | .call _ | .ret | .rety => [31] | _ => [])

/-- P1–P7 as register identifiers. -/
def idPreds : List Nat := [97, 98, 99, 100, 101, 102, 103]

/-- The registers an operation writes, explicitly or implicitly (04 R70): G0 and P0 never conflict. -/
def Op.writes (o : Op) : List Nat :=
  (match o with
    | .gen _ rd .. | .raw _ _ rd .. | .addi rd .. | .logic _ rd .. | .mov rd _ | .tagof rd _ | .settag rd .. | .crc _ rd .. |
      .par rd _ | .brev _ rd _ | .li rd _ | .ldw _ rd .. | .ldc _ rd .. | .cas _ rd .. | .faddG rd .. | .cget _ rd _ |
      .ctest rd _ | .cseta rd .. | .cinca rd .. | .csetb _ rd .. | .cfit _ rd _ | .candp rd .. | .cfreeze rd _ |
      .csetk rd .. | .csetv rd .. | .cseal rd .. | .cunseal rd .. | .vnew rd _ | .fclass _ rd _ | .fmovFG rd _ | .mfsr rd _ |
      .car rd _ | .cdr rd _ | .spawn _ rd .. | .stallwin rd _ => [idG rd]
    | .cmpG _ pn .. | .cmpS _ pn .. | .cmpU _ pn .. | .teqi _ pn .. | .fcmp _ _ pn .. | .plog _ pn .. => [idP pn]
    | .farith _ _ rd .. | .fmovGF rd _ => [idF rd]
    | .fcvt conv rd _ => if conv == 1 || conv == 5 then [idG rd] else [idF rd]
    | .cons rd .. => [idG rd, idSR srALLOC]
    | .stw .. | .stc .. | .fill .. | .fence _ | .vfree _ | .repLC | .repI _ | .setcar .. | .setcdr .. | .yield _ | .exit |
      .invoke .. | .brk => []
    | .jmp _ | .br _ => [idSR srPCC]
    | .call _ => [idG 31, idSR srPCC]
    | .ret => [idG 31, idSR srPCC] ++ idPreds
    | .leave | .vz3 _ => [idSR srPCC, idSR srSTATUS]
    | .rety => [idSR srPCC, idSR srSTATUS, idSR srLC, idG 31] ++ idPreds
    | .enter _ => [idSR srPCC, idSR srSTATUS, idSR srSPCC, idSR srSSTATUS]
    | .mtsr sr _ => if sr == srPREDS then idSR sr :: idPreds else [idSR sr]
    | .loop .. => [idSR srLC, idSR srLSTART, idSR srLEND]).filter (fun r => r != 0 && r != 96)

/-- The registers beyond its fields that an operation reads implicitly (08 R185). -/
def Op.reads : Op → List Nat
  | .call _ | .ret | .rety => [31]
  | .leave => [idSR srSPCC, idSR srSSTATUS]
  | .mfsr _ sr => [idSR sr]
  | .repLC => [idSR srLC]
  | .cons .. => [idSR srALLOC]
  | .enter n => [idSR (srENTRY0 + n)]
  | .spawn .. => idSR srVBASE_S :: idSR srVBASE_Y :: (upTo 8).map (fun n => idSR (srENTRY0 + n))
  | .yield true => [idSR srTIMER]
  | _ => []

/-- Every G and special register an operation names, explicitly or implicitly (04 R85, 07 R151). -/
def Op.names (o : Op) : List Nat := (o.gFields ++ o.reads ++ o.writes).filter (fun r => r != 0 && r < 96)

/-- F class, and accesses to FSTATUS, use the float state (04 R77); generic operations by their operand tags (05 R93). -/
def Op.isFloat : Op → Bool
  | .farith .. | .fcmp .. | .fclass .. | .fcvt .. | .fmovGF .. | .fmovFG .. => true
  | .mfsr _ sr | .mtsr sr _ => sr == srFSTATUS
  | _ => false

/-- 04 R70, last case: two syllables that write one register. -/
def writeClash : List Syl → Bool
  | [] => false
  | x :: xs => xs.any (fun y => y.op.writes.any (fun r => x.op.writes.contains r)) || writeClash xs

/-- A decoded bundle: its syllables and its length in syllables, LIMMs counted. -/
structure Bundle where
  syls : List Syl
  len : Nat
  deriving DecidableEq, Repr

/-- 04 R69–R71: decode the words of a bundle, first word to STOP; none is Illegal Opcode. DESIGN CHOICE (log entry 111): a REP that shares its
bundle is illegal (R71) whether or not its condition holds; R73 lets through the faults of R70 alone, and R71's stands with them as a fault of the
bundle's form. -/
def decBundle (ws : List Nat) : Option Bundle :=
  if ws.length > 7 || (ws.filter isLimm).length > 2 || (ws.getLast?.map (fun w => nbit w 31)) != some true then none
  else
    match decSyls 8 none ws with
    | none => none
    | some ss =>
      if writeClash ss then none
      else if ss.any (fun x => x.op.isRep) && ws.length != 1 then none
      else some ⟨ss, ws.length⟩

/-- The first syllable of a bundle that does not decode, with its slot (07 R148). -/
def badSyl : Nat → Option Nat → List Nat → Option (Nat × Nat)
  | 0, _, _ => none
  | _ + 1, _, [] => none
  | n + 1, prev, w :: ws =>
    if isLimm w then none
    else
      let l := takeLimms ws
      match nextSlot prev (nbits w 26 25) with
      | none => none
      | some slot => if (decSyl w l.1).isNone then some (slot, w) else badSyl n (some slot) l.2

/-- Whether a bundle is a REP bundle. -/
def Bundle.isRep (b : Bundle) : Bool := b.syls.any (fun x => x.op.isRep)

/-- Whether a bundle holds a class-C syllable (04 R71). -/
def Bundle.hasC (b : Bundle) : Bool := b.syls.any (fun x => x.slot == 4)

end Sys2Proof
end

