-- ==== Sys2Proof/Machine/State.lean ====
section
/-!
DEFINITION. The state of the block as plain data: what each unit of chapters 01 to 20 holds, the queue of commands, and
the state right after reset. Sparse maps list only what differs from the value given for reset.
-/

namespace Sys2Proof.Machine

/-- Why a command stops the machine.
`noSuchUnit`: raised by a command whose operand names a unit the part does not have (00 R10: units are numbered from 0).
Safe: nothing is claimed of such a command. -/
inductive Fault where
  | noSuchUnit
  deriving DecidableEq, Repr

/-- Why the model gives a command no meaning.
`notModelled`: raised by an arm of `exec` whose command has no meaning yet, with its mnemonic. Safe. -/
inductive Refusal where
  | notModelled (mnemonic : String)
  deriving DecidableEq, Repr

/-! ### Stalls and contexts (chapters 04, 05, 07, 08, 09) -/

/-- What an exception carries (07 R147, R148, Tables 7.3 and 7.5). `faddr` has the NODE in bits 63:48. -/
structure Exc where
  cause : Nat
  subcode : Nat := 0
  slot : Nat := 7
  info : Nat := 0
  taga : Nat := 0
  tagb : Nat := 0
  count : Nat := 0
  remote : Bool := false
  async : Bool := false
  faddr : Word64 := 0
  fcap : Gran := Gran.zero
  syl : Nat := 0
  deriving DecidableEq, Repr

/-- An exception or event on its way to its vector (07 R146, R147, R160). `exc` is the exception that a
double-fault entry would start from, with what its frame holds. -/
structure Entering where
  exc : Exc
  oldStatus : Word64 := 0
  oldG31 : Gran := Gran.zero
  oldPcc : Gran := Gran.zero
  oldRep : Nat := 0
  deriving DecidableEq, Repr

/-- A pending late store error (07 R155, 08 Table 8.6 slot 0x380). -/
structure LateErr where
  faddr : Word64
  cause : Nat
  subcode : Nat
  remote : Bool
  count : Nat := 0
  deriving DecidableEq, Repr

/-- STALLCTL.STATE (08 Table 8.11). -/
inductive Phase where
  | empty
  | running
  | parking
  | unparking
  deriving DecidableEq, Repr

/-- Why a pending register is pending (08 R173, R183). -/
inductive PendKind where
  | mem
  | remote
  | word
  | poll
  deriving DecidableEq, Repr

/-- One stall (04 R76–R84, 07, 08). `dirty` and `inframe` number registers as `Op.names` does: G n is n, special
register n is 32 + n. Bit 0 of `preds` reads 1 through the accessor. `gpois` marks the slots stored with the check bytes of a
poisoned granule (02 R30, R33); every other slot's check bytes are those of its content. `fetched` holds the bundles fetched and
not yet executed, by address (10 R223). `holdAt` are the addresses of bundles whose routine an event abandoned (09 R207), `scanned`
that this context's roots have been scanned, for an interrupt context (12 R279). `vzWait` and `vzGot` are a byte code's outstanding
read and the reads it has (09 R204: a routine's waits). -/
structure Stall where
  g : SMap Gran := []
  f : SMap TWord := []
  preds : BitVec 8 := 1
  pcc : Gran := Gran.zero
  status : Word64 := 0
  iflags : Nat := 0
  fstatus : Nat := 0
  lc : Word64 := 0
  lstart : Nat := 0
  lend : Nat := 0
  timer : Word64 := 0
  alloc : Gran := Gran.zero
  spcc : Gran := Gran.zero
  sstatus : Word64 := 0
  vbaseS : Gran := Gran.zero
  vbaseY : Gran := Gran.zero
  entry : SMap Gran := []
  dfstack : Gran := Gran.zero
  winsel : Nat := 0
  cid : Option Nat := none
  phase : Phase := .empty
  halt : Bool := false
  pend : BitVec 32 := 0
  refused : BitVec 32 := 0
  inframe : BitVec 64 := 0
  dirty : BitVec 64 := 0
  rep : Nat := 0
  repFirst : Bool := false
  fowner : Option Nat := none
  fdirty : Bool := false
  exc : Option Exc := none
  entering : Option Entering := none
  dfOrig : Option Exc := none
  holdAt : List Nat := []
  exiting : Bool := false
  late : Option LateErr := none
  timp : Bool := false
  yielding : Option Nat := none
  vzWait : Option Nat := none
  vzGot : List (Nat × Gran) := []
  gpois : BitVec 32 := 0
  fetched : List (Nat × List Nat) := []
  scanned : Bool := false
  deriving DecidableEq, Repr

/-- RSTATE (08 Table 8.4). -/
inductive RState where
  | free
  | resident
  | parked
  | ready
  deriving DecidableEq, Repr

/-- A Stable record (08 Tables 8.2 to 8.5) and the copy of TIMER beside it (08 R190). `hots` are the registers in
HOT0 to HOT3 with their slots, in order; `gpois` marks those stored as poisoned (02 R33). `repFirst` goes with the repeat of the
context (04 R71): its REP has issued and no iteration has. -/
structure Record where
  pcc : Gran := Gran.zero
  frame : Gran := Gran.zero
  status : Word64 := 0
  wcond : Nat := 0
  lsep : Bool := false
  timp : Bool := false
  bevp : Bool := false
  block : BitVec 32 := 0
  refused : BitVec 32 := 0
  gen : Nat := 0
  rstate : RState := .free
  preds : BitVec 8 := 0
  pend : BitVec 32 := 0
  hots : List (Nat × Gran) := []
  timer : Word64 := 0
  holdAt : List Nat := []
  scanned : Bool := false
  repFirst : Bool := false
  gpois : BitVec 32 := 0
  deriving DecidableEq, Repr

/-- What a registered waiter does when its word is filled (05 R107, 15 R355). -/
inductive WaitKind where
  | ldw
  | ldc
  | pair
  | fadd (addend : TWord) (fstatus : Nat)
  | remote (slot : Nat)
  deriving DecidableEq, Repr

/-- One outstanding local memory result (08 R171, R180): a context's register that awaits a value already fixed, or a
read answered retry (R181), by its word's address and kind, that is sent again. `core` is the core whose memory-operation slot it
holds; `faddr` and `fcap` are the operation's address and capability (07 R151). -/
structure LocalOp where
  cid : Nat
  reg : Nat
  value : Option Gran
  refusal : Option Exc := none
  poll : Option (Nat × WaitKind) := none
  seqNo : Nat := 0
  core : Nat := 0
  faddr : Word64 := 0
  fcap : Gran := Gran.zero
  deriving DecidableEq, Repr

/-- One entry of a waiter directory (08 R181). `agent` is the home agent's port, `pa` the word's physical address;
`got` holds the granule as the filling store left it (05 R107); `faddr` and `fcap` are as in `LocalOp`. -/
structure Waiter where
  agent : Nat
  pa : Nat
  cid : Nat
  reg : Nat
  kind : WaitKind
  got : Option Gran := none
  seqNo : Nat := 0
  faddr : Word64 := 0
  fcap : Gran := Gran.zero
  deriving DecidableEq, Repr

/-- A microcoded routine under way in a sequencer (09 R199–R209): the stall whose bundle it runs, and whether it holds events off
(R207). The rest is the sequencer's own state while microwords step: the address of the next word, the micro-stack, the loop
counter, the micro-registers and staged copies by Table 9.3's codes, MDATA, the flags of the previous word, when a waiting word
began to wait, and from the commit word on the words that have run since. `vz` is the address in the 18-bit ROM of a byte
code's word (R217). -/
structure Routine where
  stall : Nat
  hold : Bool := false
  started : Bool := false
  upc : Nat := 0
  ustack : List Nat := []
  ctr : Nat := 0
  mr : SMap Gran := []
  mdata : Gran := Gran.zero
  flags : Nat := 0
  since : Option Nat := none
  after : Option Nat := none
  vz : Option Nat := none
  deriving DecidableEq, Repr

/-! ### Caches and buffers (chapter 10) -/

/-- One store in a merging-buffer entry: a word of a granule, or a whole granule (10 R224). `va` is its address with
the NODE, for a late store error; `berth` is its context's, which may end before the store drains. -/
structure BufStore where
  gi : Nat
  hi : Bool := false
  whole : Bool := false
  g : Gran
  cids : List Nat
  release : Bool := false
  seqNo : Nat
  va : Word64 := 0
  berth : Nat := 0
  deriving DecidableEq, Repr

/-- One entry of a merging buffer: a line of physical memory and the stores it holds, in issue order. -/
structure BufEntry where
  line : Nat
  stores : List BufStore
  deriving DecidableEq, Repr

/-- One core: the stall issued last, pending device events (cause × source gate slot; 07 R158), its merging buffer. -/
structure Core where
  last : Nat := 0
  devPend : List (Nat × Nat) := []
  buffer : List BufEntry := []
  seqr0 : Option Routine := none
  seqr1 : Option Routine := none
  deriving DecidableEq, Repr

/-- Hayloft line states other than I (10 Table 10.2). -/
inductive LState where
  | S
  | E
  | M
  deriving DecidableEq, Repr

/-- A line valid in a hayloft: its way, its state, the berth it was filled for, the cores that hold it in L1 data and
in L1 instruction (10 R222, R223). -/
structure HLine where
  way : Nat
  st : LState
  berth : Nat
  l1d : BitVec 16 := 0
  l1i : BitVec 16 := 0
  deriving DecidableEq, Repr

/-- An immutable copy (10 R233): home NODE, charter, berth-virtual line, the four granules as sent, when made, its way. -/
structure ImmutCopy where
  node : Nat
  charter : Nat
  vline : Nat
  grans : List Gran
  vers : List Nat
  made : Nat
  berth : Nat
  way : Nat
  deriving DecidableEq, Repr

/-- A stride stream (10 R235): its key, the last miss, the bounds, VER and berth of the training load, the last stride and
how many misses in a row showed it. -/
structure Stream where
  stall : Nat
  hash : BitVec 8
  last : Nat
  stride : Int := 0
  same : Nat := 0
  berth : Nat
  lo : Nat
  hi : Nat
  ver : Nat := 0
  deriving DecidableEq, Repr

/-- A ready queue entry order and the rest of a shed's Stable, its hayloft and its window (08 R184, 10 R227–R240). -/
structure Shed where
  ready : List (Nat × Nat) := []
  rrBerth : Nat := 0
  lines : SMap HLine := []
  victims : List Nat := []
  copies : List ImmutCopy := []
  streams : List Stream := []
  maintAddr : Nat := 0
  maintOp : Nat := 0
  maintGo : Bool := false
  maintResult : Nat := 0
  lock : BitVec 16 := 0
  allocWays : BitVec 16 := 0
  pwrState : BitVec 16 := 0xFFFF
  offReq : BitVec 16 := 0
  cleaning : BitVec 16 := 0
  powering : BitVec 16 := 0
  pfDepth : Nat := 4
  pfEn : Bool := true
  immutTtl : Nat := 1000000
  isolated : Bool := false
  throttled : Bool := false
  deriving DecidableEq, Repr

/-! ### Translation (chapter 11) -/

/-- An entry of a translation cache (11 R263). -/
structure TlbEntry where
  berth : Nat
  blk : Nat
  vbase : Nat
  size : Nat
  pbase : Nat
  deriving DecidableEq, Repr

/-- An entry of a walk cache (11 R265): a valid non-leaf entry's next table. -/
structure WalkEntry where
  berth : Nat
  blk : Nat
  level : Nat
  vhi : Nat
  table : Nat
  deriving DecidableEq, Repr

/-- One berth's part of the translation window beyond its registers: commands that run (11 R260, R261). -/
structure XPage where
  xgo : Bool := false
  xresult : Nat := 0
  tgo : Bool := false
  top : Nat := 0
  taddr : Nat := 0
  goSeq : Nat := 0
  walks : Nat := 0
  walkFaults : Nat := 0
  deriving DecidableEq, Repr

/-! ### Memory ports and home agents (chapter 13) -/

/-- One port beyond its dictionary entries: whether INIT runs, its sidecar cache (line groups, least recently used first, a dirty
one with the port data address of the line that was last written; 13 R304), the groups written back and not yet acknowledged, a
waiting TRAIN (13 R299), FLUSH or OFF under way. -/
structure Port where
  initRun : Bool := false
  sidecar : List (Nat × Option Nat) := []
  scOut : List (Nat × Nat) := []
  trainWait : Bool := false
  flushing : Bool := false
  offAfter : Bool := false
  badSide : Nat := 0
  deriving DecidableEq, Repr

/-! ### Berths and their collectors (chapters 12, 16) -/

/-- One event of a berth's event queue (16): its code and two data words. -/
structure BerthEv where
  code : Nat
  w0 : Word64
  w1 : Word64
  deriving DecidableEq, Repr

/-- An entry of an export or import table (12 R288–R290). The key is a home node and a granule index; `peer` is the node
the capability went to (export and relay entries); `hold` and `pending` are the import entry's. `lo` and `hi` are the
granules of the capability's bounds, `ver` its VER. -/
structure XEntry where
  home : Nat
  gran : Nat
  peer : Nat := 0
  count : Nat := 0
  hold : Nat := 0
  pending : Bool := false
  waitAck : Option (Nat × Nat) := none
  lo : Nat := 0
  hi : Nat := 0
  deriving DecidableEq, Repr

/-! ### Packets and remote operations (chapter 15) -/

/-- A coded granule: a granule with its check bytes as carried (15 R349). -/
structure CG where
  g : Gran
  chk : BitVec 24
  deriving DecidableEq, Repr

/-- A packet (15 Tables 15.2 and 15.3): header fields, coded granules, KEY and COUNT, and the time fields of R347. -/
structure Pkt where
  pt : Nat
  xg : Bool := false
  nm : Bool := false
  esc : Bool := false
  resent : Bool := false
  age : Nat := 0
  agef : Nat := 0
  dst : Nat
  src : Nat
  charter : Nat := 0
  tag : Nat := 0
  tgen : Nat := 0
  ver : Nat := 0
  dev : Bool := false
  cap : Bool := false
  line : Bool := false
  list : Bool := false
  addr : Nat := 0
  issuer : Nat := 0
  param : Nat := 0
  vers : Nat := 0
  cgs : List CG := []
  key : Nat := 0
  count : Nat := 0
  times : List Nat := []
  deriving DecidableEq, Repr

/-- Where a remote-operation slot stands (15 R350–R352). -/
inductive SlotSt where
  | unsent
  | sent
  | poll
  | exempt
  deriving DecidableEq, Repr

/-- A remote-operation slot (15 R350). `shed` and `berth` are the issuer's, for a load that may make an immutable
copy. -/
structure Slot where
  cid : Nat
  reg : Option Nat
  home : Nat
  pkt : Pkt
  st : SlotSt := .unsent
  tick : Nat := 0
  acq : Bool := false
  seqNo : Nat := 0
  shed : Nat := 0
  berth : Nat := 0
  deriving DecidableEq, Repr

/-- One berth beyond its dictionary entries. `cursor` is the bytes handed out of each segment in use, `taken` the nursery
segments taken since the last minor cycle, `pendMinor` that the free segments fell below NURSERY_SEGS and no minor cycle has started since (12 R280), `retiredAt` the physical addresses of the granules retired when the sweep began, `reached` the
keys of imports that marking reached, `objReq` the OBJ_CLAIM under way, `overQ` that OVER_QUOTA is 1, `metaOld` that a reset has left the heap's metadata untrusted (16 R378). -/
structure Berth where
  events : List BerthEv := []
  exports : List XEntry := []
  imports : List XEntry := []
  log : List Gran := []
  nEpoch : Nat := 1
  oEpoch : Nat := 1
  pool : List (Nat × Nat) := []
  poolGone : List Nat := []
  cursor : SMap Nat := []
  taken : Nat := 0
  halted : Bool := false
  metaOld : Bool := false
  pendSweep : Bool := false
  pendMajor : Bool := false
  pendMinor : Bool := false
  retiredAt : List Nat := []
  reached : List (Nat × Nat) := []
  objReq : Option Nat := none
  overQ : Bool := false
  cmd : Nat := 0
  resetStep : Nat := 0
  fellBack : Bool := false
  deriving DecidableEq, Repr

/-! ### The compass, the links and sounding (chapters 14, 15) -/

/-- A packet inside this node (15 R342): since which tick, the link it came in on (none where this node injected it) with the
channel and the number of flit buffers it holds there; `late` marks a request that arrived while its berth was being reset
(15 R361). -/
structure Transit where
  pkt : Pkt
  since : Nat := 0
  link : Option Nat := none
  vc : Nat := 0
  flits : Nat := 0
  late : Bool := false
  deriving DecidableEq, Repr

/-- A flit in a retry buffer (14 R319): its number, channel and bytes; the last flit of a packet carries the packet. -/
structure TxFlit where
  seq : Nat
  vc : Nat
  bytes : List Byte
  pkt : Option Pkt := none
  deriving DecidableEq, Repr

/-- One virtual channel of a link (14 R321, R322): the transmitter's free credits, the credits to return, and the payload of
a packet partly received. -/
structure VChan where
  credits : Nat := 256
  owed : Nat := 0
  part : Option (List Byte) := none
  deriving DecidableEq, Repr

/-- One fabric link beyond its entries (14 R315–R325). `sounds` are the sounding messages drained and not yet acted on, `outSounds` those
that wait for credits,
`greeted` that the peer's HELLO has come, `retries` the retries in a row of the same oldest flit, `control` the last RETRY or RESUME flit sent. -/
structure Link where
  rxSeq : Nat := 0
  discard : Bool := false
  txSeq : Nat := 0
  retry : List TxFlit := []
  retries : Nat := 0
  vc0 : VChan := {}
  vc1 : VChan := {}
  vc2 : VChan := {}
  vc3 : VChan := {}
  sounds : List (List Byte) := []
  outSounds : List (List Byte) := []
  greeted : Bool := false
  txGood : BitVec 4 := 0xF
  rxGood : BitVec 4 := 0xF
  role : Nat := 0
  control : List Byte := []
  deriving DecidableEq, Repr

/-- One record of an LSA (14 Table 14.6): own link, its role, the peer's link, the peer's serial. -/
structure Adj where
  own : Nat
  role : Nat
  peerLink : Nat
  peer : Nat
  deriving DecidableEq, Repr

/-- A node of the sounding database (14 R327). -/
structure SNode where
  serial : Nat
  seq : Nat
  node : Nat
  flags : Nat
  adj : List Adj
  deriving DecidableEq, Repr

/-- Sounding beyond its entries (14 R326–R331): the database, the IDs kept for serials (R329), the ASSIGN under way with the
parts of it that have come, the highest EPOCH seen, the fabric tree: a serial, its parent's, and its own link to it
(15 R339), and the FIXED nodes whose claim lost (R329 step 2). -/
structure Sounding where
  db : List SNode := []
  kept : List (Nat × Nat) := []
  epoch : Nat := 0
  seen : Nat := 0
  part : List (Nat × Nat × Nat) := []
  held : Bool := false
  tree : List (Nat × Nat × Nat) := []
  ownSeq : Nat := 0
  lost : List Nat := []
  deriving DecidableEq, Repr

/-! ### The helm (chapter 17) -/

/-- A burst of a data-port instance (17 R396, R397): its direction once fixed, that an access went against it, the bytes
of the space not yet begun, and the stream bytes of the word or record under way. -/
structure Burst where
  wr : Option Bool := none
  wrong : Bool := false
  left : Nat
  part : List Byte := []
  deriving DecidableEq, Repr

/-- A data-port instance (17 Table 17.7). -/
structure DPort where
  addr : Nat := 0
  len : Nat := 0
  status : Nat := 0
  remain : Nat := 0
  err : Nat := 0
  burst : Option Burst := none
  deriving DecidableEq, Repr

/-- A data-port transfer of a session (17 R402): the SEQ of its REQ, its direction, the first segment not acknowledged or not
received, the next to send, the stream bytes not acknowledged (read) and those not yet received (write), segments received or
sent since the last DP_ACK, repeats without progress. -/
structure Xfer where
  seqn : Nat
  wr : Bool
  base : Nat := 0
  next : Nat := 0
  buf : List Byte := []
  left : Nat := 0
  since : Nat := 0
  repeats : Nat := 0
  deriving DecidableEq, Repr

/-- A session of a manager (17 R400): its node, the last SEQ, the stored response, the transfer in progress, when its last
frame came. -/
structure Session where
  node : Nat
  lastSeq : Nat := 0
  resp : List Byte := []
  xfer : Option Xfer := none
  seen : Nat := 0
  deriving DecidableEq, Repr

/-- A CAN FD frame that the helm sends (17 R399): FUNC, DST, SEGNO and the payload. -/
structure CanFrame where
  func : Nat
  dst : Nat
  segno : Nat := 0
  payload : List Byte
  deriving DecidableEq, Repr

/-- A commit under way (17 R392): the index of its commit entry, and the path that wrote it. -/
structure Commit where
  index : Nat
  path : Path
  deriving DecidableEq, Repr

/-- A tally armed by a path (19 R448), and when. -/
structure TallyArm where
  path : Path
  tally : Nat
  tick : Nat
  deriving DecidableEq, Repr

/-- A tally change being programmed (19 R449). -/
structure TallyRun where
  tally : Nat
  value : Nat
  deriving DecidableEq, Repr

/-! ### Pins and the test access port (chapter 20) -/

/-- The control pins: levels that the board drives, and those that the device drives (19 Table 19.6, 20 Table 20.2). `thermOut` says
that the device holds THERMTRIP_N low; `idle` that the fabric links are in electrical idle. -/
structure Pins where
  pwrgood : Bool := true
  resetN : Bool := true
  moorN : Bool := true
  thermIn : Bool := true
  perstN : Bool := true
  thermOut : Bool := false
  lantern : Bool := false
  mpPerst : BitVec 16 := 0
  idle : Bool := false
  deriving DecidableEq, Repr

/-- JTAG instructions (20 R465). -/
inductive TapIr where
  | bypass
  | idcode
  | samplePreload
  | extest
  | dbgAccess
  deriving DecidableEq, Repr

/-- The test access port: its instruction, the bits its data register shifts out, the boundary register's update stage, and
the error flag of the last DBG_ACCESS with what it read (17 R407). -/
structure Tap where
  ir : TapIr := .idcode
  dr : List Bool := []
  boundary : List Bool := []
  dbgErr : Bool := false
  dbgData : Word64 := 0
  deriving DecidableEq, Repr

/-- The host port beyond its entries (16 R384; 17 R389; 18 Tables 18.4 and 18.6): its link, that it sent ERR_FATAL. -/
structure HostPort where
  link : Bool := false
  errFatal : Bool := false
  deriving DecidableEq, Repr

/-- The machine. `bootStep` is the last step of Table 19.9 taken (19 R445): 0 before the helm ROM starts, 1 to 5 the steps of that
number, 6 the patch's, 7 to 12 the link pairs' of step 7, 13 once YARD_GO is written. `isoLinks` and `isoIocs` are the links and I/O chiplets that the watch has isolated
(18 R428). -/
structure State where
  pending : List Instr := []
  time : Nat := 0
  seqNo : Nat := 0
  fresh : Nat := 0
  stalls : SMap Stall := []
  cores : SMap Core := []
  records : SMap Record := []
  sheds : SMap Shed := []
  mem : SMap MGran := []
  ops : List LocalOp := []
  waiters : List Waiter := []
  slots : SMap (Option Slot) := []
  tgens : SMap Nat := []
  ports : SMap Port := []
  xl : SMap Word64 := []
  xpages : SMap XPage := []
  tlbs : SMap (List TlbEntry) := []
  walkc : SMap (List WalkEntry) := []
  berths : SMap Berth := []
  dict : SMap Nat := []
  applied : SMap Nat := []
  errorLines : List Report := []
  watchMask : Nat := 0
  compass : List Transit := []
  inbox : List Transit := []
  homeWait : List (Nat × Pkt) := []
  resent : List (Nat × Nat × Nat × Nat) := []
  injBerth : Nat := 0
  injLeft : Nat := 0
  links : SMap Link := []
  sound : Sounding := {}
  charts : SMap Nat := []
  tsOut : Option Nat := none
  tsGood : Nat := 0
  tallies : SMap Nat := []
  arms : List TallyArm := []
  tallyRun : Option TallyRun := none
  logbook : List Nat := []
  commits : List Commit := []
  dports : SMap DPort := []
  sessions : List Session := []
  helmTx : List CanFrame := []
  busOff : Bool := false
  stage : SMap Byte := []
  trace : SMap Nat := []
  reportTick : SMap Nat := []
  patchRam : SMap (BitVec 192) := []
  patchRun : Option Bool := none
  clkRun : Option Nat := none
  clkWant : Option Nat := none
  inReset : Bool := false
  bootStep : Nat := 0
  pins : Pins := {}
  tap : Tap := {}
  host : HostPort := {}
  isoLinks : BitVec 12 := 0
  isoIocs : BitVec 4 := 0
  deriving DecidableEq, Repr

/-- The machine right after reset. -/
def State.reset : State := {}

end Sys2Proof.Machine
end

