-- ==== Sys2Proof/Machine/Ops.lean ====
section
/-!
DEFINITION. The named reads and writes of the state: units by number, registers of a stall, the status fields, contexts by
their identifiers, dictionary entries, memory granules, events and error lines.
-/

namespace Sys2Proof.Machine

/-! ### Units by number -/

def State.stall (s : State) (k : Nat) : Stall := SMap.get (fun _ => {}) s.stalls k
def State.setStall (s : State) (k : Nat) (x : Stall) : State := { s with stalls := SMap.set (fun _ => {}) s.stalls k x }
def State.updStall (s : State) (k : Nat) (f : Stall → Stall) : State := s.setStall k (f (s.stall k))
def State.core (s : State) (k : Nat) : Core := SMap.get (fun _ => {}) s.cores k
def State.setCore (s : State) (k : Nat) (x : Core) : State := { s with cores := SMap.set (fun _ => {}) s.cores k x }
def State.updCore (s : State) (k : Nat) (f : Core → Core) : State := s.setCore k (f (s.core k))
def State.record (s : State) (k : Nat) : Record := SMap.get (fun _ => {}) s.records k
def State.setRecord (s : State) (k : Nat) (x : Record) : State := { s with records := SMap.set (fun _ => {}) s.records k x }
def State.updRecord (s : State) (k : Nat) (f : Record → Record) : State := s.setRecord k (f (s.record k))
def State.shed (s : State) (k : Nat) : Shed := SMap.get (fun _ => {}) s.sheds k
def State.setShed (s : State) (k : Nat) (x : Shed) : State := { s with sheds := SMap.set (fun _ => {}) s.sheds k x }
def State.updShed (s : State) (k : Nat) (f : Shed → Shed) : State := s.setShed k (f (s.shed k))
def State.port (s : State) (k : Nat) : Port := SMap.get (fun _ => {}) s.ports k
def State.setPort (s : State) (k : Nat) (x : Port) : State := { s with ports := SMap.set (fun _ => {}) s.ports k x }
def State.updPort (s : State) (k : Nat) (f : Port → Port) : State := s.setPort k (f (s.port k))
def State.berth (s : State) (k : Nat) : Berth := SMap.get (fun _ => {}) s.berths k
def State.setBerth (s : State) (k : Nat) (x : Berth) : State := { s with berths := SMap.set (fun _ => {}) s.berths k x }
def State.updBerth (s : State) (k : Nat) (f : Berth → Berth) : State := s.setBerth k (f (s.berth k))
def State.slot (s : State) (k : Nat) : Option Slot := SMap.get (fun _ => none) s.slots k
def State.setSlot (s : State) (k : Nat) (x : Option Slot) : State := { s with slots := SMap.set (fun _ => none) s.slots k x }
def State.linkSt (s : State) (k : Nat) : Link := SMap.get (fun _ => {}) s.links k
def State.setLink (s : State) (k : Nat) (x : Link) : State := { s with links := SMap.set (fun _ => {}) s.links k x }
def State.updLink (s : State) (k : Nat) (f : Link → Link) : State := s.setLink k (f (s.linkSt k))
def State.xpage (s : State) (k : Nat) : XPage := SMap.get (fun _ => {}) s.xpages k
def State.setXpage (s : State) (k : Nat) (x : XPage) : State := { s with xpages := SMap.set (fun _ => {}) s.xpages k x }

/-- Counts of the part (00 R10, 01, 08 Table 8.12). -/
abbrev nStalls : Nat := 16384
abbrev nCores : Nat := 256
abbrev nSheds : Nat := 16
abbrev nPorts : Nat := 16
abbrev nBerths : Nat := 64
abbrev nRecords : Nat := 262144
abbrev nLinks : Nat := 12

/-- The core and the shed of a global stall number (08: 64 stalls to a core, 16 cores to a shed). -/
def coreOf (stall : Nat) : Nat := stall / 64
def shedOf (stall : Nat) : Nat := stall / 1024
def shedOfCore (core : Nat) : Nat := core / 16

/-- S63 of a core holds the interrupt context (07 R157). -/
def isS63 (stall : Nat) : Bool := stall % 64 == 63

/-! ### Dictionary entries -/

/-- The value of an entry: the staged value where it has two. -/
def State.ent (s : State) (idx sub : Nat) : Nat := SMap.get entryDefault s.dict (ekey idx sub)
def State.setEnt (s : State) (idx sub v : Nat) : State := { s with dict := SMap.set entryDefault s.dict (ekey idx sub) v }
/-- The applied value of an RWS entry. -/
def State.app (s : State) (idx sub : Nat) : Nat := SMap.get entryDefault s.applied (ekey idx sub)
def State.setApp (s : State) (idx sub v : Nat) : State := { s with applied := SMap.set entryDefault s.applied (ekey idx sub) v }

/-- A saturating count in an entry of `w` bits. -/
def State.bump (s : State) (idx sub w n : Nat) : State := s.setEnt idx sub (satAdd w (s.ent idx sub) n)

/-! ### STATUS (04 Table 4.9) -/

def stPL (v : Word64) : Nat := nbits v.toNat 1 0
def stIE (v : Word64) : Bool := v.getLsbD 2
def stFEN (v : Word64) : Bool := v.getLsbD 3
def stRPA (v : Word64) : Bool := v.getLsbD 8
def stLPA (v : Word64) : Bool := v.getLsbD 9
def stDF (v : Word64) : Bool := v.getLsbD 10
def stCM (v : Word64) : Bool := v.getLsbD 11
def stCEIL (v : Word64) : Nat := nbits v.toNat 15 14
def stPID (v : Word64) : Nat := nbits v.toNat 51 32
def stBerth (v : Word64) : Nat := nbits v.toNat 51 46

/-- A word with one bit given. -/
def setBit (v : Word64) (i : Nat) (b : Bool) : Word64 := if b then v ||| (1#64 <<< i) else v &&& ~~~(1#64 <<< i)

/-- A STATUS with PL given. -/
def setPL (v : Word64) (pl : Nat) : Word64 := (v &&& ~~~3#64) ||| w64 (pl % 4)

/-- A STATUS word from its fields. -/
def mkStatus (pid ceil pl : Nat) (fen ie : Bool) : Word64 :=
  w64 (pid % 2 ^ 20 * 2 ^ 32 + ceil % 4 * 2 ^ 14 + b2n fen * 8 + b2n ie * 4 + pl % 4)

/-! ### Registers of a stall (04 R76–R80) -/

/-- G0 reads RAW zero in both halves. -/
def Stall.getG (t : Stall) (n : Nat) : Gran := if n = 0 then Gran.zero else SMap.get (fun _ => Gran.zero) t.g n

/-- A write of a slot: discarded for G0; it makes the register dirty (08 R175), and a mark of poison ends
(02 R33). -/
def Stall.setG (t : Stall) (n : Nat) (v : Gran) : Stall :=
  if n = 0 then t
  else { t with g := SMap.set (fun _ => Gran.zero) t.g n v, dirty := maskSet t.dirty n, gpois := maskClr t.gpois n }

/-- A write of a word to a slot: the high half becomes RAW zero. -/
def Stall.setW (t : Stall) (n : Nat) (w : TWord) : Stall := t.setG n (Gran.ofWord w)

def Stall.getF (t : Stall) (n : Nat) : TWord := SMap.get (fun _ => TWord.zero) t.f n
/-- Every write to an F register sets FDIRTY (08 R188). -/
def Stall.setF (t : Stall) (n : Nat) (w : TWord) : Stall :=
  { t with f := SMap.set (fun _ => TWord.zero) t.f n w, fdirty := true }

/-- P0 reads 1. -/
def Stall.getP (t : Stall) (n : Nat) : Bool := n == 0 || maskBit t.preds n
/-- A write to P0 is discarded. -/
def Stall.setP (t : Stall) (n : Nat) (b : Bool) : Stall :=
  if n = 0 then t else { t with preds := if b then maskSet t.preds n else maskClr t.preds n }

/-- PREDS as a number: P7–P0, P0 reading 1. -/
def Stall.predsNat (t : Stall) : Nat := (t.preds ||| 1).toNat

/-- Make a special register dirty. -/
def Stall.mark (t : Stall) (sr : Nat) : Stall := { t with dirty := maskSet t.dirty (32 + sr) }

def Stall.getEntry (t : Stall) (n : Nat) : Gran := SMap.get (fun _ => Gran.zero) t.entry n

/-- A special register's content as a slot: a word register in the low word, RAW (04 R80). -/
def Stall.readSR (t : Stall) (time : Nat) (sr : Nat) : Gran :=
  let raw (v : Word64) : Gran := Gran.ofWord (TWord.raw v)
  match sr with
  | 0x00 => t.pcc
  | 0x01 => raw t.status
  | 0x02 => raw (w64 t.iflags)
  | 0x03 => raw (w64 t.fstatus)
  | 0x04 => raw t.lc
  | 0x05 => raw (w64 t.lstart)
  | 0x06 => raw (w64 t.lend)
  | 0x07 => raw (w64 t.predsNat)
  | 0x08 => raw t.timer
  | 0x09 => raw (w64 time)
  | 0x0A => t.alloc
  | 0x0B => t.spcc
  | 0x0C => raw t.sstatus
  | 0x0D => t.vbaseS
  | 0x0E => t.vbaseY
  | n => if 0x10 ≤ n ∧ n ≤ 0x17 then t.getEntry (n - 0x10) else Gran.zero

/-- 05 R116: a write to LC arms or ends the loop. -/
def Stall.writeLC (t : Stall) (v : Word64) : Stall :=
  { t with lc := v, status := setBit t.status 9 (v != 0) }.mark srLC

/-- The fields of SSTATUS are those of STATUS (04 Table 4.9): reserved bits read 0. DESIGN CHOICE (log entry 100): 04 R80 gives
SSTATUS no layout of its own, and MTSR writes every field of it, those that are RO in STATUS included. -/
def statusFields : Word64 := 0x000F_FFFF_0000_CF0F

/-- MTSR's write of a word register: the fields whose access is RW (04 R80, Tables 4.9 to 4.11). -/
def Stall.writeSRWord (t : Stall) (sr : Nat) (v : Word64) : Stall :=
  match sr with
  | 0x01 => { t with status := (t.status &&& ~~~0xC#64) ||| (v &&& 0xC#64) }
  | 0x02 => { t with iflags := iflagsWrite v.toNat }.mark srIFLAGS
  | 0x03 => { t with fstatus := fsWrite t.fstatus v.toNat, fdirty := true }
  | 0x04 => t.writeLC v
  | 0x05 => { t with lstart := v.toNat % 2 ^ 48 }.mark srLSTART
  | 0x06 => { t with lend := v.toNat % 2 ^ 48 }.mark srLEND
  | 0x07 => { t with preds := v.setWidth 8 ||| 1 }
  | 0x08 => { t with timer := v, timp := false }.mark srTIMER
  | 0x0C => { t with sstatus := v &&& statusFields }.mark srSSTATUS
  | _ => t

/-- A write of a capability register (04 R80). -/
def Stall.writeSRCap (t : Stall) (sr : Nat) (g : Gran) : Stall :=
  match sr with
  | 0x0A => { t with alloc := g }.mark sr
  | 0x0B => { t with spcc := g }.mark sr
  | 0x0D => { t with vbaseS := g }.mark sr
  | 0x0E => { t with vbaseY := g }.mark sr
  | n =>
    if 0x10 ≤ n ∧ n ≤ 0x17 then { t with entry := SMap.set (fun _ => Gran.zero) t.entry (n - 0x10) g }.mark n else t

/-! ### Contexts (08 R167–R169) -/

def cidRecord (cid : Nat) : Nat := cid % 2 ^ 18
def cidGen (cid : Nat) : Nat := cid / 2 ^ 18
def cidShed (cid : Nat) : Nat := cidRecord cid / 2 ^ 14
def mkCid (gen record : Nat) : Nat := gen * 2 ^ 18 + record
/-- 08 R169: the interrupt CID of a core. -/
def intCid (core : Nat) : Nat := mkCid 0x3FFF core
def isIntCid (cid : Nat) : Bool := cidGen cid == 0x3FFF

/-- The stall a context is resident in. -/
def State.stallOf (s : State) (cid : Nat) : Option Nat :=
  match s.stalls.find? (fun e => e.2.cid == some cid) with
  | some e => some e.1
  | none => none

/-- 08 R168, R180: whether a CID names a living context. -/
def State.living (s : State) (cid : Nat) : Bool :=
  if isIntCid cid then (s.stall (cidRecord cid % 256 * 64 + 63)).cid == some cid
  else decide ((s.record (cidRecord cid)).gen = cidGen cid) && (s.record (cidRecord cid)).rstate != .free

/-- STATUS of a living context, wherever it is. -/
def State.statusOf (s : State) (cid : Nat) : Word64 :=
  match s.stallOf cid with
  | some k => (s.stall k).status
  | none => (s.record (cidRecord cid)).status

/-- The berth of a context. -/
def State.berthOf (s : State) (cid : Nat) : Nat := stBerth (s.statusOf cid)

/-- The CID that labels an operation of a stall (08 R169 for S63). -/
def State.cidOf (s : State) (k : Nat) : Nat := (s.stall k).cid.getD (intCid (coreOf k))

/-- The current node ID, 0xFFFF while unassigned (14 Table 14.8). -/
def State.nodeId (s : State) : Nat := s.ent 0x5000 0x01

/-- 03 R41: an access is local when NODE is 0xFFFF or this node's ID. -/
def State.isLocal (s : State) (node : Nat) : Bool := node == 0xFFFF || node == s.nodeId

/-- 05 R106 ff.: a fresh number for program order. -/
def State.tickSeq (s : State) : State := { s with seqNo := s.seqNo + 1 }

/-! ### Events and reports -/

/-- A unit raises its error line (18): the watch handles it in a WATCH_REPORT. -/
def State.raise (s : State) (r : Report) : State := { s with errorLines := s.errorLines ++ [r] }

/-! ### Injection (18 R425) -/

/-- The inversion of check bits that a mode of INJECT makes (18 Table 18.7). -/
def injectMask (mode : Nat) : BitVec 24 :=
  match mode with
  | 1 => 0x000001
  | 2 => 0x010001
  | 3 => 0x000101
  | _ => 0

/-- One decode by a checker of the source with WATCH_STATUS bit `bit`: while INJECT is armed for it, the decode takes the
inversion and COUNT falls; ARM clears at 0. -/
def State.injected (s : State) (bit : Nat) : State × BitVec 24 :=
  let v := s.ent 0x6000 0x0C
  let n := nbits v 23 16
  if nbit v 31 && nbits v 5 0 == bit && decide (1 ≤ n) then
    (s.setEnt 0x6000 0x0C (if n = 1 then v - 2 ^ 16 - 2 ^ 31 else v - 2 ^ 16), injectMask (nbits v 11 8))
  else (s, 0)

/-! ### Register slots and their check code (02 R30–R33) -/

/-- The check bytes a register slot is stored with. -/
def Stall.slotChk (t : Stall) (n : Nat) : BitVec 24 := if maskBit t.gpois n then rsPoison (t.getG n) else rsEncode (t.getG n)

/-- An operand fetch decodes the slots of G registers `ns` of stall `k` (02 R31), whose checker INJECT feeds through their shed: a
correction is counted, its slot as it was (R32); a slot that cannot be used is poisoned and raises the shed's error line (R33). The answer is the
BUS_ERROR subcode of the first such slot. -/
def State.fetchSlots (s : State) (k : Nat) : List Nat → State × Option Nat
  | [] => (s, none)
  | n :: ns =>
    let i := s.injected (shedOf k)
    let t := i.1.stall k
    if n = 0 || (i.2 == 0 && !maskBit t.gpois n) then (if n = 0 then s else i.1).fetchSlots k ns
    else
      match (rsDecode (t.getG n) (t.slotChk n ^^^ i.2)).1 with
      | .clean => i.1.fetchSlots k ns
      | .corrected => (i.1.bump 0x6000 (0x80 + shedOf k) 32 1).fetchSlots k ns
      | d =>
        ((i.1.updStall k (fun t => { t with gpois := maskSet t.gpois n })).raise
          { bit := shedOf k, kind := .contained, source := shedOf k, access := 1, master := 1 }, some (if d == .poison then 2 else 1))

/-- Several decodes of one source, in order. -/
def State.injectedN (s : State) (bit : Nat) : Nat → State × List (BitVec 24)
  | 0 => (s, [])
  | n + 1 =>
    let r := s.injected bit
    let q := r.1.injectedN bit n
    (q.1, r.2 :: q.2)

end Sys2Proof.Machine
end

