-- ==== Sys2Proof/Machine/Memory.lean ====
section
/-!
DEFINITION. Memory behind the ports (chapter 13): where a physical address lies, granules as read and written with their
check code, poison and mirroring; the haylofts' line states (chapter 10); merging buffers as their own context sees them.
The value of a line is one value, wherever copies of it lie (10 R230, R242, R243).
-/

namespace Sys2Proof.Machine

/-- 02 R34: the port address of a granule's sidecar, behind a data region of `d` bytes. -/
def sidecarAddr (d a : Nat) : Nat := d + a / 512 * 192 + a / 64 % 8 * 24 + a / 16 % 4 * 6

/-- The six sidecar bytes in order of address (02 R34): T0, T1, K0, K1, K2 and the collector byte. -/
def MGran.sidecar (m : MGran) : List Byte :=
  [m.g.lo.tag, m.g.hi.tag] ++ leBytes 3 m.chk.toNat ++ [BitVec.ofNat 8 (m.ver.toNat * 16 + m.age.toNat * 4 + m.mark.toNat)]

/-- Index of the entries of port p. -/
abbrev portIdx (p : Nat) : Nat := 0x4000 + p

/-- Bytes of an interleave granule (13 Table 13.5, IL_GRAN). -/
def ilBytes (g : Nat) : Nat := match g with | 0 => 512 | 1 => 4096 | _ => 2 ^ 21

/-- 13 R301: the port data address of `pa` at port `p`, where the port's applied map holds it. -/
def State.mapAt (s : State) (p pa : Nat) : Option Nat :=
  let i := portIdx p
  let base := s.app i 0x11
  let w := s.app i 0x13
  let g := ilBytes (s.app i 0x15)
  if s.app i 0x10 = 1 ∧ base ≤ pa ∧ pa < base + w * s.app i 0x12 ∧ (pa - base) / g % w = s.app i 0x14 then
    some ((pa - base) / g / w * g + (pa - base) % g)
  else none

/-- The first port of `n` from `p` that holds an address, with the port data address. -/
def State.locateFrom (s : State) (pa : Nat) : Nat → Nat → Option (Nat × Nat)
  | 0, _ => none
  | n + 1, p => match s.mapAt p pa with | some d => some (p, d) | none => State.locateFrom s pa n (p + 1)

/-- 13 R301, 11 R251: the home port and port data address of a physical address. -/
def State.locate (s : State) (pa : Nat) : Option (Nat × Nat) :=
  if pa < 2 ^ 46 then s.locateFrom pa 16 0 else none

/-- The physical address of a port data address under the applied maps (13 R301), a mirrored pair's odd port by its even one's map (R308). -/
def State.pdaPA (s : State) (p d : Nat) : Option Nat :=
  let p := if p % 2 = 1 ∧ s.app (portIdx (p - 1)) 0x16 = 1 then p - 1 else p
  let i := portIdx p
  let w := s.app i 0x13
  let g := ilBytes (s.app i 0x15)
  let pa := s.app i 0x11 + (d / g * w + s.app i 0x14) * g + d % g
  if s.mapAt p pa = some d then some pa else none

/-- Key of a granule of a port. -/
abbrev mkey (port pda : Nat) : Nat := port * 2 ^ 40 + pda / 16

/-- The granule stored at a port. Memory lists nothing at reset; an unlisted granule reads as an initialised one (02 R35),
and R35 keeps every unit not initialised from being read. -/
def State.mget (s : State) (k : Nat) : MGran := SMap.get (fun _ => MGran.zero) s.mem k
def State.mset (s : State) (k : Nat) (m : MGran) : State := { s with mem := SMap.set (fun _ => MGran.zero) s.mem k m }

/-- PORT_STATE ACTIVE, and the coded unit initialised (02 R35, 13 R300, R310). -/
def State.unitReady (s : State) (p pda : Nat) : Bool :=
  s.ent (portIdx p) 0x01 == 2 && decide (pda / 2 ^ 21 < s.ent (portIdx p) 0x07)

/-- 13 R308: whether even port `p` has a mirrored partner. -/
def State.mirrored (s : State) (p : Nat) : Bool := p % 2 == 0 && s.app (portIdx p) 0x16 == 1

/-- The ports a read of a line group tries, in order (13 R308). -/
def State.readPorts (s : State) (p pda : Nat) : List Nat :=
  if s.mirrored p then
    if s.ent (portIdx p) 0x18 == 1 then (if pda / 512 % 2 == 0 then [p, p + 1] else [p + 1, p])
    else [if (s.port p).badSide == 1 then p + 1 else p]
  else [p]

/-- The ports a write goes to (13 R308): both of a pair, or the survivor alone while degraded. -/
def State.writePorts (s : State) (p : Nat) : List Nat :=
  if s.mirrored p then
    if s.ent (portIdx p) 0x18 == 2 then [if (s.port p).badSide == 1 then p + 1 else p] else [p, p + 1]
  else [p]

/-- Whether some hayloft or victim buffer holds a line (13 R310: it stays usable). -/
def State.lineHeld (s : State) (line : Nat) : Bool :=
  s.sheds.any (fun e => e.2.lines.any (fun l => l.1 == line) || e.2.victims.contains line)

/-- The shed whose hayloft or victim buffer serves a line for shed `shed`: its own where it holds the line. -/
def State.holder (s : State) (shed line : Nat) : Nat :=
  let holds (h : Shed) : Bool := h.lines.any (fun l => l.1 == line) || h.victims.contains line
  if holds (s.shed shed) then shed else match s.sheds.find? (fun e => holds e.2) with | some e => e.1 | none => shed

/-- The inversion that INJECT feeds a decode of a line: in the holding shed, or in the port and its tag-and-check engine. -/
def State.injectLine (s : State) (p shed : Nat) (held : Bool) : State × BitVec 24 :=
  if held then s.injected shed
  else
    let a := s.injected (16 + p)
    if a.2 != 0 then a else a.1.injected 50

/-- What a read of one granule finds at one port. -/
def State.decodeAt (s : State) (p pda shed : Nat) (held : Bool) : State × Decoded × MGran :=
  if held || s.unitReady p pda then
    let m := s.mget (mkey p pda)
    let i := s.injectLine p shed held
    let d := rsDecode m.g (m.chk ^^^ i.2)
    (i.1, d.1, { m with g := d.2.1, chk := d.2.2 })
  else (s, .uncorrectable, MGran.zero)

/-- Counters and write-back of a correction (02 R32): in the port's CORRECTED, or in the holding shed's CORR entry. -/
def State.corrected (s : State) (p pda : Nat) (held : Bool) (shed : Nat) (m : MGran) : State :=
  let s := s.mset (mkey p pda) m
  if held then s.bump 0x6000 (0x80 + shed) 32 1
  else (s.bump (portIdx p) 0x20 64 1).bump 0x6000 (0x80 + 16 + p) 32 1

/-- 03 R54 for a granule that was read, or whose VER alone is known. -/
def verOk (ver : Nat) (v : Option Nat) : Bool := ver == 0 || (match v with | some x => x == ver | none => true)

/-- Subcodes of BUS_ERROR (07 Table 7.5a). -/
abbrev beUNC : Nat := 1
abbrev bePOISON : Nat := 2
abbrev beNOTARGET : Nat := 3

/-- The report and the count of an uncorrectable or poisoned granule (02 R33, 13 R306, 18 Tables 18.1 and 18.5): from the shed
whose hayloft holds the line, or from the port. -/
def State.badGranule (s : State) (p pda pa shed : Nat) (held poison : Bool) : State :=
  let s := if held then s else s.bump (portIdx p) (if poison then 0x22 else 0x21) 64 1
  if held then s.raise { bit := shed, kind := .contained, addr := some pa, source := shed, access := 1, master := 2 }
  else s.raise { bit := 16 + p, kind := .contained, addr := some pda, space := 2, source := 25 + p, access := 1, master := 2 }

/-- A granule found uncorrectable or poisoned is marked so where it is stored (02 R33, 13 R306); a unit not initialised is not
read at all (02 R35). -/
def State.poisonAt (s : State) (p pda : Nat) (held : Bool) : State :=
  if held || s.unitReady p pda then s.mset (mkey p pda) (s.mget (mkey p pda)).poisoned else s

/-- A granule read at physical address `pa` on behalf of shed `shed` (02 R31–R33, 13 R305, R306, R308): the state after
counts, repairs and reports, and the granule or the subcode of a bus error. A line that a hayloft holds is read there, and no
port's copy repairs it. -/
def State.readPA (s : State) (shed pa : Nat) : State × Except Nat MGran :=
  match s.locate pa with
  | none => (s, .error beNOTARGET)
  | some (p, pda) =>
    let held := s.lineHeld (pa / 64)
    let shed := s.holder shed (pa / 64)
    match s.readPorts p pda with
    | [] => (s, .error beUNC)
    | q :: more =>
      match s.decodeAt q pda shed held with
      | (s, .clean, m) => (s, .ok m)
      | (s, .corrected, m) => (s.corrected q pda held shed m, .ok m)
      | (s, d, _) =>
        let fail (s : State) : State × Except Nat MGran :=
          ((s.badGranule q pda pa shed held (d == .poison)).poisonAt q pda held, .error (if d == .poison then bePOISON else beUNC))
        match (if held then [] else more) with
        | [] => fail s
        | r :: _ =>
          match s.decodeAt r pda shed held with
          | (s, .clean, m) => ((s.mset (mkey q pda) m).bump (portIdx q) 0x23 64 1, .ok m)
          | (s, .corrected, m) => (((s.corrected r pda held shed m).mset (mkey q pda) m).bump (portIdx q) 0x23 64 1, .ok m)
          | (s, _, _) => fail s

/-- VER of a granule that is in an initialised unit or on chip; its reading needs no check code (02 R29). -/
def State.verAt (s : State) (pa : Nat) : Option Nat :=
  match s.locate pa with
  | some (p, pda) =>
    let q := (s.readPorts p pda).headD p
    if s.lineHeld (pa / 64) || s.unitReady q pda then some (s.mget (mkey q pda)).ver.toNat else none
  | none => none

/-- The granule as it lies in storage, collector bits included, whatever its check code. -/
def State.rawAt (s : State) (pa : Nat) : MGran :=
  match s.locate pa with | some (p, pda) => s.mget (mkey ((s.readPorts p pda).headD p) pda) | none => MGran.zero

/-- A granule to store over where its content cannot be used: collector bits kept. -/
def State.blankAt (s : State) (pa : Nat) : MGran := { s.rawAt pa with g := Gran.zero }

/-- Write a granule with its collector bits to every port that takes it. -/
def State.writeAt (s : State) (p pda : Nat) (m : MGran) : State :=
  (s.writePorts p).foldl (fun s q => s.mset (mkey q pda) m) s

/-- Write a memory granule at a physical address; nothing where no port holds it. -/
def State.writePA (s : State) (pa : Nat) (m : MGran) : State :=
  match s.locate pa with
  | none => s
  | some (p, pda) => s.writeAt p pda m

/-! ### Ports: reports, sidecar cache, write-backs (13 R304–R310) -/

/-- PORT_STATE. -/
def State.portState (s : State) (p : Nat) : Nat := s.ent (portIdx p) 0x01

/-- The port's own report: CONTAINED, from its gate slot (18 Tables 18.1 and 18.5). -/
def State.portReport (s : State) (p : Nat) (pda : Option Nat) (access : Nat) : State :=
  s.raise { bit := 16 + p, kind := .contained, addr := pda, space := 2, source := 25 + p, access := access, master := 2 }

/-- 13 R307: a write-back or sidecar write-back that failed: reported, and FIRST_ERR takes its address if it holds none. -/
def State.firstErr (s : State) (p pda : Nat) : State :=
  let s := if nbit (s.ent (portIdx p) 0x27) 63 then s else s.setEnt (portIdx p) 0x27 (2 ^ 63 + pda % 2 ^ 48)
  s.portReport p (some pda) 5

/-- A line group's entry becomes the most recently used, dirty where it was or is written, then with the address of the line
written; a full set loses its least recently used entry, whose write-back is outstanding where it was dirty. -/
def Port.touchSidecar (x : Port) (g : Nat) (wr : Option Nat) : Port :=
  let was := (x.sidecar.find? (fun e => e.1 == g)).bind (·.2)
  let rest := x.sidecar.filter (fun e => e.1 != g)
  let inSet := rest.filter (fun e => e.1 % 1024 == g % 1024)
  let out := if inSet.length < 8 then none else inSet.head?
  { x with sidecar := (match out with | some v => rest.filter (fun e => e.1 != v.1) | none => rest) ++ [(g, match wr with | some a => some a | none => was)],
           scOut := x.scOut ++ (match out with | some (v, some a) => [(v, a)] | _ => []) }

/-- A use of a line group's sidecar by a data-line access; a miss fetches its three lines and is counted. -/
def State.useSidecar (s : State) (p pda : Nat) (wr : Bool) : State :=
  let s := if (s.port p).sidecar.any (fun e => e.1 == pda / 512) then s else s.bump (portIdx p) 0x24 64 1
  s.updPort p (fun x => x.touchSidecar (pda / 512) (if wr then some (pda / 64 * 64) else none))

/-- A data line is written back to its ports: written and counted, or discarded and reported where a port is not ACTIVE (13 R304, R305,
R307, R308, R310). -/
def State.writeBack (s : State) (line : Nat) : State :=
  match s.locate (64 * line) with
  | none => s
  | some (p, pda) =>
    (s.writePorts p).foldl (fun s q =>
      if s.portState q == 2 then (s.useSidecar q pda true).bump (portIdx q) 0x26 64 1 else s.firstErr q pda) s

/-- Whether a write-back of the line would fail: its port is not ACTIVE. -/
def State.writeBackFails (s : State) (line : Nat) : Bool :=
  match s.locate (64 * line) with
  | some (p, _) => (s.writePorts p).any (fun q => s.portState q != 2)
  | none => false

/-- Whether some shed holds a line in M. -/
def State.dirty (s : State) (line : Nat) : Bool := s.sheds.any (fun e => e.2.lines.any (fun x => x.1 == line && x.2.st == .M))

/-- Every hayloft copy of a line is invalidated, dirty data taken back and written (10 R229). -/
def State.dropLine (s : State) (line : Nat) : State :=
  let s := if s.dirty line then s.writeBack line else s
  { s with sheds := SMap.mapv (fun _ => {}) (fun _ h => { h with lines := SMap.del h.lines line }) s.sheds }

/-! ### Haylofts (10 R227–R231) -/

/-- 10 R227: the set of a line at physical line number `line`. -/
def haySet (line : Nat) : Nat := Nat.xor (line % 4096) (line / 4096 % 4096)

/-- 10 R228, R237: the ways a fill of berth `b` may take in a shed; one that is being cleaned is not powered for fills. -/
def State.eligibleWays (s : State) (shed b : Nat) : BitVec 16 :=
  let h := s.shed shed
  let m := BitVec.ofNat 16 (s.ent (0x3100 + b) 0x0D) &&& h.pwrState &&& ~~~h.offReq &&& ~~~h.cleaning &&& ~~~h.lock
  if h.allocWays != 0 then m &&& h.allocWays else m

/-- The ways of a set that hold a line. -/
def Shed.usedWays (h : Shed) (set : Nat) : List Nat :=
  (h.lines.filter (fun e => haySet e.1 == set)).map (fun e => e.2.way) ++
    (h.copies.filter (fun c => haySet c.vline == set)).map (fun c => c.way)

/-- The set bits of a way mask, ascending. -/
def waysOf (m : BitVec 16) : List Nat := (upTo 16).filter (maskBit m)

/-- 10 R228: the way a fill takes: an invalid eligible way first, else one of the eligible ways (the choice is
`Config.wayVictim`'s); none where no way is eligible. While the victim buffer's 16 entries are taken (10 R231) no M line is
replaced. -/
def State.fillWay (s : State) (shed b set : Nat) : Option Nat :=
  let h := s.shed shed
  let stuck (w : Nat) : Bool := decide (16 ≤ h.victims.length) && h.lines.any (fun e => haySet e.1 == set && e.2.way == w && e.2.st == .M)
  let ways := (waysOf (s.eligibleWays shed b)).filter (fun w => !stuck w)
  match ways.filter (fun w => !((s.shed shed).usedWays set).contains w) with
  | w :: _ => some w
  | [] => listAt ways (Config.wayVictim s.fresh % (max 1 ways.length))

/-- 10 R231: a line leaves a hayloft's way: an M line goes to the victim buffer. -/
def Shed.evict (h : Shed) (line : Nat) : Shed :=
  match h.lines.find? (fun e => e.1 == line) with
  | some (_, l) => { h with lines := SMap.del h.lines line, victims := if l.st == .M then h.victims ++ [line] else h.victims }
  | none => h

/-- The line or copy in a way of a set makes room. -/
def Shed.makeRoom (h : Shed) (set way : Nat) : Shed :=
  let h := { h with copies := h.copies.filter (fun c => !(haySet c.vline == set && c.way == way)) }
  match h.lines.find? (fun e => haySet e.1 == set && e.2.way == way) with
  | some (line, _) => h.evict line
  | none => h

/-- The home port of a line. -/
def State.homeOf (s : State) (line : Nat) : Option Nat := (s.locate (64 * line)).map (·.1)

/-- The lines with an entry in the same set of the same home agent's directory as `line` (10 R229): those that a hayloft holds. -/
def State.dirLines (s : State) (line : Nat) : List Nat :=
  ((s.sheds.flatMap (fun e => e.2.lines.map (·.1))).filter (fun l =>
    s.homeOf l == s.homeOf line && Config.dirSet l % 8192 == Config.dirSet line % 8192)).dedup

/-- 10 R229: a line that takes a directory entry finds one of the 16 of its set, or one is evicted. Fewer lines than 16 in the haylofts fill no set. -/
def State.dirRoom (s : State) (line : Nat) : State :=
  let l := s.dirLines line
  if decide ((s.sheds.flatMap (fun e => e.2.lines)).length < 16) || l.contains line || decide (l.length < 16) then s
  else
    match listAt l (Config.dirVictim s.fresh % l.length) with
    | some v => { s.dropLine v with fresh := s.fresh + 1 }
    | none => s

/-- Put a line into a shed's hayloft for berth `b` in a state (10 R228); served without allocation where no way is
eligible. -/
def State.fillLine (s : State) (shed b line : Nat) (st : LState) : State :=
  if (s.fillWay shed b (haySet line)).isNone then s
  else
    let s := s.dirRoom line
    match s.fillWay shed b (haySet line) with
    | none => s
    | some w =>
      let h := (s.shed shed).makeRoom (haySet line) w
      { s.setShed shed { h with lines := SMap.put h.lines line { way := w, st := st, berth := b } } with fresh := s.fresh + 1 }

/-- 10 R230: what another shed's copy becomes when shed `me` reads a line: S, an M copy's data written back. -/
def State.shareOthers (s : State) (me line : Nat) : State :=
  let s := if s.dirty line then s.writeBack line else s
  { s with sheds := SMap.mapv (fun _ => {}) (fun k h =>
      if k = me then h
      else { h with lines := h.lines.map (fun l => if l.1 = line then (l.1, { l.2 with st := .S }) else l) }) s.sheds }

/-- 10 R229, R230: every other hayloft's copy of a line is invalidated, with its L1 copies. -/
def State.dropOthers (s : State) (me line : Nat) : State :=
  { s with sheds := SMap.mapv (fun _ => {}) (fun k h => if k = me then h else { h with lines := SMap.del h.lines line }) s.sheds }

/-- Whether a shed other than `me` holds a line. -/
def State.othersHold (s : State) (me line : Nat) : Bool :=
  s.sheds.any (fun e => e.1 != me && e.2.lines.any (fun l => l.1 == line))

/-- A data line that no hayloft holds is read at its port: it is counted (13 Table 13.5, READ_LINES), its group's sidecar used, and each of its granules
but the one at index `gi`, which the access itself decodes, passes the engine's decoder (10 R230; 13 R304, R305). -/
def State.portRead (s : State) (shed line gi : Nat) : State :=
  if s.lineHeld line then s
  else
    match s.locate (64 * line) with
    | some (p, pda) =>
      let q := (s.readPorts p pda).headD p
      (upTo 4).foldl (fun s i => if i = gi then s else (s.readPA shed (64 * line + 16 * i)).1) ((s.useSidecar q pda false).bump (portIdx q) 0x25 64 1)
    | none => s

/-- A read of a line by shed `shed` for berth `b`: a hit, or a fill in E, or in S where another shed holds the line; the access has decoded
the granule at index `gi`. Where no way is eligible the read is served without allocation and the line keeps its states elsewhere (10 R228). -/
def State.touchRead (s : State) (shed b line : Nat) (gi : Nat := 4) : State :=
  if (s.shed shed).lines.any (fun l => l.1 == line) || (s.shed shed).victims.contains line then s
  else
    let s := s.portRead shed line gi
    if (s.fillWay shed b (haySet line)).isNone then s
    else (s.shareOthers shed line).fillLine shed b line (if s.othersHold shed line then .S else .E)

/-- A write to a line in its own shed's victim buffer waits for the acknowledgement of the write-back (10 R231): it comes first. -/
def State.settleVictim (s : State) (shed line : Nat) : State :=
  if (s.shed shed).victims.contains line then (s.updShed shed (fun h => { h with victims := h.victims.erase line })).writeBack line else s

/-- A store into a line: the line is taken in M, every other copy invalidated, L1 copies of other cores and L1
instruction copies dropped (10 R222, R223, R230). -/
def State.touchWrite (s : State) (shed core b line : Nat) (gi : Nat := 4) : State :=
  let s := ((s.settleVictim shed line).portRead shed line gi).dropOthers shed line
  let s := if (s.shed shed).lines.any (fun l => l.1 == line) then s else s.fillLine shed b line .M
  s.updShed shed (fun h => { h with lines := h.lines.map (fun l =>
    if l.1 = line then (l.1, { l.2 with st := .M, l1d := l.2.l1d &&& (if core < nCores then maskSet 0 (core % 16) else 0), l1i := 0 }) else l) })

/-- Whether a core's L1 data or instruction cache holds a line of its hayloft. -/
def HLine.inCore (l : HLine) (core : Nat) (inst : Bool) : Bool := maskBit (if inst then l.l1i else l.l1d) (core % 16)
/-- A line's L1 copy in a core is set or dropped. -/
def HLine.setCore (l : HLine) (core : Nat) (inst on : Bool) : HLine :=
  let f (m : BitVec 16) : BitVec 16 := if on then maskSet m (core % 16) else maskClr m (core % 16)
  if inst then { l with l1i := f l.l1i } else { l with l1d := f l.l1d }

/-- The lines that a core's L1 cache holds in the set of `line`: 64 sets by physical address bits 11:6 (10 R221). -/
def State.l1Set (s : State) (core line : Nat) (inst : Bool) : List Nat :=
  ((s.shed (shedOfCore core)).lines.filter (fun l => l.1 % 64 == line % 64 && l.2.inCore core inst)).map (·.1)

/-- A core's L1 takes a line its hayloft holds (10 R221, R222): into one of the 8 ways of its set, the line that `Config.l1Victim` names making
room in a full one. -/
def State.touchL1 (s : State) (core line : Nat) (inst : Bool) : State :=
  let set := s.l1Set core line inst
  if set.contains line || !(s.shed (shedOfCore core)).lines.any (fun l => l.1 == line) then s
  else
    let out := if set.length < 8 then none else listAt set (Config.l1Victim s.fresh % set.length)
    { s.updShed (shedOfCore core) (fun h => { h with lines := h.lines.map (fun l =>
        if l.1 = line then (l.1, l.2.setCore core inst true) else if some l.1 = out then (l.1, l.2.setCore core inst false) else l) }) with
      fresh := s.fresh + b2n out.isSome }

/-- Whether a core's L1 data cache holds a line. -/
def State.inL1 (s : State) (core line : Nat) : Bool :=
  (s.shed (shedOfCore core)).lines.any (fun l => l.1 == line && maskBit l.2.l1d (core % 16))

/-- 10 R235: a stream's next miss. Three misses a stride apart make it confident (`same` ≥ 2). -/
def Stream.miss (x : Stream) (va berth lo hi ver : Nat) : Stream :=
  let d : Int := (va : Int) - x.last
  { x with last := va, stride := d, same := if d = x.stride ∧ d ≠ 0 ∧ d.natAbs ≤ 4096 then x.same + 1 else if d ≠ 0 ∧ d.natAbs ≤ 4096 then 1 else 0,
           berth := berth, lo := lo, hi := hi, ver := ver }

/-- 10 R235: the detector of a shed is trained by an L1 data miss; 256 streams, the least recently used replaced. -/
def State.trainStream (s : State) (stall pc va berth lo hi ver : Nat) : State :=
  s.updShed (stall / 1024) (fun h =>
    let key (x : Stream) : Bool := x.stall == stall && x.hash == Config.pcHash pc
    match h.streams.find? key with
    | some x => { h with streams := h.streams.filter (fun y => !key y) ++ [x.miss va berth lo hi ver] }
    | none =>
      let l := h.streams ++ [{ stall := stall, hash := Config.pcHash pc, last := va, berth := berth, lo := lo, hi := hi, ver := ver }]
      { h with streams := l.drop (l.length - 256) })

/-! ### Merging buffers (10 R224–R226) -/

/-- Apply one buffered store to a granule (02 R20, R25). -/
def BufStore.apply (b : BufStore) (g : Gran) : Gran :=
  if b.whole then b.g else g.writeWord b.hi b.g.lo

/-- Whether a buffered store writes a word of its granule. -/
def BufStore.writes (b : BufStore) (hi : Bool) : Bool := b.whole || b.hi == hi

/-- Whether two buffered stores write a word in common. -/
def BufStore.overlaps (a b : BufStore) : Bool := a.gi == b.gi && (a.whole || b.whole || a.hi == b.hi)

/-- The stores of a core's buffer to one granule, in issue order. -/
def Core.buffered (c : Core) (pa : Nat) : List BufStore :=
  match c.buffer.find? (fun e => e.line == pa / 64) with
  | some e => e.stores.filter (fun b => b.gi == pa / 16 % 4)
  | none => []

/-- 10 R226: a granule as context `cid` on core `c` sees it: its own buffered stores applied. -/
def State.ownView (s : State) (c cid pa : Nat) (g : Gran) : Gran :=
  ((s.core c).buffered pa).foldl (fun g b => if b.cids.contains cid then b.apply g else g) g

/-- Whether a store to a line finds room (10 R224): a matching entry, or a free one of the 16. -/
def Core.bufferRoom (c : Core) (line : Nat) : Bool :=
  c.buffer.any (fun e => e.line == line) || decide (c.buffer.length < 16)

/-- A store enters the buffer, behind the entry's other stores (10 R224): the entry is what its stores make of the line in issue order, and a
word of it has the CID of the last of them that writes it. -/
def Core.bufferStore (c : Core) (line : Nat) (b : BufStore) : Core :=
  if c.buffer.any (fun e => e.line == line) then
    { c with buffer := c.buffer.map (fun e => if e.line = line then { e with stores := e.stores ++ [b] } else e) }
  else { c with buffer := c.buffer ++ [{ line := line, stores := [b] }] }

/-- Whether context `cid` has a store in a core's buffer. -/
def Core.hasStores (c : Core) (cid : Nat) : Bool := c.buffer.any (fun e => e.stores.any (fun b => b.cids.contains cid))

/-! ### Waiters (05 R106, R107; 08 R181) -/

/-- A waiter that the word at `pa` still holds up. -/
def Waiter.waits (w : Waiter) : Bool := w.got.isNone

/-- 05 R107: the store that left granule `g` at `pa` fills a word: every waiter registered on it before takes that value.
The word's old tag must have been EMPTY or FUTURE and its new one neither. -/
def State.fillWaiters (s : State) (pa : Nat) (old new : Gran) : State :=
  let wake (hi : Bool) : Bool := (old.word hi).isSync && !(new.word hi).isSync
  { s with waiters := s.waiters.map (fun w =>
      if w.waits && ((wake false && w.pa == pa / 16 * 16) || (wake true && w.pa == pa / 16 * 16 + 8)) then { w with got := some new }
      else w) }

/-- A store performed: the granule at `pa` becomes `g` for a store by core `core` and berth `b`; check bytes are
recomputed, collector bits kept, copies invalidated and waiters filled (02 R20, R28; 10 R230, R241; 05 R107). -/
def State.perform (s : State) (core b pa : Nat) (m : MGran) (g : Gran) : State :=
  ((s.touchWrite (shedOfCore core) core b (pa / 64) (pa / 16 % 4)).writePA pa (m.setGran g)).fillWaiters pa m.g g

end Sys2Proof.Machine
end

