-- ==== Sys2Proof/Machine/Translate.lean ====
section
/-!
DEFINITION. Translation of berth-virtual addresses (chapter 11): block registers, walks, physical ranges and the
translation caches.
-/

namespace Sys2Proof.Machine

/-- 11 R262: the value a register of a berth's page has at reset, by key berth·1024 + offset. -/
def xlDefault (k : Nat) : Word64 :=
  match k with
  | 0x000 | 0x100 => 0x802E_0000_0000_0000
  | 0x200 | 0x240 => 0x8000_0000_0000_0000
  | 0x208 | 0x248 => 0x0000_4000_0000_0000
  | _ => 0

/-- A register of a berth's page (11 Table 11.7), block registers and ranges. -/
def State.xreg (s : State) (b off : Nat) : Nat := (SMap.get xlDefault s.xl (b * 1024 + off)).toNat
def State.setXreg (s : State) (b off : Nat) (v : Word64) : State := { s with xl := SMap.set xlDefault s.xl (b * 1024 + off) v }

/-- A block register's fields (11 Tables 11.1 and 11.2). -/
structure Blk where
  valid : Bool
  walked : Bool
  size : Nat
  vbase : Nat
  target : Nat
  deriving DecidableEq, Repr

/-- Read block register `n` at page offset `base` (0 staged, 0x100 applied). -/
def State.blk (s : State) (base b n : Nat) : Blk :=
  let c := s.xreg b (base + 16 * n)
  let t := s.xreg b (base + 8 + 16 * n)
  { valid := nbit c 63, walked := nbit c 62, size := nbits c 53 48, vbase := nbits c 47 21 * 2 ^ 21, target := nbits t 51 12 * 4096 }

/-- Physical range `r` at page offset `base` (0x200 staged, 0x240 applied): valid, base, top (11 Table 11.6). -/
def State.prange (s : State) (base b r : Nat) : Bool × Nat × Nat :=
  let lo := s.xreg b (base + 16 * r)
  (nbit lo 63, nbits lo 51 21 * 2 ^ 21, nbits (s.xreg b (base + 8 + 16 * r)) 51 21 * 2 ^ 21)

/-- 11 R258: usable. -/
def prUsable (p : Bool × Nat × Nat) : Bool := p.1 && decide (p.2.1 < p.2.2) && decide (p.2.2 ≤ 2 ^ 46)

/-- Whether [lo, hi) lies within one usable range at page offset `base`. -/
def State.inPrange (s : State) (base b lo hi : Nat) : Bool :=
  (upTo 4).any (fun r => let p := s.prange base b r; prUsable p && decide (p.2.1 ≤ lo) && decide (hi ≤ p.2.2))

/-- The first applied valid block that covers an address, from block `n`, `k` blocks left (11 R252). -/
def State.findBlk (s : State) (b va : Nat) : Nat → Nat → Option (Nat × Blk)
  | 0, _ => none
  | k + 1, n =>
    let x := s.blk 0x100 b n
    if x.valid && decide (x.vbase ≤ va) && decide (va < x.vbase + 2 ^ x.size) then some (n, x) else State.findBlk s b va k (n + 1)

/-- A fault of translation: its cause (6 or 7), its subcode and the level at which a walk stopped (11 R256). -/
structure TFault where
  cause : Nat
  subcode : Nat
  level : Nat := 0
  deriving DecidableEq, Repr

/-- What a translation found: the physical address of the address asked for, and the mapping it lies in. -/
structure Mapping where
  pa : Nat
  blk : Nat
  vbase : Nat
  size : Nat
  pbase : Nat
  deriving DecidableEq, Repr

/-- Number of levels of a walked block (11 R254). -/
def walkLevels (n : Nat) : Nat := (n - 12 + 8) / 9

/-- Key of a translation cache, and of the walk cache behind it (11 R265). -/
def unitKey : TlbUnit → Nat
  | .core c => c
  | .compass => 256
  | .groom k => 257 + k
  | .stable k => 273 + k
def unitWalker : TlbUnit → Nat
  | .core c => c / 16
  | .compass => 16
  | .groom k => k
  | .stable k => k

/-- The shed whose hayloft a unit's accesses go through; the compass reads through the home agents. -/
def unitShed : TlbUnit → Nat
  | .core c => c / 16
  | .compass => 0
  | .groom k => k
  | .stable k => k

/-- Entries of a translation cache (11 R263, R265). -/
def unitEntries : TlbUnit → Nat
  | .core _ => 128
  | .compass => 256
  | _ => 32

def State.tlb (s : State) (u : TlbUnit) : List TlbEntry := SMap.get (fun _ => []) s.tlbs (unitKey u)
def State.setTlb (s : State) (u : TlbUnit) (l : List TlbEntry) : State := { s with tlbs := SMap.set (fun _ => []) s.tlbs (unitKey u) l }
def State.wcache (s : State) (w : Nat) : List WalkEntry := SMap.get (fun _ => []) s.walkc w
def State.setWcache (s : State) (w : Nat) (l : List WalkEntry) : State := { s with walkc := SMap.set (fun _ => []) s.walkc w l }

/-- 11 R263: a translation that completes fills the cache; a full cache loses the entry `Config.tlbVictim` names. -/
def State.fillTlb (s : State) (u : TlbUnit) (e : TlbEntry) : State :=
  let l := s.tlb u
  let l := if l.length < unitEntries u then l else listDel l (Config.tlbVictim s.fresh % unitEntries u)
  { s.setTlb u (l ++ [e]) with fresh := s.fresh + 1 }

/-- A granule read by a unit: through its shed's hayloft, which takes the line (10 R228, R230), or, for the compass, at the home agent, which a
hayloft that holds the line in M serves (11 R256). -/
def State.readVia (s : State) (u : TlbUnit) (b pa : Nat) : State × Except Nat MGran :=
  let r := s.readPA (unitShed u) pa
  match r.2 with
  | .error _ => r
  | .ok _ =>
    match u with
    | .compass =>
      let s1 := r.1.portRead 0 (pa / 64) (pa / 16 % 4)
      (if s1.dirty (pa / 64) then s1.shareOthers nSheds (pa / 64) else s1, r.2)
    | _ => (r.1.touchRead (unitShed u) b (pa / 64) (pa / 16 % 4), r.2)

/-- A walk from table `t` at level `k` (11 R254), `k + 1` levels to go; the states read through it. -/
def State.walkFrom (s : State) (u : TlbUnit) (b va : Nat) (n : Nat) (x : Blk) : Nat → Nat → State × Except TFault (Nat × Nat)
  | 0, _ => (s, .error ⟨7, 3, 0⟩)
  | k + 1, t =>
    let w := min x.size (21 + 9 * k) - 12 - 9 * k
    let idx := va / 2 ^ (12 + 9 * k) % 2 ^ w
    let p := t + 8 * idx
    if p ≥ 2 ^ 46 then (s, .error ⟨7, 1, k⟩)
    else if !s.inPrange 0x240 b p (p + 8) then (s, .error ⟨7, 2, k⟩)
    else
      let r := s.readVia u b (p / 16 * 16)
      match r.2 with
      | .error _ => (r.1, .error ⟨7, 5, k⟩)
      | .ok m =>
        let e := m.g.word (p % 16 == 8)
        let v := e.val.toNat
        let base := nbits v 51 12 * 4096
        let sz := 12 + 9 * k
        if !(e.tag == tagRAW || e.tag == tagFIX) then (r.1, .error ⟨7, 4, k⟩)
        else if !nbit v 0 then (r.1, .error ⟨6, 2, k⟩)
        else if nbits v 63 52 != 0 || nbits v 11 2 != 0 then (r.1, .error ⟨7, 3, k⟩)
        else if nbit v 1 then
          if base % 2 ^ sz != 0 then (r.1, .error ⟨7, 3, k⟩)
          else if base + 2 ^ sz > 2 ^ 46 then (r.1, .error ⟨7, 1, k⟩)
          else if !r.1.inPrange 0x240 b base (base + 2 ^ sz) then (r.1, .error ⟨7, 2, k⟩)
          else (r.1, .ok (base, sz))
        else if k = 0 then (r.1, .error ⟨7, 3, k⟩)
        else
          let ent : WalkEntry := ⟨b, n, k, va / 2 ^ (12 + 9 * k), base⟩
          let c := (r.1.wcache (unitWalker u)).filter (· != ent) ++ [ent]
          State.walkFrom (r.1.setWcache (unitWalker u) (c.drop (c.length - 64))) u b va n x k base

/-- 11 R265: the deepest walk-cache entry that matches, trying `k` levels from `lev` up. -/
def walkHit (l : List WalkEntry) (b va n : Nat) : Nat → Nat → Option WalkEntry
  | 0, _ => none
  | k + 1, lev =>
    match l.find? (fun e => e.berth == b && e.blk == n && e.level == lev && e.vhi == va / 2 ^ (12 + 9 * lev)) with
    | some e => some e
    | none => walkHit l b va n k (lev + 1)

/-- Where a walk starts: below the entry that matches, which becomes the most recently used, else at the top table. Answers the
levels to go, the table and the walk cache. -/
def walkStart (l : List WalkEntry) (b va n : Nat) (x : Blk) : Nat × Nat × List WalkEntry :=
  match walkHit l b va n (walkLevels x.size - 1) 1 with
  | some e => (e.level, e.table, l.filter (· != e) ++ [e])
  | none => (walkLevels x.size, x.target, l)

/-- Counters of a walk (11 Table 11.7, WALKS and WALK_FAULTS: saturating 64-bit registers). -/
def State.countWalk (s : State) (b : Nat) (faulted : Bool) : State :=
  let p := s.xpage b
  s.setXpage b { p with walks := satAdd 64 p.walks 1, walkFaults := satAdd 64 p.walkFaults (b2n faulted) }

/-- A translation that misses the cache: from a direct block, or by a walk (11 R253, R254, R263). It fills nothing. -/
def State.resolve (s : State) (u : TlbUnit) (b va : Nat) : State × Except TFault Mapping :=
  match s.findBlk b va 16 0 with
  | none => (s, .error ⟨6, 1, 0⟩)
  | some (n, x) =>
    if x.walked then
      let st := walkStart (s.wcache (unitWalker u)) b va n x
      let s := s.setWcache (unitWalker u) st.2.2
      let r := s.walkFrom u b va n x st.1 st.2.1
      match r.2 with
      | .error f => (({ r.1 with walkc := s.walkc } : State).countWalk b true, .error f)
      | .ok (base, sz) => (r.1.countWalk b false, .ok ⟨base + va % 2 ^ sz, n, va / 2 ^ sz * 2 ^ sz, sz, base⟩)
    else (s, .ok ⟨x.target + (va - x.vbase), n, x.vbase, x.size, x.target⟩)

/-- 11 R263, R264: the entry a lookup uses. -/
def tlbHit (l : List TlbEntry) (b va : Nat) : Option TlbEntry :=
  l.find? (fun e => e.berth == b && decide (e.vbase ≤ va) && decide (va < e.vbase + 2 ^ e.size))

/-- Translate for a unit: a hit, or a miss that fills where it completes. -/
def State.translate (s : State) (u : TlbUnit) (b va : Nat) : State × Except TFault Nat :=
  match tlbHit (s.tlb u) b va with
  | some e => (s, .ok (e.pbase + (va - e.vbase)))
  | none =>
    let r := s.resolve u b va
    match r.2 with
    | .error f => (r.1, .error f)
    | .ok m => (r.1.fillTlb u ⟨b, m.blk, m.vbase, m.size, m.pbase⟩, .ok m.pa)

/-- 11 R266: what ALL and ADDR drop of a berth. -/
def State.dropTranslations (s : State) (b : Nat) (va : Option Nat) : State :=
  let keep (e : TlbEntry) : Bool :=
    e.berth != b || (match va with | none => false | some v => !(decide (e.vbase ≤ v) && decide (v < e.vbase + 2 ^ e.size)))
  { s with
    tlbs := s.tlbs.filterMap (fun e => let l := e.2.filter keep; if l.isEmpty then none else some (e.1, l)),
    walkc := s.walkc.filterMap (fun e => let l := e.2.filter (fun x => x.berth != b); if l.isEmpty then none else some (e.1, l)) }

end Sys2Proof.Machine
end

