-- ==== Sys2Proof/Machine/Heap.lean ====
section
/-!
DEFINITION. The heap as loads and stores meet it (chapter 12): segments, phases, rebasing and the barriers of Table 12.6.
-/

namespace Sys2Proof.Machine

/-- Index of a berth's entries. -/
abbrev berthIdx (b : Nat) : Nat := 0x3100 + b

/-- Causes (07 Table 7.6). -/
abbrev cILLEGAL : Nat := 0
abbrev cPRIV : Nat := 1
abbrev cMISALIGNED : Nat := 2
abbrev cBUS : Nat := 3
abbrev cTAG : Nat := 4
abbrev cCAP : Nat := 5
abbrev cTRANS : Nat := 6
abbrev cWALK : Nat := 7
abbrev cFPU : Nat := 8
abbrev cFPTRAP : Nat := 9
abbrev cGENERIC : Nat := 10
abbrev cOVERFLOW : Nat := 11
abbrev cDIVZERO : Nat := 12
abbrev cQUOTA : Nat := 13
abbrev cBREAK : Nat := 14
abbrev cSVC : Nat := 15
abbrev cGATE : Nat := 16
abbrev cREFUSED : Nat := 17
abbrev cLATE : Nat := 24
abbrev cTIMER : Nat := 25
abbrev cBERTH : Nat := 26
abbrev cDOUBLE : Nat := 32

/-- CAUSEINFO (07 Table 7.5). -/
def Exc.info64 (e : Exc) : Word64 :=
  w64 (e.count % 2 ^ 16 * 2 ^ 48 + e.tagb % 256 * 2 ^ 40 + e.taga % 256 * 2 ^ 32 + e.slot % 8 * 2 ^ 29 + e.info % 32 * 2 ^ 24 +
    e.subcode % 256 * 2 ^ 16 + b2n e.remote * 2 ^ 15 + b2n e.async * 2 ^ 14 + e.cause % 64)

/-- 16 R375: an event joins a berth's queue of 32, or is counted in EVQ_LOST. -/
def State.berthEvent (s : State) (b code : Nat) (w0 w1 : Word64) : State :=
  if (s.berth b).events.length < 32 then s.updBerth b (fun x => { x with events := x.events ++ [⟨code, w0, w1⟩] })
  else s.bump (berthIdx b) 0x16 32 1

/-- The heap is enabled (12 R295). -/
def State.heapOn (s : State) (b : Nat) : Bool := s.app (berthIdx b) 0x40 == 1
def State.heapBase (s : State) (b : Nat) : Nat := s.app (berthIdx b) 0x41
def State.heapSize (s : State) (b : Nat) : Nat := s.app (berthIdx b) 0x42
/-- Number of segments, and of metadata segments (12 R269, R270). -/
def State.segCount (s : State) (b : Nat) : Nat := s.heapSize b / 2 ^ 21
def State.metaSegs (s : State) (b : Nat) : Nat := (s.segCount b + 255) / 256

/-- GC_PHASE fields (12 Table 12.5). -/
def State.minorPhase (s : State) (b : Nat) : Nat := s.ent (berthIdx b) 0x53 / 16
def State.oldPhase (s : State) (b : Nat) : Nat := s.ent (berthIdx b) 0x53 % 16
def State.setPhase (s : State) (b minor old : Nat) : State := s.setEnt (berthIdx b) 0x53 (minor * 16 + old)

/-- 12 R278: the branch conditions, while the heap is enabled; SWEEP holds whether or not it is (12 R287). -/
def State.marking (s : State) (b : Nat) : Bool := s.heapOn b && (s.minorPhase b == 1 || s.oldPhase b == 2)
def State.evacuating (s : State) (b : Nat) : Bool :=
  s.heapOn b && (s.minorPhase b == 2 || s.minorPhase b == 3 || s.oldPhase b == 3 || s.oldPhase b == 4)
def State.sweeping (s : State) (b : Nat) : Bool := s.oldPhase b == 5

/-- The heap segment a berth-virtual address lies in. -/
def State.segOf (s : State) (b va : Nat) : Option Nat :=
  if s.heapOn b && decide (s.heapBase b ≤ va) && decide (va < s.heapBase b + s.heapSize b) then some ((va - s.heapBase b) / 2 ^ 21)
  else none

/-- A granule at a berth-virtual address through an engine's translation: its physical address and content. -/
def State.engRead (s : State) (u : TlbUnit) (b va : Nat) : State × Option (Nat × MGran) :=
  let r := s.translate u b va
  match r.2 with
  | .error _ => (r.1, none)
  | .ok pa =>
    let m := r.1.readVia u b (pa / 16 * 16)
    match m.2 with
    | .error _ => (m.1, none)
    | .ok g => (m.1, some (pa / 16 * 16, g))

/-- SEGINFO of a segment as memory holds it (12 Tables 12.1 and 12.2); 0 where it cannot be reached. -/
def State.seginfo (s : State) (b seg : Nat) : Nat :=
  match (s.resolve (.groom 0) b (s.heapBase b + 8192 * seg)).2 with
  | .ok m => if (s.verAt m.pa).isSome then (s.rawAt (m.pa / 16 * 16)).g.lo.val.toNat else 0
  | .error _ => 0

def siState (v : Nat) : Nat := nbits v 63 60
def siVer (v : Nat) : Nat := nbits v 59 56
def siOwner (v : Nat) : Nat := nbits v 55 52
def siPin (v : Nat) : Bool := nbit v 51
def siFrom (v : Nat) : Bool := nbit v 50
def siLive (v : Nat) : Nat := nbits v 17 0
def mkSeginfo (st ver owner : Nat) (pin fromSet : Bool) (live : Nat) : Nat :=
  st * 2 ^ 60 + ver * 2 ^ 56 + owner * 2 ^ 52 + b2n pin * 2 ^ 51 + b2n fromSet * 2 ^ 50 + live % 2 ^ 18

/-- A count of ANOMALIES, 16 bits saturating, from bit `sh` (12 Table 12.7). -/
def State.anomaly (s : State) (b sh n : Nat) : State :=
  let v := s.ent (berthIdx b) 0x5E
  let c := v / 2 ^ sh % 65536
  s.setEnt (berthIdx b) 0x5E (v + (min 65535 (c + n) - c) * 2 ^ sh)

/-- 12 R269: the collector of a berth halts: the old phase becomes OFF and the berth hears of it, once. -/
def State.haltGc (s : State) (b va : Nat) (e : Exc) : State :=
  if (s.berth b).halted then s
  else ((s.updBerth b (fun x => { x with halted := true })).setPhase b (s.minorPhase b) 0).berthEvent b 0x03 (w64 va) e.info64

/-- The engine whose work an address of a berth is (12 R271): that of the shed that owns its segment, or the segment whose block it lies in.
DESIGN CHOICE (log entry 101): for an address outside the heap, and for an isolated shed's segments, which R294 gives to the rest without
saying to which, it is the lowest shed in service. -/
def State.engUnit (s : State) (b va : Nat) : TlbUnit :=
  let low := ((upTo nSheds).find? (fun k => !(s.shed k).isolated)).getD 0
  match s.segOf b va with
  | none => .groom low
  | some g =>
    let own := siOwner (s.seginfo b (if g < s.metaSegs b then (va - s.heapBase b) / 8192 else g))
    .groom (if (s.shed own).isolated then low else own)

/-- An engine's read of a granule of the berth (12 R269): a fault halts the collector, and an uncorrectable granule is counted. -/
def State.engHeap (s : State) (b va : Nat) : State × Option (Nat × MGran) :=
  let u := s.engUnit b va
  let r := s.translate u b va
  match r.2 with
  | .error f => (r.1.haltGc b va { cause := f.cause, subcode := f.subcode, info := f.level, faddr := w64 va }, none)
  | .ok pa =>
    let m := r.1.readVia u b (pa / 16 * 16)
    match m.2 with
    | .error e => ((if e = beNOTARGET then m.1 else m.1.anomaly b 16 1).haltGc b va { cause := cBUS, subcode := e, faddr := w64 va }, none)
    | .ok g => (m.1, some (pa / 16 * 16, g))

/-- SEGINFO as an engine reads it. -/
def State.readInfo (s : State) (b seg : Nat) : State × Nat :=
  let r := s.engHeap b (s.heapBase b + 8192 * seg)
  (r.1, match r.2 with | some (_, m) => m.g.lo.val.toNat | none => 0)

/-- The engine's access to entry `i` of a berth's export and import tables (12 R288): 32 bytes at XTAB_BASE, export table first. Their
layout is not stated; the tables' content is held in the berth. -/
def State.tableTouch (s : State) (b i : Nat) : State :=
  let va := s.app (berthIdx b) 0x46 + 32 * i
  ((s.engHeap b va).1.engHeap b (va + 16)).1

/-- Segment states (12 Table 12.3) by generation. -/
def segYoung (st : Nat) : Bool := st == 1 || st == 2
def segOld (st : Nat) : Bool := 3 ≤ st && st ≤ 6

/-- 12 Table 12.6: the barriers concern capabilities to the berth's heap on this node. -/
def State.heapCap (s : State) (b : Nat) (g : Gran) : Bool :=
  let c := Cap.ofGran g
  g.isCap && s.isLocal c.node && (s.segOf b (16 * c.base)).isSome

/-- Append to the berth's collector log (12 R283). -/
def State.logCap (s : State) (b : Nat) (g : Gran) : State := s.updBerth b (fun x => { x with log := x.log ++ [g] })

/-- Whether the granule at a heap address is marked in its segment's current epoch (12 R277); one that cannot be read halts the collector
and counts as marked. -/
def State.readMarked (s : State) (b va : Nat) : State × Bool :=
  match s.segOf b va with
  | none => (s, true)
  | some g =>
    let i := s.readInfo b g
    let e := if segYoung (siState i.2) then (s.berth b).nEpoch else (s.berth b).oEpoch
    let m := i.1.engHeap b va
    (m.1, match m.2 with | some (_, x) => x.mark.toNat == e | none => true)

/-- A capability to the heap is logged where `on` holds and it is unmarked. -/
def State.logUnmarked (s : State) (b : Nat) (on : Bool) (g : Gran) : State :=
  if on && s.heapCap b g then
    let m := s.readMarked b (16 * (Cap.ofGran g).base)
    if m.2 then m.1 else m.1.logCap b g
  else s

/-- 12 R282: a capability rebased by a distance `d` in granules, with the VER of the copy's segment. -/
def capRebase (c : Cap) (d : Int) (ver : Nat) : Cap :=
  let base := (c.base + d).toNat
  let top := (c.top + d).toNat
  { c.encBounds c.e base top with addr := ((c.addr : Int) + 16 * d).toNat % 2 ^ 48, ver := ver }

/-- A capability rebased by the granule at its base, where that is a forwarding granule. -/
def rebaseFrom (m : MGran) (g : Gran) : Gran :=
  if m.g.isFwd then
    let f := Cap.ofGran m.g
    (capRebase (Cap.ofGran g) ((f.addr / 16 : Int) - (Cap.ofGran g).base) f.ver).toGran
  else g

/-- A capability into the from-set, rebased by the forwarding granule at its base; any other capability unchanged
(12 Table 12.6, R284, R285). -/
def State.rebased (s : State) (b : Nat) (g : Gran) : State × Gran :=
  if s.evacuating b && s.heapCap b g then
    let r := s.engHeap b (16 * (Cap.ofGran g).base)
    (r.1, match r.2 with | some (_, m) => rebaseFrom m g | none => g)
  else (s, g)

/-- A core that is none: an engine's write leaves no L1 copy. -/
abbrev noCore : Nat := nCores

/-- Set the card bit of a heap slot (12 Table 12.1). -/
def State.setCard (s : State) (b va : Nat) : State :=
  match s.segOf b va with
  | none => s
  | some seg =>
    let card := (va - s.heapBase b) % 2 ^ 21 / 512
    let byte := s.heapBase b + 8192 * seg + 0x40 + card / 8
    let r := s.engHeap b (byte / 16 * 16)
    match r.2 with
    | none => r.1
    | some (pa, m) =>
      let hi := byte % 16 ≥ 8
      let w := m.g.word hi
      (r.1.touchWrite (unitShed (s.engUnit b byte)) noCore b (pa / 64) (pa / 16 % 4)).writePA pa
        (m.setGran (m.g.setWord hi ⟨w.tag, w.val ||| (1#64 <<< (byte % 8 * 8 + card % 8))⟩))

/-- The card bit of a slot is set where the slot is old and the capability stored is young. -/
def State.cardBarrier (s : State) (b va : Nat) (new : Gran) : State :=
  match s.segOf b va, s.segOf b (16 * (Cap.ofGran new).base) with
  | some old, some young =>
    if s.heapCap b new then
      let o := s.readInfo b old
      let y := o.1.readInfo b young
      if segOld (siState o.2) && segYoung (siState y.2) then y.1.setCard b va else y.1
    else s
  | _, _ => s

/-- The first row of Table 12.6, for a capability `new` stored at `va` over granule `old`: the state with its logs and card
bits, and the granule to store. `unscanned` says that the storing context's roots are not scanned; `home` is the home side
of a remote operation, which never logs the stored capability for that (12 R286). -/
def State.storeBarrier (s : State) (b va : Nat) (old new : Gran) (unscanned home : Bool) : State × Gran :=
  let n := s.rebased b new
  let s1 := (n.1.logUnmarked b (s.marking b) old).logUnmarked b (s.marking b && !home && unscanned) n.2
  let s2 := s1.cardBarrier b va n.2
  (if s.sweeping b && n.2.isCap && (Cap.ofGran n.2).ver != 0 then s2.logCap b n.2 else s2, n.2)

/-- Whether a store needs a routine for its barrier (09 Table 9.7): a capability over an unmarked one while marking, or a young capability
into an old slot. -/
def State.barrierNeeded (s : State) (b va : Nat) (old new : Gran) : Bool :=
  (s.marking b && s.heapCap b old && !(s.readMarked b (16 * (Cap.ofGran old).base)).2) ||
    (match s.segOf b va, s.segOf b (16 * (Cap.ofGran new).base) with
      | some o, some y => s.heapCap b new && segOld (siState (s.seginfo b o)) && segYoung (siState (s.seginfo b y))
      | _, _ => false)

/-- The second row: a word stored over a granule. -/
def State.wordBarrier (s : State) (b : Nat) (old : Gran) : State := s.logUnmarked b (s.marking b) old

end Sys2Proof.Machine
end

