-- ==== Sys2Proof/Machine/Context.lean ====
section
/-!
DEFINITION. Contexts (chapter 08): CAUSEINFO and the berth event queue, creation (R192, Table 8.8), destruction (R194),
the ready queues, and the stall reset (07 R162, R163).
-/

namespace Sys2Proof.Machine

/-- The low word of a refused register's slot (08 R178): CAUSE, SUBCODE, REMOTE, INFO, TAGA and TAGB. -/
def Exc.refusal (e : Exc) : Gran := ⟨TWord.raw (({ e with slot := 0, count := 0, async := false } : Exc).info64), TWord.raw e.faddr⟩

/-- The exception a refused register's slot stands for (07 R151). -/
def Exc.ofRefusal (g : Gran) : Exc :=
  let v := g.lo.val.toNat
  { cause := nbits v 5 0, subcode := nbits v 23 16, info := nbits v 28 24, taga := nbits v 39 32, tagb := nbits v 47 40,
    remote := nbit v 15, faddr := g.hi.val, fcap := Gran.ofWord (TWord.raw g.hi.val) }

/-- 16 Table 16.5: records held by living contexts of a berth, and contexts resident in a shed. -/
def State.recordsUse (s : State) (b : Nat) : Nat := (s.records.filter (fun e => e.2.rstate != .free && stBerth e.2.status == b)).length
def State.resident (s : State) (shed b : Nat) : Nat :=
  (s.stalls.filter (fun e => shedOf e.1 == shed && !isS63 e.1 && e.2.cid.isSome && stBerth e.2.status == b)).length

/-- 08 R184: a record joins the tail of its berth's ready queue. -/
def State.enqueue (s : State) (rn : Nat) : State :=
  s.updShed (rn / 2 ^ 14) (fun h => { h with ready := h.ready.filter (fun e => e.2 != rn) ++ [(stBerth (s.record rn).status, rn)] })

/-- 08 R182: a READY record moves to the head of its queue. -/
def State.boost (s : State) (rn : Nat) : State :=
  s.updShed (rn / 2 ^ 14) (fun h => { h with ready := (stBerth (s.record rn).status, rn) :: h.ready.filter (fun e => e.2 != rn) })

/-- 08 R183: whether a parked record becomes READY. -/
def Record.isReady (r : Record) (time : Nat) : Bool :=
  (r.block == 0 && r.wcond != 6 && r.wcond != 5) || (r.wcond == 6 && (r.timer == 0 || decide (r.timer.toNat ≤ time))) ||
    r.wcond == 5 || r.lsep || (stIE r.status && (r.timp || r.bevp))

/-- A parked record that meets R183 becomes READY and joins its queue. -/
def State.wakeRecord (s : State) (rn : Nat) : State :=
  let r := s.record rn
  if r.rstate == .parked && r.isReady s.time then (s.setRecord rn { r with rstate := .ready }).enqueue rn else s

/-- The lowest free record of a shed, `n` left from index `i` (08 R168); GEN never takes 0x3FFF. -/
def State.freeRecordFrom (s : State) (shed : Nat) : Nat → Nat → Option Nat
  | 0, _ => none
  | n + 1, i =>
    if (s.record (shed * 2 ^ 14 + i)).rstate == .free then some (shed * 2 ^ 14 + i) else State.freeRecordFrom s shed n (i + 1)
def State.freeRecord (s : State) (shed : Nat) : Option Nat := if (s.shed shed).isolated then none else s.freeRecordFrom shed 16384 0

/-- Free records of a shed. -/
def State.freeCount (s : State) (shed : Nat) : Nat :=
  16384 - (s.records.filter (fun e => e.1 / 2 ^ 14 == shed && e.2.rstate != .free)).length

/-- READY records of a berth in a shed. -/
def State.readyCount (s : State) (shed b : Nat) : Nat := ((s.shed shed).ready.filter (fun e => e.1 == b)).length

/-- 08 R192, SUB[0] = 1: among the sheds with a free record, the one with the fewest READY records of the berth. -/
def State.farShed (s : State) (b : Nat) : Option Nat :=
  (upTo 16).foldl (fun best k =>
    if (s.freeRecord k).isSome then
      match best with
      | none => some k
      | some j => if s.readyCount k b < s.readyCount j b then some k else some j
    else best) none

/-- Write one granule of a berth's memory directly: the frame writes of creation, parks and destruction. -/
def State.putVA (s : State) (u : TlbUnit) (b va : Nat) (f : MGran → MGran) : State :=
  match s.engRead u b va with
  | (s', some (pa, m)) => (s'.touchWrite (unitShed u) noCore b (pa / 64) (pa / 16 % 4)).writePA pa (f m)
  | (s', none) => s'

/-- A granule of two RAW words. -/
def rawGran (lo hi : Word64) : Gran := ⟨TWord.raw lo, TWord.raw hi⟩

/-- What a new context starts with (08 Table 8.8). -/
structure NewCtx where
  base : Nat
  ver : Nat
  pcc : Gran
  status : Word64
  regs : List (Nat × Gran)
  stackPerms : BitVec 12
  entries : List Gran := []
  vbaseS : Gran := Gran.zero
  vbaseY : Gran := Gran.zero
  fstatus : Nat := 0
  deriving DecidableEq, Repr

/-- The FRAME capability and G31 of a new context (08 Table 8.8). -/
def NewCtx.frameCap (c : NewCtx) : Gran := (Cap.exact 0xFFFF c.base 0xDC0 kFRAME c.ver (c.base / 16) (c.base / 16 + 64)).toGran
def NewCtx.stackCap (c : NewCtx) : Gran :=
  (Cap.exact 0xFFFF (c.base + 0x1000) (c.stackPerms &&& 0xDC4) kSTACK c.ver (c.base / 16 + 64) (c.base / 16 + 256)).toGran

/-- The slot at frame offset 16·i of a new context (08 Table 8.6). -/
def NewCtx.slot (c : NewCtx) (i : Nat) : Gran :=
  if i = 31 then c.stackCap
  else if i < 32 then (match c.regs.find? (fun e => e.1 == i && i != 0) with | some e => e.2 | none => Gran.zero)
  else if i = 0x28 then rawGran (w64 c.fstatus) 0
  else if i = 0x2E then c.vbaseS
  else if i = 0x2F then c.vbaseY
  else if 0x30 ≤ i ∧ i < 0x38 then (listAt c.entries (i - 0x30)).getD Gran.zero
  else Gran.zero

/-- Change a whole granule or its collector bits at a berth-virtual address, whatever its check code reads as (02 R29, R33); no state where
the address does not translate or its unit is not ready. -/
def State.rawPut? (s : State) (u : TlbUnit) (b va : Nat) (f : MGran → MGran) : State × Bool :=
  let r := s.translate u b va
  match r.2 with
  | .error _ => (r.1, false)
  | .ok pa0 =>
    let pa := pa0 / 16 * 16
    if (r.1.verAt pa).isNone then (r.1, false)
    else ((r.1.touchWrite (unitShed u) noCore b (pa / 64) (pa / 16 % 4)).writePA pa (f (r.1.rawAt pa)), true)
def State.rawPut (s : State) (u : TlbUnit) (b va : Nat) (f : MGran → MGran) : State := (s.rawPut? u b va f).1

/-- Where an access of a unit at a granule lands: at its forward's target, if it is a forwarding granule, with the forward's VER (12 R284). -/
def State.forwardOf (s : State) (u : TlbUnit) (b va : Nat) : State × Nat × Option Nat :=
  let r := s.translate u b va
  match r.2 with
  | .error _ => (r.1, va, none)
  | .ok pa =>
    let m := r.1.readVia u b (pa / 16 * 16)
    (m.1, match m.2 with
      | .ok x => if x.g.isFwd then ((Cap.ofGran x.g).addr / 16 * 16, some (Cap.ofGran x.g).ver) else (va, none)
      | .error _ => (va, none))

/-- `rawPut?` of a frame region's granule: a forwarding granule is followed. -/
def State.regionPut (s : State) (u : TlbUnit) (b va : Nat) (f : Option Nat → MGran → MGran) : State × Bool :=
  let r := s.forwardOf u b va
  r.1.rawPut? u b r.2.1 (f r.2.2)

/-- Create a context in record `rn` (08 R192): every granule of the 4 KiB region takes VER `ver`, the frame is built, the
record becomes READY and joins its queue. Its callers have found every granule of the region in reach; the Bool is false where
memory fails nevertheless (09 R209). -/
def State.create (s : State) (u : TlbUnit) (rn : Nat) (c : NewCtx) : State × Bool :=
  let b := stBerth c.status
  let r := (upTo 256).foldl (fun (a : State × Bool) i =>
    let p := a.1.regionPut u b (c.base + 16 * i) (fun _ m =>
      let m := { m with ver := BitVec.ofNat 4 c.ver }
      if i < 64 then m.setGran (c.slot i) else m)
    (p.1, a.2 && p.2)) (s, true)
  let x : Record :=
    { pcc := c.pcc, frame := c.frameCap, status := c.status, gen := (s.record rn).gen, rstate := .ready, preds := 1 }
  ((r.1.setRecord rn x).enqueue rn, r.2)

/-- 08 R168: the generation after one more destruction. -/
def nextGen (g : Nat) : Nat := if g ≥ 0x3FFE then 0 else g + 1

/-- 08 R194 step 4: advance the region's granules that are at the frame's VER. -/
def State.retireRegion (s : State) (shed b : Nat) (frame : Gran) : State :=
  if frame.isCap then
    let c := Cap.ofGran frame
    (upTo 256).foldl (fun s i =>
      (s.regionPut (.stable shed) b (16 * c.base + 16 * i) (fun fwd m => if m.ver.toNat == fwd.getD c.ver then { m with ver := m.ver + 1 } else m)).1) s
  else s

/-- A stall whose context has left it: its own registers (DFSTACK, WINSEL, HALT) and the float state it holds stay. -/
def Stall.vacate (t : Stall) : Stall :=
  { t with cid := none, phase := .empty, pend := 0, refused := 0, inframe := 0, dirty := 0, rep := 0, repFirst := false,
           exc := none, entering := none, dfOrig := none, late := none, timp := false, holdAt := [], exiting := false, yielding := none,
           vzWait := none, vzGot := [], gpois := 0, fetched := [], scanned := false }

/-- The sequencers of a core (09 R199), and the one that runs a routine for a stall. -/
def Core.seqr (c : Core) (i : Nat) : Option Routine := if i = 0 then c.seqr0 else c.seqr1
def Core.setSeqr (c : Core) (i : Nat) (r : Option Routine) : Core := if i = 0 then { c with seqr0 := r } else { c with seqr1 := r }
def State.routine (s : State) (k : Nat) : Option Routine :=
  let c := s.core (coreOf k)
  match c.seqr0 with
  | some r => if r.stall = k then some r else c.seqr1.filter (fun r => r.stall == k)
  | none => c.seqr1.filter (fun r => r.stall == k)

/-- The routine of a stall ends or is abandoned (09 R206). -/
def State.dropRoutine (s : State) (k : Nat) : State :=
  s.updCore (coreOf k) (fun c => { c with seqr0 := c.seqr0.filter (fun r => r.stall != k), seqr1 := c.seqr1.filter (fun r => r.stall != k) })

/-- 08 R188: the float state of a destroyed context is discarded. -/
def Stall.dropFloat (t : Stall) (cid : Nat) : Stall :=
  if t.fowner = some cid then { t with fowner := none, fdirty := false } else t

/-- A CID that names no context, living or to come: what operations of a destroyed interrupt context carry (08 R169, R180: their results are
discarded and their slots released), and what a remote waiter's local entry carries. -/
abbrev noCid : Nat := 2 ^ 32

/-- The operations of an interrupt context that has ended: its local ones complete with their results discarded; its remote ones and its buffered
stores go on for no context (07 R162). -/
def State.orphan (s : State) (cid : Nat) : State :=
  { s with
    ops := s.ops.filter (fun o => o.cid != cid),
    slots := SMap.mapv (fun _ => none) (fun _ x => x.map (fun (y : Slot) => if y.cid = cid then { y with cid := noCid } else y)) s.slots,
    cores := SMap.mapv (fun _ => {}) (fun _ c => { c with buffer := c.buffer.map (fun x =>
      { x with stores := x.stores.map (fun b => { b with cids := b.cids.map (fun i => if i = cid then noCid else i) }) }) }) s.cores }

/-- 08 R194: destroy a context, whatever the cause; the stall that held it is returned. A read answered retry is sent no more (R181). -/
def State.destroy (s : State) (cid : Nat) : State :=
  let stall := s.stallOf cid
  let s := { s with waiters := s.waiters.filter (fun w => !(w.cid == cid && (match w.kind with | .remote _ => false | _ => true))),
                    ops := s.ops.filter (fun o => !(o.cid == cid && o.poll.isSome)),
                    stalls := SMap.mapv (fun _ => {}) (fun _ t => t.dropFloat cid) s.stalls }
  let s :=
    if isIntCid cid then s.orphan cid
    else
      let rn := cidRecord cid
      let r := s.record rn
      let b := stBerth r.status
      let s := s.retireRegion (rn / 2 ^ 14) b r.frame
      let s := s.setRecord rn { gen := nextGen r.gen, rstate := .free }
      let s := s.updBerth b (fun x => { x with pool := x.pool.filter (fun e => e.2 != cid) })
      s.updShed (rn / 2 ^ 14) (fun h => { h with ready := h.ready.filter (fun e => e.2 != rn) })
  match stall with
  | some k => (s.dropRoutine k).updStall k (fun t => (t.vacate).dropFloat cid)
  | none => s

/-- 07 R163: what a stall reset reports: an event to the berth, or the shed's error line for CEIL Y and S63. -/
def State.reportReset (s : State) (k : Nat) (status : Word64) (w1 : Word64) : State :=
  if stCEIL status ≥ 2 || isS63 k then s.raise { bit := shedOf k, kind := .contained, source := k, master := 1, berth := some (stBerth status) }
  else s.berthEvent (stBerth status) 0x01 (w64 (k * 2 ^ 32 + stPID status)) w1

/-- The stall a context's results go to: from the park cut on, none (08 R174). -/
def State.liveStall (s : State) (cid : Nat) : Option Nat :=
  match s.stallOf cid with
  | some k => if (s.stall k).phase == .running then some k else none
  | none => none

/-! ### Frames (08 Table 8.6) -/

/-- One granule of a frame at a berth-virtual address, with its version compared. -/
def State.frameStep (s : State) (shed b ver va : Nat) : State × Except Exc (Nat × MGran) :=
  let r := s.translate (.stable shed) b va
  match r.2 with
  | .error f => (r.1, .error { cause := f.cause, subcode := f.subcode, info := f.level })
  | .ok pa =>
    if !verOk ver (r.1.verAt pa) then (r.1, .error { cause := cCAP, subcode := cfVERSION })
    else
      let m := r.1.readVia (.stable shed) b (pa / 16 * 16)
      match m.2 with
      | .error e => (m.1, .error { cause := cBUS, subcode := e })
      | .ok g => (m.1, .ok (pa / 16 * 16, g))

/-- A frame slot through the FRAME capability (08 R187): its granule, or the fault met. A forwarding granule is followed, and the record's
FRAME capability rebased (12 R284). -/
def State.frameAt (s : State) (shed cid off : Nat) : State × Except Exc (Nat × MGran) :=
  let c := Cap.ofGran (s.record (cidRecord cid)).frame
  let b := s.berthOf cid
  let r := s.frameStep shed b c.ver (16 * c.base + off)
  match r.2 with
  | .error _ => r
  | .ok (_, m) =>
    if m.g.isFwd then
      let f := Cap.ofGran m.g
      let q := r.1.frameStep shed b f.ver (f.addr / 16 * 16)
      match q.2 with
      | .error _ => q
      | .ok _ => (q.1.updRecord (cidRecord cid) (fun x => { x with frame := (capRebase c ((f.addr / 16 : Int) - (c.base + off / 16 : Nat)) f.ver).toGran }), q.2)
    else r

/-- Write a frame slot. No barrier runs (12 Table 12.6). -/
def State.framePut (s : State) (shed cid off : Nat) (f : Gran → Gran) : State × Option Exc :=
  let r := s.frameAt shed cid off
  match r.2 with
  | .error e => (r.1, some e)
  | .ok (pa, m) => ((r.1.touchWrite shed noCore (s.berthOf cid) (pa / 64) (pa / 16 % 4)).writePA pa (m.setGran (f m.g)), none)

/-- Write several slots, to the first fault. -/
def State.framePuts (s : State) (shed cid : Nat) : List (Nat × (Gran → Gran)) → State × Option Exc
  | [] => (s, none)
  | (off, f) :: rest =>
    let r := s.framePut shed cid off f
    match r.2 with
    | some e => (r.1, some e)
    | none => r.1.framePuts shed cid rest

/-- The frame's copy of a float state: F0 to F15 and FSTATUS (08 R188). -/
def Stall.spillF (t : Stall) : List (Nat × (Gran → Gran)) :=
  (upTo 8).map (fun i => (0x200 + 16 * i, fun _ => ⟨t.getF (2 * i), t.getF (2 * i + 1)⟩)) ++ [(0x280, fun _ => rawGran (w64 t.fstatus) 0)]

/-! ### The stall reset (07 R162, R163) -/

/-- 07 R162: the stall reset: the context is destroyed, its pending events go with it, the stall is cleared under 04 R84 and returned. A
float state of another living context that the stall holds is written to that context's frame first, since no other context is affected;
where that write faults, its context is destroyed in its turn (08 R187). DEDUCED (log entry 102). -/
def State.stallResetN : Nat → State → Nat → Word64 → State
  | 0, s, k, w1 => ((match (s.stall k).cid with | some c => s.destroy c | none => s).updStall k (fun _ => {})).reportReset k (s.stall k).status w1
  | n + 1, s0, k, w1 =>
    let status := (s0.stall k).status
    let s := match (s0.stall k).cid with | some c => s0.destroy c | none => s0
    let t := s.stall k
    let s :=
      match t.fowner with
      | some d =>
        if t.fdirty && s.living d then
          let w := s.framePuts (shedOf k) d t.spillF
          match w.2 with
          | none => w.1
          | some e =>
            match w.1.stallOf d with
            | some j => State.stallResetN n w.1 j e.info64
            | none => (w.1.destroy d).reportReset k (w.1.statusOf d) e.info64
        else s
      | none => s
    (s.updStall k (fun _ => {})).reportReset k status w1
def State.stallReset (s : State) (k : Nat) (w1 : Word64) : State := s.stallResetN 1024 k w1

end Sys2Proof.Machine
end

