-- ==== Sys2Proof/Machine/Access.lean ====
section
/-!
DEFINITION. A stall's accesses to memory through capabilities: the checks of Table 7.7 ranks 9 to 14 (chapters 03, 05, 07),
forwarding (12 R284), loads, stores through the merging buffer, atomics, pushes and pops.
-/

namespace Sys2Proof.Machine

/-- A fault of a syllable, with its rank in Table 7.7. -/
structure Fail where
  rank : Nat
  exc : Exc
  deriving DecidableEq, Repr

/-- FADDR: NODE in bits 63:48, the address in bits 47:0 (07 Table 7.3). -/
def faddrOf (node : Nat) (va : Int) : Word64 := w64 (node % 2 ^ 16 * 2 ^ 48 + (va % (2 ^ 48 : Int)).toNat)

/-- A Capability Fault on an operand slot, no access (03 R62). -/
def capFail (rank sub info : Nat) (g : Gran) : Fail := ⟨rank, { cause := cCAP, subcode := sub, info := info, fcap := g }⟩

/-- A fault of an access through slot `g` at `va`. -/
def accFail (rank cause sub info : Nat) (g : Gran) (va : Int) : Fail :=
  ⟨rank, { cause := cause, subcode := sub, info := info, faddr := faddrOf (Cap.ofGran g).node va, fcap := g }⟩

/-- The first condition that fails. -/
def firstFail : List (Bool × Fail) → Except Fail Unit
  | [] => .ok ()
  | (ok, f) :: rest => if ok then firstFail rest else .error f

/-- 03 R46, R52: a slot used as an unsealed capability. -/
def useCap (g : Gran) : Except Fail Cap :=
  let c := Cap.ofGran g
  match firstFail [(g.isCap, capFail 9 cfVALID 0 g), (c.wf, capFail 9 cfFORM 0 g), (c.otype == 0, capFail 9 cfSEALED 0 g)] with
  | .ok _ => .ok c
  | .error f => .error f

/-- Checks of an access of `size` bytes at `va` through slot `g`: ranks 9 and 10 of Table 7.7. `perms` are the bits needed
in the order they are reported, `more` are checks of rank 9 that follow them; FADDR is 0 for VALID (07 R147). -/
def checkAccess (g : Gran) (va : Int) (size : Nat) (kindOk : Nat → Bool) (perms : List Nat) (more : List (Bool × Fail) := []) : Except Fail Cap :=
  let c := Cap.ofGran g
  let f (rank sub info : Nat) := accFail rank cCAP sub info g va
  match firstFail ([(g.isCap, capFail 9 cfVALID 0 g), (c.wf, f 9 cfFORM 0), (c.otype == 0, f 9 cfSEALED 0), (kindOk c.kind, f 9 cfKIND 0)] ++
      perms.map (fun p => (c.has p, f 9 cfPERM p)) ++ more ++
      [(va % (size : Int) == 0, accFail 10 cMISALIGNED 0 0 g va), (c.inBounds va size, f 10 cfBOUNDS 0)]) with
  | .ok _ => .ok c
  | .error e => .error e

/-- Where an access lands: the granule's physical and virtual address, what a read of it answers, its VER, and the rebased
capability where a forward was followed (12 R284). -/
structure Loc where
  pa : Nat
  va : Nat
  m : Except Nat MGran
  heal : Option Gran := none

/-- Translate for a stall's access, faults at rank 12 (11 R256). -/
def State.transData (s : State) (core b : Nat) (g : Gran) (va : Nat) : State × Except Fail Nat :=
  let r := s.translate (.core core) b va
  match r.2 with
  | .ok pa => (r.1, .ok pa)
  | .error f => (r.1, .error (accFail 12 f.cause f.subcode f.level g va))

/-- 07 Table 7.7 ranks 12 and 13 for the granule that holds `va`, the forward followed (12 R284: at the forward's ADDR plus the
offset in the granule): translation, VERSION. A bus error is left in the answer for the caller, since a store meets it later. -/
def State.land (s : State) (core b : Nat) (g : Gran) (va : Nat) : State × Except Fail Loc :=
  let c := Cap.ofGran g
  let t := s.transData core b g va
  match t.2 with
  | .error f => (t.1, .error f)
  | .ok pa0 =>
    let pa := pa0 / 16 * 16
    if !verOk c.ver (t.1.verAt pa) then (t.1, .error (accFail 13 cCAP cfVERSION 0 g va))
    else
      let r := t.1.readPA (shedOfCore core) pa
      match r.2 with
      | .error e => (r.1, .ok { pa := pa, va := va / 16 * 16, m := .error e })
      | .ok m =>
        if m.g.isFwd then
          let f := Cap.ofGran m.g
          let va2 := f.addr / 16 * 16
          let t2 := r.1.transData core b g (va2 + va % 16)
          match t2.2 with
          | .error e => (t2.1, .error e)
          | .ok pa3 =>
            let pa2 := pa3 / 16 * 16
            if !verOk f.ver (t2.1.verAt pa2) then (t2.1, .error (accFail 13 cCAP cfVERSION 0 g (va2 + va % 16)))
            else
              let r2 := t2.1.readPA (shedOfCore core) pa2
              (r2.1, .ok { pa := pa2, va := va2, m := r2.2, heal := some (capRebase c ((va2 / 16 : Int) - (va / 16 : Int)) f.ver).toGran })
        else (r.1, .ok { pa := pa, va := va / 16 * 16, m := .ok m })

/-- A bus error met precisely (rank 13). -/
def busFail (g : Gran) (va : Nat) (sub : Nat) : Fail := accFail 13 cBUS sub 0 g va

/-- What a read of a word or granule finds (05 Tables 5.4 and 5.5): a value, a wait, or a Tag Fault with its subcode: RESERVED, or
NONCANONICAL for a FUTURE word to wait on, whose payload R182 interprets (02 R23, 08 R170). -/
inductive ReadOut where
  | value (g : Gran)
  | wait
  | bad (sub : Nat)
  deriving DecidableEq, Repr

/-- A wait on a word, whose payload must be canonical. -/
def waitOn (w : TWord) : ReadOut := if canonical w then .wait else .bad 2

/-- 05 Table 5.4, for the word of a granule that is not a forwarding granule; `waits` for a waiting read. -/
def readWord (g : Gran) (hi waits : Bool) : ReadOut :=
  let w := g.word hi
  if !tagDefined w.tag then .bad 1
  else if tagIsCap w.tag then .value (Gran.ofWord (TWord.raw w.val))
  else if waits && w.isSync then waitOn w
  else .value (Gran.ofWord w)

/-- 05 Table 5.5; `waits` for LDC. -/
def readGran (g : Gran) (waits : Bool) : ReadOut :=
  if !tagDefined g.lo.tag || !tagDefined g.hi.tag then .bad 1
  else if g.isCap then .value g
  else if waits && g.lo.isSync then waitOn g.lo
  else .value Gran.zero

/-- A read by CAR or CDR (05 R110): a capability granule is read as LDC reads it, any other as a word. -/
def readPair (g : Gran) : ReadOut := if g.isCap then readGran g false else readWord g false true

/-- What a waiting read's kind makes of the granule that filled its word (05 R107). DESIGN CHOICE (log entry 104): R107 says that a waiting LDC
completes with the filled value and does not say what that is where a word store filled its granule's low word; the model reads the granule as
that store left it, by Table 5.5: a slot of RAW zero. -/
def WaitKind.result (k : WaitKind) (hi : Bool) (g : Gran) : Gran :=
  match k with
  | .ldc => (match readGran g false with | .value v => v | _ => Gran.zero)
  | .pair => if g.isCap then g else (match readWord g false false with | .value v => v | _ => Gran.zero)
  | _ => (match readWord g hi false with | .value v => v | _ => Gran.zero)

/-- Waiters a home agent may hold (08 R181). -/
abbrev waiterMax : Nat := 16384

/-- Memory-operation slots of a core, and those in use (08 R171): the results on their way and the retried reads. -/
abbrev memSlots : Nat := 256
def State.memFull (s : State) (core : Nat) : Bool := decide (memSlots ≤ (s.ops.filter (fun o => o.core == core)).length)

/-- Where an operation comes from: the core whose memory-operation slot it holds (`noCore` where it holds none), and its address and
capability (07 R151). -/
structure Origin where
  core : Nat := noCore
  faddr : Word64 := 0
  fcap : Gran := Gran.zero
  deriving DecidableEq, Repr

/-- Register a waiting read, or leave it to be retried where the directory is full (08 R181, R182). -/
def State.register (s : State) (o : Origin) (cid reg pa : Nat) (kind : WaitKind) (word : TWord) : State :=
  match s.locate pa with
  | none => s
  | some (p, _) =>
    if (s.waiters.filter (fun w => w.agent == p)).length < waiterMax then
      let s := { s with waiters := s.waiters ++ [{ agent := p, pa := pa, cid := cid, reg := reg, kind := kind, seqNo := s.seqNo, faddr := o.faddr, fcap := o.fcap }],
                        seqNo := s.seqNo + 1 }
      let v := word.val.toNat
      let rn := v % 2 ^ 18
      if word.tag == tagFUTURE && nbits v 63 48 == s.nodeId && nbits v 31 18 != 0x3FFF && (s.record rn).gen == nbits v 31 18 &&
          (s.record rn).rstate == .ready then s.boost rn
      else s
    else
      { s with ops := s.ops ++ [{ cid := cid, reg := reg, value := none, poll := some (pa, kind), seqNo := s.seqNo, core := o.core, faddr := o.faddr, fcap := o.fcap }],
               seqNo := s.seqNo + 1 }

/-- A result on its way to a register (08 R180). -/
def State.result (s : State) (core cid reg : Nat) (g : Gran) : State :=
  { s with ops := s.ops ++ [{ cid := cid, reg := reg, value := some g, seqNo := s.seqNo, core := core }], seqNo := s.seqNo + 1 }

/-- A late store error of a context (07 R155): in its stall, or from the park cut on in its record and frame (08 R174); one that no longer lives
receives nothing (10 R225). -/
def State.lateStore (s : State) (cid : Nat) (faddr : Word64) (cause sub : Nat) (remote : Bool) : State :=
  if !s.living cid then s
  else
    match s.liveStall cid with
    | some k =>
      s.updStall k (fun t => match t.late with
        | some l => { t with late := some { l with count := satAdd 16 l.count 1 } }
        | none => { t with late := some ⟨faddr, cause, sub, remote, 0⟩ })
    | none =>
      let rn := cidRecord cid
      let put (f : Gran → Gran) : State := (s.framePut (rn / 2 ^ 14) cid 0x380 f).1
      let s :=
        if (s.record rn).lsep then put (fun g => let v := g.hi.val.toNat; rawGran g.lo.val (w64 (v % 2 ^ 48 + satAdd 16 (nbits v 63 48) 1 * 2 ^ 48)))
        else (put (fun _ => rawGran faddr (({ cause := 0, subcode := sub, taga := cause, remote := remote, slot := 0 } : Exc).info64))).updRecord
              rn (fun r => { r with lsep := true })
      s.wakeRecord rn

/-- Perform the buffered stores `bs` to one granule, in issue order and as one (10 R224, R225): where the granule is in error, each context
that last wrote a word of it receives a late store error. Stores that cover the granule clear poison, and others that meet an
uncorrectable granule leave it poisoned (02 R33). -/
def State.drainGran (s : State) (core line : Nat) (bs : List BufStore) : State :=
  match bs with
  | [] => s
  | b :: _ =>
    let pa := line * 64 + b.gi * 16
    let berth := b.berth
    let put (g : Gran) : Gran := bs.foldl (fun g x => x.apply g) g
    let last (hi : Bool) : List (Nat × Word64) :=
      match (bs.filter (fun x => x.writes hi)).getLast? with | some x => x.cids.map (fun c => (c, x.va)) | none => []
    let r := s.readPA (shedOfCore core) pa
    match r.2 with
    | .ok m => r.1.perform core berth pa m (put m.g)
    | .error e =>
      if bs.any (fun x => x.writes false) && bs.any (fun x => x.writes true) && e != beNOTARGET && (r.1.verAt pa).isSome then
        r.1.perform core berth pa (r.1.blankAt pa) (put Gran.zero)
      else
        let s := if e = beUNC && (r.1.verAt pa).isSome then r.1.writePA pa ((r.1.rawAt pa).poisoned) else r.1
        let hit := last false ++ (last true).filter (fun x => !(last false).any (fun y => y.1 == x.1))
        hit.foldl (fun s x => s.lateStore x.1 x.2 cBUS e false) s

/-- The stores of an entry drain, granule by granule. -/
def State.drainStores (s : State) (core line : Nat) (bs : List BufStore) : State :=
  (upTo 4).foldl (fun s i => s.drainGran core line (bs.filter (fun b => b.gi == i))) s

/-- The stores of a granule up to a context's last one, the release stores of other contexts apart. -/
def ownPrefix (cid : Nat) : List BufStore → List BufStore
  | [] => []
  | b :: bs =>
    if (b :: bs).any (fun x => x.cids.contains cid) then
      (if b.cids.contains cid || !b.release then b :: ownPrefix cid bs else ownPrefix cid bs)
    else []

/-- A context's own buffered stores to one granule, with those they follow, are performed before it reaches the granule past the buffer
(10 R244: accesses to overlapping granules keep their order). -/
def State.flushOwn (s : State) (core cid pa : Nat) : State :=
  let own := ownPrefix cid ((s.core core).buffered pa)
  let keep (e : BufEntry) : BufEntry :=
    if e.line = pa / 64 then { e with stores := e.stores.filter (fun b => !own.contains b) } else e
  let s := s.updCore core (fun c => { c with buffer := (c.buffer.map keep).filter (fun e => !e.stores.isEmpty) })
  s.drainStores core (pa / 64) own

/-! ### Pushes and pops (07 R142) -/

/-- R142's conditions on the stack capability for `n` granules at `va`. DESIGN CHOICE (log entry 103): chapter 15 has no remote push or pop, and the
spec names no fault for a stack capability that names a peer device (03 R41); the model raises REMOTE in its place of rank 9. -/
def checkStack (s : State) (g : Gran) (va : Int) (n : Nat) (perms : List Nat) : Except Fail Cap :=
  let c := Cap.ofGran g
  let f (rank sub info : Nat) := accFail rank cCAP sub info g va
  match firstFail ([(g.isCap, capFail 9 cfVALID 0 g), (c.wf, f 9 cfFORM 0), (c.otype == 0, f 9 cfSEALED 0), (c.kind == kSTACK, f 9 cfKIND 0)] ++
      perms.map (fun p => (c.has p, f 9 cfPERM p)) ++
      [(s.isLocal c.node, f 9 cfREMOTE 0), (c.addr % 16 == 0, accFail 10 cMISALIGNED 0 0 g va), (c.inBounds va (16 * n), f 10 cfBOUNDS 0),
       ((c.withAddr va).isCap || va == c.addr, f 10 cfBOUNDS 0)]) with
  | .ok _ => .ok c
  | .error e => .error e

/-- Who accesses: the core, the berth, the context, and whether its roots are unscanned. -/
structure Who where
  core : Nat
  berth : Nat
  cid : Nat
  unscanned : Bool
  deriving DecidableEq, Repr

/-- `land` for an access that bypasses the merging buffer: the context's own buffered stores to the granule go first. -/
def State.landOwn (s : State) (w : Who) (g : Gran) (va : Nat) : State × Except Fail Loc :=
  let l := s.land w.core w.berth g va
  match l.2 with
  | .error f => (l.1, .error f)
  | .ok loc =>
    if ((l.1.core w.core).buffered loc.pa).any (fun b => b.cids.contains w.cid) then
      let s := l.1.flushOwn w.core w.cid loc.pa
      let r := s.readPA (shedOfCore w.core) loc.pa
      (r.1, .ok { loc with m := r.2 })
    else (l.1, .ok loc)

/-- The fault of lowest rank, the first among equals (07 R152). -/
def firstRank : List Fail → Option Fail
  | [] => none
  | f :: fs =>
    match firstRank fs with
    | none => some f
    | some g => if g.rank < f.rank then some g else some f

/-- Every granule of an access of several, from `va`, each met before any is stored: `bad` is a further check of each. -/
def State.landEach (s : State) (w : Who) (g : Gran) (bad : State → Nat → Loc → Option Fail) : Nat → Nat → State × List Fail × List Loc
  | 0, _ => (s, [], [])
  | n + 1, va =>
    let l := s.landOwn w g va
    let r := l.1.landEach w g bad n (va + 16)
    match l.2 with
    | .error f => (r.1, f :: r.2.1, r.2.2)
    | .ok loc => (r.1, (match bad l.1 va loc with | some f => f :: r.2.1 | none => r.2.1), loc :: r.2.2)

/-- A granule that a whole-granule store may not meet: the bus error it raises precisely (07 R142). One that is only in error is stored over, which
clears its poison (02 R33). -/
def noStore (g : Gran) (s : State) (va : Nat) (loc : Loc) : Option Fail :=
  match loc.m with
  | .error e => if e = beNOTARGET || (s.verAt loc.pa).isNone then some (busFail g va e) else none
  | .ok _ => none

/-- The rebased form of the capability that named the original of a forwarded granule, of the first that was (12 R284). -/
def healOf (l : List Loc) : Option Gran := (l.filterMap (·.heal)).head?

/-- Store granules at the places found, performed at once; `bar` runs a barrier for each (07 R142; none for CONS, 12 Table 12.6). -/
def State.storeLocs (s : State) (w : Who) (bar : Bool) : List Loc → List Gran → State
  | loc :: ls, x :: xs =>
    let old := match loc.m with | .ok m => m.g | .error _ => Gran.zero
    let b := if bar then s.storeBarrier w.berth loc.va old x w.unscanned false else (s, x)
    let m := match loc.m with | .ok m => m | .error _ => b.1.blankAt loc.pa
    (b.1.perform w.core w.berth loc.pa m b.2).storeLocs w bar ls xs
  | _, _ => s

/-- Store whole granules one after another through slot `g` from `va`, all or none (07 R142, R152). Answers the capability rebased, where forwards
were followed. -/
def State.storeGrans (s : State) (w : Who) (g : Gran) (bar : Bool) (va : Nat) (xs : List Gran) : State × Except Fail (Option Gran) :=
  let l := s.landEach w g (noStore g) xs.length va
  match firstRank l.2.1 with
  | some f => (l.1, .error f)
  | none => (l.1.storeLocs w bar l.2.2 xs, .ok (healOf l.2.2))

/-- Push granules on a stack slot: the state, and the slot with ADDR lowered (07 R142), rebased where a forward was followed. -/
def State.push (s : State) (w : Who) (g : Gran) (xs : List Gran) : State × Except Fail Gran :=
  let c := Cap.ofGran g
  let va : Int := c.addr - 16 * xs.length
  let perms := if xs.any (fun x => x.isCap && !(Cap.ofGran x).has pGLOBAL) then [pST, pSTC, pSTLC] else [pST, pSTC]
  match checkStack s g va xs.length perms with
  | .error f => (s, .error f)
  | .ok c =>
    let r := s.storeGrans w g true va.toNat xs
    match r.2 with
    | .error f => (r.1, .error f)
    | .ok none => (r.1, .ok ({ c with addr := va.toNat } : Cap).toGran)
    | .ok (some h) => (r.1, .ok ((Cap.ofGran h).withAddr (((Cap.ofGran h).addr : Int) - 16 * xs.length)))

/-- What a pop may not meet: a bus error, or a reserved tag (05 Table 5.5). -/
def noLoad (g : Gran) (_ : State) (va : Nat) (loc : Loc) : Option Fail :=
  match loc.m with
  | .error e => some (busFail g va e)
  | .ok m => if !tagDefined m.g.lo.tag || !tagDefined m.g.hi.tag then some (accFail 14 cTAG 1 0 g va) else none

/-- The granules at the places found, capabilities rebased, and in place (12 Table 12.6). -/
def State.loadLocs (s : State) (w : Who) : List Loc → State × List Gran
  | [] => (s, [])
  | loc :: ls =>
    match loc.m with
    | .error _ => (s, [])
    | .ok m =>
      let x := s.rebased w.berth m.g
      let s1 := x.1.touchRead (shedOfCore w.core) w.berth (loc.pa / 64) (loc.pa / 16 % 4)
      let s2 := if x.2 = m.g then s1 else (s1.touchWrite (shedOfCore w.core) w.core w.berth (loc.pa / 64) (loc.pa / 16 % 4)).writePA loc.pa (m.setGran x.2)
      let r := s2.loadLocs w ls
      (r.1, x.2 :: r.2)

/-- Pop `n` granules from a stack slot: the granules, and the slot with ADDR raised. -/
def State.pop (s : State) (w : Who) (g : Gran) (n : Nat) : State × Except Fail (List Gran × Gran) :=
  let c := Cap.ofGran g
  match checkStack s g c.addr n [pLD, pLDC] with
  | .error f => (s, .error f)
  | .ok c =>
    let up := c.withAddr (c.addr + 16 * n)
    if !up.isCap then (s, .error (accFail 10 cCAP cfBOUNDS 0 g c.addr))
    else
      let l := s.landEach w g (noLoad g) n c.addr
      match firstRank l.2.1 with
      | some f => (l.1, .error f)
      | none =>
        let r := l.1.loadLocs w l.2.2
        (r.1, .ok (r.2, match healOf l.2.2 with | some h => (Cap.ofGran h).withAddr ((Cap.ofGran h).addr + 16 * n) | none => up))

end Sys2Proof.Machine
end

