-- ==== Sys2Proof/Machine/Exc.lean ====
section
/-!
DEFINITION. Taking an exception or event (07 R146–R163): the frame, the entry, double-fault entry, the third fault, and
which event is taken next. The return (RETY, LEAVE) restores under 07 R145.
-/

namespace Sys2Proof.Machine

/-- Minimum level of a cause (07 Table 7.6). -/
def minLevel (cause : Nat) : Nat := if cause == cSVC || cause == cGATE || cause == cDOUBLE || 40 ≤ cause then 2 else 1

/-- 07 R146: the target level. -/
def targetLevel (pl cause : Nat) : Nat := max pl (minLevel cause)

/-- 07 Table 7.4, the entry columns. -/
def entryStatus (st : Word64) (pl : Nat) (df : Bool) : Word64 :=
  setPL (setBit (setBit (setBit (setBit (setBit st 11 false) 9 false) 8 false) 2 false) 10 (df || stDF st)) pl

/-- FCAP, or FADDR as RAW where no capability was used (07 Table 7.3, slot 3); for BERTH_EVENT the event's second word (R156). -/
def Exc.fcapSlot (e : Exc) : Gran := if e.fcap = Gran.zero && e.cause != cBERTH then rawGran e.faddr 0 else e.fcap

/-- The frame of 07 Table 7.3. -/
def frameOf (pcc : Gran) (status : Word64) (e : Exc) (lc : Word64) (rep : Nat) (preds : Nat) (istack : Gran) (time : Nat) : List Gran :=
  [pcc, rawGran status 0, rawGran e.info64 e.faddr, e.fcapSlot, rawGran lc (w64 (if stRPA status then rep else 0)), rawGran (w64 preds) 0,
   istack, rawGran (w64 time) (w64 e.syl)]

/-- The vector of a cause: the vector base with ADDR increased by 64 × cause. -/
def vectorOf (vbase : Gran) (cause : Nat) : Gran :=
  if vbase.isCap then let c := Cap.ofGran vbase; c.withAddr (c.addr + 64 * cause) else vbase

/-- Who pushes for a stall. -/
def State.who (s : State) (k : Nat) : Who :=
  let cid := s.cidOf k
  { core := coreOf k, berth := stBerth (s.stall k).status, cid := cid, unscanned := !(if isIntCid cid then (s.stall k).scanned else (s.record (cidRecord cid)).scanned) }

/-- 07 R162: the third fault, or a fault with STATUS.DF = 1. The report carries the original exception (R163). -/
def State.thirdFault (s : State) (k : Nat) (e : Exc) : State :=
  s.stallReset k (((s.stall k).dfOrig.getD e).info64)

/-- 07 R160: double-fault entry for the exception under way, stopped by `stop`. -/
def State.dfEntry (s : State) (k : Nat) (en : Entering) (stop : Exc) : State :=
  let t := s.stall k
  let info : Exc := { cause := cDOUBLE, subcode := stop.subcode, slot := en.exc.slot, taga := en.exc.cause, tagb := stop.cause,
                      faddr := stop.faddr, fcap := stop.fcap, syl := en.exc.syl }
  let fr := frameOf en.oldPcc en.oldStatus info t.lc en.oldRep t.predsNat en.oldG31 s.time
  let r := s.push (s.who k) t.dfstack fr
  match r.2 with
  | .error _ => r.1.stallReset k en.exc.info64
  | .ok g31 =>
    r.1.updStall k (fun t =>
      { (t.setG 31 g31) with status := entryStatus en.oldStatus 2 true, pcc := vectorOf t.vbaseY cDOUBLE, rep := 0, repFirst := false,
                             exc := none, entering := none, dfOrig := some en.exc, fetched := [] })

/-- 07 R147: exception or event entry on G31. A fault of a frame store is a double fault, or the third fault while DF is 1. -/
def State.enter (s : State) (k : Nat) (e : Exc) : State :=
  let t := s.stall k
  let en : Entering := { exc := e, oldStatus := t.status, oldG31 := t.getG 31, oldPcc := t.pcc, oldRep := t.rep }
  let fr := frameOf t.pcc t.status e t.lc t.rep t.predsNat (t.getG 31) s.time
  let r := s.push (s.who k) (t.getG 31) fr
  match r.2 with
  | .error f => if stDF t.status then r.1.thirdFault k e else r.1.dfEntry k en f.exc
  | .ok g31 =>
    let pl := targetLevel (stPL t.status) e.cause
    r.1.updStall k (fun t =>
      { (t.setG 31 g31) with status := entryStatus t.status pl false,
                             pcc := vectorOf (if pl = 2 then t.vbaseY else t.vbaseS) e.cause, rep := 0, repFirst := false,
                             exc := none, entering := some en, fetched := [] })

/-- A fault found by a bundle or by fetch (07 R146, R152, R160, R162): the bundle is squashed and the exception awaits its
entry; with DF = 1 the stall is reset. -/
def State.raiseFault (s : State) (k : Nat) (e : Exc) : State :=
  if stDF (s.stall k).status then s.thirdFault k e else s.updStall k (fun t => { t with exc := some e })

/-- 07 R154: whether an event may be taken at this boundary. -/
def Stall.eventsOpen (t : Stall) : Bool := stIE t.status && !stDF t.status && !t.repFirst && t.exc.isNone

/-- 07 R156: BERTH_EVENT is pending on the context EVENT_CID names while the berth's queue is not empty. -/
def State.berthEventFor (s : State) (cid : Nat) : Option (Nat × BerthEv) :=
  let b := s.berthOf cid
  if s.ent (berthIdx b) 0x14 == cid && s.living cid then
    match (s.berth b).events with
    | ev :: _ => some (b, ev)
    | [] => none
  else none

/-- The next context event of a stall, lowest cause first, with the state after the event is taken from its source. -/
def State.nextEvent (s : State) (k : Nat) : Option (Exc × State) :=
  let t := s.stall k
  match t.late with
  | some l =>
    some ({ cause := cLATE, subcode := l.subcode, taga := l.cause, count := l.count, remote := l.remote, async := true, faddr := l.faddr },
          s.updStall k (fun t => { t with late := none }))
  | none =>
    if t.timp then
      some ({ cause := cTIMER, async := true }, s.updStall k (fun t => { t with timer := 0, timp := false, inframe := maskClr t.inframe (32 + srTIMER) }.mark srTIMER))
    else
      match s.berthEventFor (s.cidOf k) with
      | some (b, ev) =>
        some ({ cause := cBERTH, subcode := ev.code, async := true, faddr := ev.w0, fcap := Gran.ofWord (TWord.raw ev.w1) },
              s.updBerth b (fun x => { x with events := x.events.drop 1 }))
      | none => none

/-- Implicit uses of an entry that wait for a pending or in-frame register (08 R185): G31, and the vector base. -/
def Stall.entryReady (t : Stall) : Bool :=
  !maskBit t.pend 31 && !maskBit t.inframe 31 && !maskBit t.inframe (32 + srVBASE_S) && !maskBit t.inframe (32 + srVBASE_Y) &&
    !maskBit t.inframe (32 + srLC)

/-- A stall that runs a context. -/
def Stall.runs (t : Stall) : Bool := t.cid.isSome && t.phase == .running

/-- Whether a routine in a stall's sequencer goes on: its context runs, it is not halted, its shed is not isolated, the device is not moored
(08 R171, 18 R417, R421). A routine runs to its end while its berth drains (16 Table 16.9 step 2). -/
def State.mayGoOn (s : State) (k : Nat) : Bool :=
  let t := s.stall k
  t.runs && !t.halt && !(s.shed (shedOf k)).isolated && s.ent 0x6000 0x02 == 0

/-- Whether a stall issues anything: it could go on, and its berth is not being reset (16 R377). -/
def State.mayRun (s : State) (k : Nat) : Bool := s.mayGoOn k && s.ent (berthIdx (stBerth (s.stall k).status)) 0x01 != 3

/-- The register number that labels a byte code's awaited read (09 R209, R217). -/
abbrev vzReg : Nat := 32

/-- A byte code is abandoned (09 R206): the reads it has are dropped, and the one it awaits is discarded when it comes. -/
def State.dropVz (s : State) (k : Nat) : State :=
  if (s.stall k).vzWait.isNone && (s.stall k).vzGot.isEmpty then s
  else
    let cid := s.cidOf k
    { s.updStall k (fun t => { t with vzWait := none, vzGot := [] }) with
      ops := s.ops.filter (fun o => !(o.cid == cid && o.reg == vzReg)),
      waiters := s.waiters.filter (fun w => !(w.cid == cid && w.reg == vzReg && (match w.kind with | .remote _ => false | _ => true))),
      slots := SMap.mapv (fun _ => none) (fun _ x => x.map (fun (y : Slot) =>
        if y.cid = cid ∧ y.reg = some vzReg then { y with reg := some 0 } else y)) s.slots }

/-- A routine of a stall is abandoned for a fault, KILL, HALT or SQUASH (09 R206). -/
def State.abandon (s : State) (k : Nat) : State := (s.dropRoutine k).dropVz k

/-- 09 R206, R207: an event abandons a stall's routine; its next run from the same bundle holds events off. -/
def State.abandonFor (s : State) (k : Nat) : State :=
  if (s.routine k).isSome then (s.abandon k).updStall k (fun t => { t with holdAt := (Cap.ofGran t.pcc).addr :: t.holdAt }) else s.dropVz k

/-- Whether a context event may be taken now: at a boundary, or at a word before the commit word of a routine that does not hold events off. -/
def State.eventsOpen (s : State) (k : Nat) : Bool :=
  (s.stall k).eventsOpen && (match s.routine k with | some r => !r.hold && r.after.isNone | none => true)

/-- EXC_ENTRY (07 R147): the pending exception of a stall, or its next context event, is entered. -/
def doExcEntry (k : Nat) (s : State) : State :=
  let t := s.stall k
  if !s.mayRun k || !t.entryReady || t.yielding.isSome then s
  else
    match t.exc with
    | some e =>
      match t.entering with
      | some en => s.dfEntry k en e
      | none => s.enter k e
    | none =>
      if s.eventsOpen k then
        match s.nextEvent k with
        | some (e, s') => ((s'.abandonFor k).updStall k (fun t => { t with exiting := false })).enter k e
        | none => s
      else s

/-- The core a source's events go to: EVENT_CORE, or core 0 of the lowest shed in service where that core's shed is isolated
(07 R158, 18 R417). -/
def State.eventCore (s : State) (slot : Nat) : Nat :=
  let c := s.ent (0x7000 + slot) 0x09
  if (s.shed (shedOfCore c)).isolated then
    match (upTo nSheds).find? (fun x => !(s.shed x).isolated) with | some x => 16 * x | none => c
  else c

/-- 07 R158: a unit signals an event on the core its gate slot names; one that is pending already coalesces. -/
def State.signalDev (s : State) (slot cause : Nat) : State :=
  s.updCore (s.eventCore slot) (fun c => { c with devPend := if c.devPend.contains (cause, slot) then c.devPend else c.devPend ++ [(cause, slot)] })

/-- The pending bit of a source whose cause entry has become 0 is cleared. -/
def State.unsignalDev (s : State) (slot cause : Nat) : State :=
  s.updCore (s.eventCore slot) (fun c => { c with devPend := c.devPend.filter (fun e => e != (cause, slot)) })

/-- FABRIC_EVENT (07 R158, 07 R159): cause bits are set in 0x5000:21, and the compass signals. -/
def State.fabricEvent (s : State) (bits : Nat) : State :=
  if bits = 0 then s else (s.setEnt 0x5000 0x21 (Nat.lor (s.ent 0x5000 0x21) bits)).signalDev 24 43

/-- 07 R159: the cause entry of a device event's source. WATCH_STATUS is restricted to the bits whose last report was
handled at level 1 or higher. -/
def State.devCause (s : State) (cause : Nat) : Nat :=
  match cause with
  | 40 => Nat.land (s.ent 0x6000 0x01) s.watchMask
  | 41 => s.ent 0x1000 0x17
  | 42 => s.ent 0x1000 0x18
  | _ => s.ent 0x5000 0x21

/-- The lowest pending device event of a core. -/
def lowestDev : List (Nat × Nat) → Option (Nat × Nat)
  | [] => none
  | e :: es =>
    match lowestDev es with
    | none => some e
    | some m => if e.1 < m.1 ∨ (e.1 = m.1 ∧ e.2 ≤ m.2) then some e else some m

/-- DEVICE_EVENT (07 R158): S63 of a core takes its lowest pending device event. Entry clears the bit; the event stays pending while the source's
cause entry is not 0 (R159), so the bit is set again where it is not. DEDUCED (log entry 105). -/
def doDeviceEvent (c : Nat) (s : State) : State :=
  let k := c * 64 + 63
  let t := s.stall k
  if !s.mayRun k || !t.entryReady || t.yielding.isSome || !s.eventsOpen k || (s.nextEvent k).isSome then s
  else
    match lowestDev (s.core c).devPend with
    | none => s
    | some (cause, slot) =>
      ((s.abandonFor k).updCore c (fun x => { x with devPend := x.devPend.filter (fun e => e != (cause, slot) || s.devCause cause != 0) })).enter k
        { cause := cause, subcode := slot, async := true, faddr := w64 (s.devCause cause) }

/-- TIMER (07 R156, 08 R190): the time base has reached a non-zero TIMER: of the stall's context; the Stable sets TIMP of a
parked record, by its record number beyond the stalls. -/
def doTimer (k : Nat) (s : State) : State :=
  let s := s.updStall k (fun t =>
    if t.cid.isSome && t.timer != 0 && decide (t.timer.toNat ≤ s.time) && !maskBit t.inframe (32 + srTIMER) then { t with timp := true } else t)
  s

end Sys2Proof.Machine
end

