-- ==== Sys2Proof/Machine/Branch.lean ====
section
/-!
DEFINITION. Fetch of bundles, branch targets and returns (04 R74, 07 R139–R149).
-/

namespace Sys2Proof.Machine

/-- 07 Table 7.7 rank 1, before any byte is fetched: PCC's form and rights; SYS at Y. DESIGN CHOICE (log entry 103): chapter 15 has no remote fetch,
and the spec names no fault for a PCC that names a peer device (03 R41); the model raises REMOTE after the named ones. -/
def checkPcc (s : State) (g : Gran) (pl : Nat) : Except Fail Cap :=
  let c := Cap.ofGran g
  let f (sub info : Nat) := accFail 1 cCAP sub info g c.addr
  match firstFail [(g.isCap, capFail 1 cfVALID 0 g), (c.wf, f cfFORM 0), (c.otype == 0, f cfSEALED 0), (c.kind == kCODE, f cfKIND 0),
      (c.has pEX, f cfPERM pEX), (pl != 2 || c.has pSYS, f cfPERM pSYS), (s.isLocal c.node, f cfREMOTE 0)] with
  | .ok _ => .ok c
  | .error e => .error e

/-- A fetch fault found where data accesses report rank 12 or 13: fetch reports it at rank 2, VERSION at rank 1. -/
def fetchRank (f : Fail) : Fail :=
  if f.exc.cause == cCAP then { f with rank := 1 } else { f with rank := 2 }

/-- Bytes of PCC's code space: `n` bytes at `va`, which lie within one granule (02 R22, 04 R64, 07 Table 7.7 ranks 1 and 2), with PCC rebased where a
forward was followed (12 R284). The line goes to the core's L1 instruction cache (10 R222). -/
def State.fetchBytes (s : State) (core b : Nat) (g : Gran) (va n : Nat) : State × Except Fail (Nat × Option Gran) :=
  let c := Cap.ofGran g
  if !c.inBounds va n then (s, .error (accFail 1 cCAP cfBOUNDS 0 g va))
  else
    let l := s.land core b g va
    match l.2 with
    | .error f => (l.1, .error (fetchRank f))
    | .ok loc =>
      match loc.m with
      | .error e => (l.1, .error (accFail 2 cBUS e 0 g va))
      | .ok m =>
        let w := m.g.word (va % 16 ≥ 8)
        let s1 := (l.1.touchRead (shedOfCore core) b (loc.pa / 64) (loc.pa / 16 % 4)).touchL1 core (loc.pa / 64) true
        if !tagDefined w.tag then (s1, .error (accFail 2 cTAG 1 0 g va))
        else (s1, .ok (w.val.toNat / 2 ^ (8 * (va % 8)) % 2 ^ (8 * n), loc.heal))

/-- The syllable words of a bundle from `va`, at most `n` of them, up to STOP (04 R69). -/
def State.fetchSyls (s : State) (core b : Nat) (g : Gran) : Nat → Nat → State × Except Fail (List Nat × Option Gran)
  | 0, _ => (s, .ok ([], none))
  | n + 1, va =>
    let r := s.fetchBytes core b g va 4
    match r.2 with
    | .error f => (r.1, .error f)
    | .ok (w, heal) =>
      if nbit w 31 then (r.1, .ok ([w], heal))
      else
        let more := r.1.fetchSyls core b g n (va + 4)
        match more.2 with
        | .error f => (more.1, .error f)
        | .ok (ws, h) => (more.1, .ok (w :: ws, heal.orElse (fun _ => h)))

/-- What a misaligned PCC raises: MISALIGNED stands last in rank 1, after BOUNDS and VERSION. -/
def State.fetchMisaligned (s : State) (core b : Nat) (g : Gran) (va : Nat) : State × Fail :=
  let c := Cap.ofGran g
  let mis := accFail 1 cMISALIGNED 0 0 g va
  if !c.inBounds va 4 then (s, accFail 1 cCAP cfBOUNDS 0 g va)
  else
    let l := s.land core b g va
    match l.2 with
    | .error f => (l.1, if f.exc.cause == cCAP then fetchRank f else mis)
    | .ok _ => (l.1, mis)

/-- Fetch the bundle at `off` bytes past PCC's ADDR: one that is fetched already and not yet executed is used as it is, until FENCE.I
discards it (10 R223, R248). -/
def State.fetchAt (s : State) (k off : Nat) : State × Except Fail (List Nat) :=
  let t := s.stall k
  match checkPcc s t.pcc (stPL t.status) with
  | .error f => (s, .error f)
  | .ok c =>
    match t.fetched.find? (fun e => e.1 == c.addr + off) with
    | some (_, ws) => (s, .ok ws)
    | none =>
      if (c.addr + off) % 4 != 0 then
        let r := s.fetchMisaligned (coreOf k) (stBerth t.status) t.pcc (c.addr + off)
        (r.1, .error r.2)
      else
        let r := s.fetchSyls (coreOf k) (stBerth t.status) t.pcc 7 (c.addr + off)
        match r.2 with
        | .error f => (r.1, .error f)
        | .ok (ws, heal) =>
          let keep (t : Stall) : Stall :=
            match heal with
            | some g => { t with pcc := g, fetched := [((Cap.ofGran g).addr + off, ws)] }
            | none => { t with fetched := t.fetched ++ [(c.addr + off, ws)] }
          (r.1.updStall k keep, .ok ws)

/-- A PCC moved to an address (04 R69, R74). -/
def pccAt (pcc : Gran) (va : Int) : Gran := (Cap.ofGran pcc).withAddr va

/-- 04 R74: checks on the PCC a bundle would place: `g` with the capability as it would stand, ranks 9 and 10;
a byte-code position needs no alignment (09 R216). -/
def checkTarget (align : Bool) (g : Gran) (c : Cap) : Except Fail Unit :=
  let f (rank sub info : Nat) := accFail rank cCAP sub info g c.addr
  firstFail [(c.has pEX, f 9 cfPERM pEX), (!align || c.addr % 4 == 0, accFail 10 cMISALIGNED 0 0 g c.addr), (c.inBounds c.addr 4, f 10 cfBOUNDS 0)]

/-- 04 R74: checks on the address that a BR would move PCC to, within PCC's bounds as they stand. -/
def checkBranch (g : Gran) (va : Int) : Except Fail Unit :=
  let c := Cap.ofGran g
  let f (rank sub info : Nat) := accFail rank cCAP sub info g va
  firstFail [(c.has pEX, f 9 cfPERM pEX), (va % 4 == 0, accFail 10 cMISALIGNED 0 0 g va), (c.inBounds va 4, f 10 cfBOUNDS 0)]

/-- 04 R74 and 03 R52: a JMP target, and a CALL target, where a sealed ENTRY capability with INVOKE and EX is unsealed. -/
def jumpTarget (call align : Bool) (g : Gran) : Except Fail Gran :=
  let c := Cap.ofGran g
  if !g.isCap then .error (capFail 9 cfVALID 0 g)
  else if !c.wf then .error (capFail 9 cfFORM 0 g)
  else if c.otype != 0 then
    if !call then .error (capFail 9 cfSEALED 0 g)
    else if c.kind != kENTRY then .error (capFail 9 cfKIND 0 g)
    else if !c.has pINVOKE then .error (capFail 9 cfPERM pINVOKE g)
    else
      let c' : Cap := { c with otype := 0, kind := kCODE }
      match checkTarget align g c' with
      | .ok _ => .ok c'.toGran
      | .error e => .error e
  else if c.kind != kCODE then .error (capFail 9 cfKIND 0 g)
  else
    match checkTarget align g c with
    | .ok _ => .ok g
    | .error e => .error e

/-- A Privilege Fault. -/
def privFail (rank sub : Nat) : Fail := ⟨rank, { cause := cPRIV, subcode := sub }⟩

/-- 07 R145 steps 5 and 6: the PCC to be restored at privilege `pl`; in compatibility mode a byte-code position needs no
alignment (09 R216). -/
def checkRestoredPcc (g : Gran) (pl : Nat) (cm : Bool) : Except Fail Unit :=
  let c := Cap.ofGran g
  let f (sub info : Nat) := accFail 15 cCAP sub info g c.addr
  firstFail [(g.isCap, capFail 15 cfVALID 0 g), (c.wf, f cfFORM 0), (c.otype == 0, f cfSEALED 0), (c.kind == kCODE, f cfKIND 0),
    (c.has pEX, f cfPERM pEX), (pl != 2 || c.has pSYS, f cfPERM pSYS),
    (cm || c.addr % 4 == 0, accFail 15 cMISALIGNED 0 0 g c.addr), (c.inBounds c.addr (if cm then 1 else 4), f cfBOUNDS 0)]

/-- 07 R145: the checks of LEAVE and RETY on the values to be restored, in order. -/
def checkReturn (cur saved : Word64) (pcc : Gran) : Except Fail Unit :=
  match firstFail [(stPL saved != 3, privFail 15 0x04), (decide (stPL saved ≤ stPL cur), privFail 15 0x02),
      (decide (stPL saved ≤ stCEIL cur), privFail 15 0x03), (!stDF saved || stDF cur, privFail 15 0x05)] with
  | .error e => .error e
  | .ok _ => checkRestoredPcc pcc (stPL saved) (stCM saved)

/-- 07 R145: the STATUS a return restores; RPA only by RETY. -/
def returnStatus (cur saved : Word64) (rety : Bool) : Word64 :=
  let st := setPL cur (stPL saved)
  let st := setBit st 2 (stIE saved)
  let st := setBit st 3 (stFEN saved)
  let st := setBit st 9 (stLPA saved)
  let st := setBit st 11 (stCM saved)
  let st := setBit st 10 (stDF saved)
  setBit st 8 (rety && stRPA saved)

end Sys2Proof.Machine
end

