-- ==== Sys2Proof/Machine/Requests.lean ====
section
/-!
DEFINITION. A remote access at the requesting node as its bundle issues it (15 R348–R353, 12 R288, R292): the slot, the
packet, the export entries of what it carries.
-/

namespace Sys2Proof.Machine

/-- Packet types (15 Table 15.3). -/
abbrev ptLOAD : Nat := 0x01
abbrev ptSTORE : Nat := 0x02
abbrev ptCAS : Nat := 0x03
abbrev ptFADD : Nat := 0x04
abbrev ptFILL : Nat := 0x05
abbrev ptINVOKE : Nat := 0x06
abbrev ptLIST : Nat := 0x08
abbrev ptDROP : Nat := 0x09
abbrev ptDATA : Nat := 0x81
abbrev ptACK : Nat := 0x82
abbrev ptLINE : Nat := 0x83
abbrev ptREFUSE : Nat := 0x84
abbrev ptRETRY : Nat := 0x85
abbrev ptWAITING : Nat := 0x86
abbrev ptXACK : Nat := 0x88
abbrev ptTSREQ : Nat := 0x90
abbrev ptTSRSP : Nat := 0x91

/-- A granule as a packet carries it (15 R349). -/
def CG.of (g : Gran) : CG := ⟨g, rsEncode g⟩

/-- 03 R42: a capability that leaves the node names it. -/
def State.capOut (s : State) (g : Gran) : Gran :=
  if g.isCap && (Cap.ofGran g).node == 0xFFFF then ({ Cap.ofGran g with node := s.nodeId } : Cap).toGran else g

/-- 03 R42: a capability that arrives and names this node becomes local. -/
def State.capIn (s : State) (g : Gran) : Gran :=
  if g.isCap && (Cap.ofGran g).node == s.nodeId then ({ Cap.ofGran g with node := 0xFFFF } : Cap).toGran else g

/-- XTAB_ENTRIES of a berth (12 Table 12.7). -/
def State.xtabMax (s : State) (b : Nat) : Nat := s.app (berthIdx b) 0x45

/-- The index of the export or relay entry of a key and a peer. -/
def Berth.exportAt (x : Berth) (home gran peer : Nat) : Option Nat := listFind (fun e : XEntry => e.home == home && e.gran == gran && e.peer == peer) x.exports

/-- An export or relay entry counts `n` more capabilities to granules `lo` to `hi`, its bounds growing to hold theirs (12 R288, R289), or is made; none where
the table is full. -/
def State.countExport (s : State) (b home gran peer lo hi n : Nat) : Option State :=
  let x := s.berth b
  match x.exportAt home gran peer with
  | some i =>
    some ((s.setBerth b { x with exports := x.exports.map (fun e =>
      if e.home = home ∧ e.gran = gran ∧ e.peer = peer then { e with count := e.count + n, lo := min e.lo lo, hi := max e.hi hi } else e) }).tableTouch b i)
  | none =>
    if x.exports.length < s.xtabMax b then
      some ((s.setBerth b { x with exports := x.exports ++ [{ home := home, gran := gran, peer := peer, count := n, lo := lo, hi := hi }] }).tableTouch
        b x.exports.length)
    else none

/-- 12 R288: a capability of berth `b` leaves for node `peer`: a home export or a relay; none where the table is full. A relay
increments HOLD of the berth's own import entry for the key. -/
def State.exportCap (s : State) (b peer : Nat) (g : Gran) : Option State :=
  if !g.isCap then some s
  else
    let c := Cap.ofGran g
    let home := if c.node = 0xFFFF then s.nodeId else c.node
    (s.countExport b home c.base peer c.base c.top 1).map (fun s =>
      if home = s.nodeId then s
      else s.updBerth b (fun x => { x with imports := x.imports.map (fun e => if e.home = home ∧ e.gran = c.base then { e with hold := e.hold + 1 } else e) }))

/-- Export every capability of a list, or none of them. -/
def State.exportCaps (s : State) (b peer : Nat) : List Gran → Option State
  | [] => some s
  | g :: gs => match s.exportCap b peer g with | some s' => s'.exportCaps b peer gs | none => none

/-- The lowest free remote-operation slot of 32,768 (08 R171). -/
def freeSlotFrom (m : SMap (Option Slot)) : Nat → Nat → Option Nat
  | 0, _ => none
  | n + 1, i => if (SMap.get (fun _ => none) m i).isNone then some i else freeSlotFrom m n (i + 1)
def State.freeSlot (s : State) : Option Nat := freeSlotFrom s.slots 32768 0

/-- A packet enters the compass of this node, its age 0 (15 R342). -/
def State.emit (s : State) (p : Pkt) : State := { s with compass := s.compass ++ [{ pkt := { p with src := s.nodeId }, since := s.time }] }

/-- A refusal on its way to a register (07 R151, 08 R178). -/
def State.refuseReg (s : State) (o : Origin) (cid reg : Nat) (e : Exc) : State :=
  { s with ops := s.ops ++ [{ cid := cid, reg := reg, value := none, refusal := some e, seqNo := s.seqNo, core := o.core }], seqNo := s.seqNo + 1 }

/-- A slot is answered with a refusal and released (15 R352): a refused register, or a late store error where no register
waits (07 R151, R155). DESIGN CHOICE (log entry 106): the refusal of an operation whose destination is G0 marks no register, since no bundle could
name it pending; the spec does not say how such a fault, that of a remote FADD.G's sum included, would reach the context, and the model drops it. -/
def State.refuseSlot (s : State) (n : Nat) (e : Exc) : State :=
  match s.slot n with
  | none => s
  | some x =>
    let s := s.setSlot n none
    let fa := faddrOf x.home x.pkt.addr
    match x.reg with
    | some r => if r = 0 then s else s.refuseReg {} x.cid r { e with remote := true, faddr := fa }
    | none => s.lateStore x.cid fa e.cause e.subcode true

/-- Every slot aimed at a node is refused NODEDOWN (15 R352). -/
def State.refuseNode (s : State) (down : Nat → Bool) : State :=
  ((s.slots.filter (fun e => match e.2 with | some x => down x.home | none => false)).map (·.1)).foldl
    (fun s n => s.refuseSlot n { cause := cREFUSED, subcode := 0x03 }) s

/-- A remote access takes its slot, or is refused NOCHARTER on this node (16 R368). -/
def State.remoteIssue (s : State) (k : Nat) (reg : Option Nat) (pkt : Pkt) : State :=
  let cid := s.cidOf k
  let b := stBerth (s.stall k).status
  let charter := if pkt.dev then 0 else s.app (berthIdx b) 0x04
  if !pkt.dev && charter = 0 then
    let fa := faddrOf pkt.dst pkt.addr
    match reg with
    | some r => s.refuseReg {} cid r { cause := cREFUSED, subcode := 0x01, info := r, remote := true, faddr := fa }
    | none => s.lateStore cid fa cREFUSED 0x01 true
  else
    match s.freeSlot with
    | none => s
    | some n =>
      { s.setSlot n (some { cid := cid, reg := reg, home := pkt.dst, pkt := { pkt with charter := charter, tag := n, src := s.nodeId, issuer := k },
                            tick := s.time, seqNo := s.seqNo, shed := shedOf k, berth := b }) with seqNo := s.seqNo + 1 }

end Sys2Proof.Machine
end

