-- ==== Sys2Proof/Machine/Syllable.lean ====
section
/-!
DEFINITION. What one syllable of a bundle does (chapters 03, 05, 06, 07, 08): every operation of Tables 4.3 to 4.6, over the
registers as they stood before the bundle.
-/

namespace Sys2Proof.Machine

/-- What a bundle reaches outside its core: control space (17 R407) with the windows' word and capability accesses, and whether
one must wait for its target (08 R197); the berth
heap's pair chunks (12 R272) with the minor cycle that a claim makes due (12 R280), and INVOKE's home side on this node (15 R358). -/
structure Ctl where
  stallWin : State → Nat → Bool
  waits : State → Nat → Nat → WinOp → Bool
  acc : State → Nat → Nat → WinOp → State × Except Fail Gran
  claim : State → Nat → State × Except Fail Gran
  claimed : State → Nat → State
  invoke : State → Nat → Gran → Gran → State × Except Exc Unit

/-- A bundle under way: the machine with its memory-side effects, the stall's registers as they will stand, the registers that
its syllables have written (`busy`), the flags raised (04 R80), and what ends the bundle. `post` is what control-space stores do once the
bundle has completed. -/
structure Run where
  s : State
  t : Stall
  busy : List Nat := []
  iflags : Nat := 0
  fflags : Nat := 0
  lcSet : Bool := false
  pcc : Option Gran := none
  trap : Option Exc := none
  ends : Bool := false
  post : State → State := id

/-- How a syllable ends: done, a fault (with the state whose translation caches and counters remain), not eligible yet, or
in need of a sequencer (09 R200). -/
inductive Res where
  | ok (r : Run)
  | fail (s : State) (f : Fail)
  | wait
  | micro

/-- Tag Fault on a register operand (rank 7). -/
def tagFail (sub : Nat) : Fail := ⟨7, { cause := cTAG, subcode := sub }⟩
def illegal : Fail := ⟨3, { cause := cILLEGAL }⟩
def fpUnavailable : Fail := ⟨5, { cause := cFPU }⟩

/-- 05 R90: an index operand. -/
def isIndex (w : TWord) : Bool := w.tag == tagFIX || w.tag == tagRAW

/-- A second source as a word. -/
def srcWord (t : Stall) : Src → TWord
  | .reg n => (t.getG n).lo
  | .imm v => TWord.fix v

/-- The exception of an operation that fails on its operands, with the tags it reports (05 R96, 06 R123). -/
def opFail (e : OpFail) (ta tb : BitVec 8) : Fail :=
  match e with
  | .generic => ⟨8, { cause := cGENERIC, taga := ta.toNat, tagb := tb.toNat }⟩
  | .overflow => ⟨16, { cause := cOVERFLOW }⟩
  | .divZero => ⟨16, { cause := cDIVZERO }⟩
  | .fpTrap sig => ⟨16, { cause := cFPTRAP, info := sig }⟩

/-- 08 R188: the float state of the stall is the context's own; the interrupt context never switches. -/
def floatHere (k cid : Nat) (t : Stall) : Bool := isS63 k || t.fowner == some cid

/-- A use of the float state (04 R77, 08 R188): FP_UNAVAILABLE with FEN 0, else the bundle waits for the switch. -/
def withFloat (k cid : Nat) (t0 : Stall) (s : State) (go : Res) : Res :=
  if !stFEN t0.status then .fail s fpUnavailable else if !floatHere k cid t0 then .wait else go

/-- Write a G register with a word, its flags raised. -/
def putOut (r : Run) (rd : Nat) (o : OpOut) : Res :=
  .ok { r with t := r.t.setW rd o.w, iflags := r.iflags ||| o.iflags, fflags := r.fflags ||| o.fflags }

def putW (r : Run) (rd : Nat) (w : TWord) : Res := .ok { r with t := r.t.setW rd w }
def putG (r : Run) (rd : Nat) (g : Gran) : Res := .ok { r with t := r.t.setG rd g }
def putP (r : Run) (pn : Nat) (b : Bool) : Res := .ok { r with t := r.t.setP pn b }

/-- Class A (04 Table 4.3). -/
def evalA (k cid : Nat) (t0 : Stall) (o : Op) (r : Run) : Option Res :=
  let w (n : Nat) : TWord := (t0.getG n).lo
  match o with
  | .gen op rd ra b =>
    let x := w ra
    let y := srcWord t0 b
    let unary := op == .neg || op == .abs
    let go : Res :=
      match gOp op t0.fstatus x y with
      | .ok out => putOut r rd out
      | .error e => .fail r.s (opFail e x.tag (if unary then 0 else y.tag))
    some (if gUsesFloat op x.tag y.tag then withFloat k cid t0 r.s go else go)
  | .raw op signed rd ra rb => some (putOut r rd (if signed then rawSigned op (w ra).val (w rb).val else rawUnsigned op (w ra).val (w rb).val))
  | .addi rd ra v => some (putOut r rd (rawSigned .add (w ra).val v))
  | .cmpG rel pn ra b =>
    let x := w ra
    let y := srcWord t0 b
    let go : Res :=
      match gCmp rel t0.fstatus x y with
      | .ok out => .ok { r with t := r.t.setP pn (out.w.val != 0), fflags := r.fflags ||| out.fflags }
      | .error e => .fail r.s (opFail e x.tag y.tag)
    some (if gUsesFloat .add x.tag y.tag then withFloat k cid t0 r.s go else go)
  | .cmpS rel pn ra b => some (putP r pn (relInt rel (w ra).val.toInt (srcWord t0 b).val.toInt))
  | .cmpU rel pn ra b => some (putP r pn (relInt rel ((w ra).val.toNat : Int) ((srcWord t0 b).val.toNat : Int)))
  | .logic op rd ra b => some (putOut r rd (logicOp op (w ra) (srcWord t0 b)))
  | .mov rd ra => some (putG r rd (t0.getG ra))
  | .tagof rd ra => some (putW r rd (TWord.fix (w64 (w ra).tag.toNat)))
  | .settag rd ra rb =>
    some (if !isIndex (w rb) then .fail r.s (tagFail 0x03)
      else match setTag (stPL t0.status) (w ra) (w rb).val with
        | .ok v => putW r rd v
        | .error 0 => .fail r.s (privFail 7 0x01)
        | .error sub => .fail r.s (tagFail sub))
  | .crc kk rd ra rb => some (putW r rd (TWord.raw (if kk then crcK (w ra).val (w rb).val else crcC (w ra).val (w rb).val)))
  | .par rd ra => some (putW r rd (TWord.raw (b2w (parity 64 (w ra).val))))
  | .brev by8 rd ra => some (putW r rd (TWord.raw (if by8 then brevB (w ra).val else brev (w ra).val)))
  | .li rd v => some (putW r rd (TWord.fix v))
  | .teqi ne pn ra tag => some (putP r pn (((w ra).tag.toNat == tag) != ne))
  | _ => none

/-- Class F (04 Table 4.5, chapter 06). -/
def evalF (k cid : Nat) (t0 : Stall) (o : Op) (r : Run) : Option Res :=
  let fl := withFloat k cid t0 r.s
  let rm := fsRM t0.fstatus
  let te := fsTE t0.fstatus
  let badTag : Res := .fail r.s (tagFail 0x06)
  let toF (rd : Nat) (tag : BitVec 8) (x : FRes) : Res :=
    match floOut tag te 0 x with
    | .ok out => .ok { r with t := r.t.setF rd out.w, fflags := r.fflags ||| out.fflags }
    | .error e => .fail r.s (opFail e 0 0)
  let toG (rd : Nat) (x : Word64 × Nat) : Res :=
    if fpTraps te x.2 then .fail r.s (opFail (.fpTrap x.2) 0 0)
    else .ok { r with t := r.t.setW rd (TWord.fix x.1), fflags := r.fflags ||| x.2 }
  match o with
  | .farith op single rd ra rb =>
    let f := if single then f32 else f64
    let a := t0.getF ra
    let b := t0.getF rb
    let d := t0.getF rd
    let unary := op == .fsqrt || op == .fabs || op == .fneg
    let ok := a.tag == fTag single && (unary || b.tag == fTag single) && (op != .fma || d.tag == fTag single)
    some (fl (if !ok then badTag else toF rd (fTag single) (fCompute f op rm (fNum single a) (fNum single b) (fNum single d))))
  | .fcmp single rel pn ra rb =>
    let a := t0.getF ra
    let b := t0.getF rb
    let c := (if single then f32 else f64).cmp rel (fNum single a) (fNum single b)
    some (fl (if !(a.tag == fTag single && b.tag == fTag single) then badTag
      else if fpTraps te c.2 then .fail r.s (opFail (.fpTrap c.2) 0 0)
      else .ok { r with t := r.t.setP pn c.1, fflags := r.fflags ||| c.2 }))
  | .fclass single rd ra =>
    let a := t0.getF ra
    some (fl (if a.tag != fTag single then badTag
      else putW r rd (TWord.fix (w64 ((if single then f32 else f64).classify (fNum single a))))))
  | .fcvt conv rd ra =>
    let g := (t0.getG ra).lo
    let a := t0.getF ra
    some (fl (match conv with
      | 0 => if g.tag != tagFIX then badTag else toF rd tagFLO (f64.ofFix rm g.val)
      | 1 => if a.tag != tagFLO then badTag else toG rd (f64.toFix rm a.val.toNat)
      | 2 => if a.tag != tagFLO then badTag else toF rd tagRAW (cvt64to32 rm a.val.toNat)
      | 3 => if a.tag != tagRAW then badTag else toF rd tagFLO (cvt32to64 (fNum true a))
      | 4 => if g.tag != tagFIX then badTag else toF rd tagRAW (f32.ofFix rm g.val)
      | _ => if a.tag != tagRAW then badTag else toG rd (f32.toFix rm (fNum true a))))
  | .fmovGF rd ra => some (fl (.ok { r with t := r.t.setF rd (t0.getG ra).lo.noCap }))
  | .fmovFG rd ra => some (fl (putW r rd (t0.getF ra)))
  | _ => none

/-- The capability operations of class M that reach no memory (03 Table 3.6). -/
def evalCap (t0 : Stall) (o : Op) (r : Run) : Option Res :=
  let g (n : Nat) : Gran := t0.getG n
  let w (n : Nat) : TWord := (g n).lo
  let run (e : Except Fail Res) : Res := match e with | .ok x => x | .error f => .fail r.s f
  let derive (ra : Nat) (f : Cap → Except Fail Res) : Res :=
    match useCap (g ra) with | .ok c => run (f c) | .error e => .fail r.s e
  let intArg (b : Src) (f : Word64 → Res) : Res :=
    let x := srcWord t0 b
    if !isIndex x then .fail r.s (tagFail 0x03) else f x.val
  match o with
  | .cget what rd ra =>
    let c := Cap.ofGran (g ra)
    some (if !(g ra).isCap then .fail r.s (capFail 9 cfVALID 0 (g ra))
      else match what with
        | .addr => putW r rd (TWord.raw (w ra).val)
        | .perms => putW r rd (TWord.fix (w64 c.perms.toNat))
        | .kind => putW r rd (TWord.fix (w64 c.kind))
        | .ver => putW r rd (TWord.fix (w64 c.ver))
        | .otype => putW r rd (TWord.fix (w64 c.otype))
        | _ =>
          if !c.wf then .fail r.s (capFail 9 cfFORM 0 (g ra))
          else putW r rd (TWord.fix (w64 (16 * (match what with | .base => c.base | .top => c.top | _ => c.top - c.base)))))
  | .ctest rd ra => some (putW r rd ⟨tagBOOL, b2w (g ra).isCap⟩)
  | .cseta rd ra rb =>
    some (intArg (.reg rb) (fun n => derive ra (fun c => .ok (putG r rd (c.withAddr (n.toNat % 2 ^ 48 : Nat))))))
  | .cinca rd ra b => some (intArg b (fun n => derive ra (fun c => .ok (putG r rd (c.withAddr (c.addr + n.toInt))))))
  | .csetb round rd ra b =>
    some (intArg b (fun n => derive ra (fun c =>
      let q := c.reqBounds n.toNat
      let exact := c.addr % 16 == 0 && n.toNat % 16 == 0 && q.2.1 == q.2.2.2.1 && q.2.2.1 == q.2.2.2.2
      if !round && !exact then .error (capFail 9 cfREPRESENT 0 (g ra))
      else if q.2.1 < c.base || q.2.2.1 > c.top then .error (capFail 10 cfBOUNDS 0 (g ra))
      else .ok (putG r rd (c.encBounds q.1 q.2.1 q.2.2.1).toGran))))
  | .cfit align rd ra =>
    some (if !isIndex (w ra) then .fail r.s (tagFail 0x03)
      else
        let n := (w ra).val.toInt
        if n < 0 || n > 2 ^ 48 then .fail r.s (capFail 9 cfREPRESENT 0 (g ra))
        else putW r rd (TWord.fix (w64 (if align then cfitaln n.toNat else cfitlen n.toNat))))
  | .candp rd ra b => some (intArg b (fun m => derive ra (fun c => .ok (putG r rd (c.andPerms (m.setWidth 12)).toGran))))
  | .cfreeze rd ra => some (derive ra (fun c => .ok (putG r rd c.freeze.toGran)))
  | .csetk rd ra kind =>
    some (derive ra (fun c =>
      if kindPath c.kind kind (16 * (c.top - c.base)) then .ok (putG r rd ({ c with kind := kind } : Cap).toGran)
      else .error (capFail 9 cfKIND 0 (g ra))))
  | .csetv rd ra rb =>
    let c := Cap.ofGran (g ra)
    let f (sub : Nat) := capFail 9 sub 0 (g ra)
    some (intArg (.reg rb) (fun v => run (do
      firstFail [((g ra).isCap, f cfVALID), (c.wf, f cfFORM), (decide (1 ≤ v.toNat) && decide (v.toNat ≤ 14), f cfFORM), (c.otype == 0, f cfSEALED),
        (c.ver == 0, f cfUNVERSIONED)]
      pure (putG r rd ({ c with ver := v.toNat } : Cap).toGran))))
  | .cseal rd ra rb =>
    let c := Cap.ofGran (g ra)
    let kk := Cap.ofGran (g rb)
    let vA := capFail 9 cfVALID 0 (g ra)
    some (run (do
      firstFail [((g ra).isCap, vA), ((g rb).isCap, capFail 9 cfVALID 0 (g rb)), (c.wf, capFail 9 cfFORM 0 (g ra)),
        (kk.wf, capFail 9 cfFORM 0 (g rb)), (c.otype == 0, capFail 9 cfSEALED 0 (g ra)), (kk.otype == 0, capFail 9 cfSEALED 0 (g rb)),
        (kk.has pSEAL, capFail 9 cfPERM pSEAL (g rb)),
        (kk.isKey && decide (1 ≤ kk.base) && decide (kk.base ≤ 4095), capFail 9 cfOTYPE 0 (g rb))]
      pure (putG r rd ({ c with otype := kk.base } : Cap).toGran)))
  | .cunseal rd ra rb =>
    let c := Cap.ofGran (g ra)
    let kk := Cap.ofGran (g rb)
    some (run (do
      firstFail [((g ra).isCap, capFail 9 cfVALID 0 (g ra)), ((g rb).isCap, capFail 9 cfVALID 0 (g rb)),
        (c.wf, capFail 9 cfFORM 0 (g ra)), (kk.wf, capFail 9 cfFORM 0 (g rb)), (kk.otype == 0, capFail 9 cfSEALED 0 (g rb)),
        (c.otype != 0, capFail 9 cfUNSEALED 0 (g ra)), (kk.has pUNSEAL, capFail 9 cfPERM pUNSEAL (g rb)),
        (kk.isKey && kk.base == c.otype, capFail 9 cfOTYPE 0 (g rb))]
      pure (putG r rd ({ c with otype := 0, perms := if kk.has pGLOBAL then c.perms else c.perms &&& ~~~0x004#12 } : Cap).toGran)))
  | _ => none

end Sys2Proof.Machine
end

