-- ==== Sys2Proof/Machine/Memops.lean ====
section
/-!
DEFINITION. Loads, stores, atomics, FILL, list operations, FENCE and the version operations of one syllable (chapters 03,
05, 10, 12, 15), local and remote.
-/

namespace Sys2Proof.Machine

/-! ### What must be performed first (10 R241–R248) -/

/-- A waiter that is a read of this node, and what makes a kind of read an atomic. -/
def Waiter.isRead (w : Waiter) : Bool := match w.kind with | .remote _ => false | _ => true
def WaitKind.isFadd : WaitKind → Bool
  | .fadd .. => true
  | _ => false

/-- A remote read that may be found waiting at its home: it is an acquire read once a fill completes it (10 R246). -/
def Slot.mayWait (x : Slot) : Bool := !x.pkt.dev && (x.pkt.pt == ptLOAD || x.pkt.pt == ptFADD)

/-- A later access waits while an acquire read of the context is not performed (10 R244–R246): a read that waits or is retried, a remote acquire
operation, or a remote read that may yet be found waiting. DESIGN CHOICE (log entry 107) for the last: the spec leaves two accesses to different
words unordered, and an order must be kept from the first where it proves to be an acquire read; the model keeps it for every such read. -/
def State.acquireOpen (s : State) (cid : Nat) : Bool :=
  s.waiters.any (fun w => w.cid == cid && w.isRead) || s.ops.any (fun o => o.cid == cid && o.poll.isSome) ||
    s.slots.any (fun e => match e.2 with | some x => x.cid == cid && (x.acq || x.st == .exempt || x.mayWait) | none => false)

/-- Stores of a context that are not performed: buffered anywhere, remote, or an atomic that waits or is retried. -/
def State.storesOpen (s : State) (cid : Nat) : Bool :=
  s.cores.any (fun e => e.2.hasStores cid) || s.waiters.any (fun w => w.cid == cid && w.kind.isFadd) ||
    s.ops.any (fun o => o.cid == cid && (match o.poll with | some p => p.2.isFadd | none => false)) ||
    s.slots.any (fun e => match e.2 with | some x => x.cid == cid && x.pkt.pt != ptLOAD | none => false)

/-- Reads of a context that are not performed: waiting, retried, remote. -/
def State.readsOpen (s : State) (cid : Nat) : Bool :=
  s.waiters.any (fun w => w.cid == cid && w.isRead) || s.ops.any (fun o => o.cid == cid && o.poll.isSome) ||
    s.slots.any (fun e => match e.2 with | some x => x.cid == cid && x.pkt.pt != ptSTORE && x.pkt.pt != ptFILL | none => false)

/-- Every earlier access of the context has been performed. -/
def State.allPerformed (s : State) (cid : Nat) : Bool := !s.storesOpen cid && !s.readsOpen cid

/-- Who issues: a stall and its context. -/
structure Me where
  k : Nat
  cid : Nat
  berth : Nat
  who : Who
  t0 : Stall

/-- An access is not issued yet: an acquire read is open, or every memory-operation slot of the core is taken (08 R171). -/
def accessWaits (me : Me) (s : State) : Bool := s.acquireOpen me.cid || s.memFull me.who.core

/-- The origin of an access of this core through slot `g` at `va`. -/
def Me.origin (me : Me) (g : Gran) (va : Int) : Origin := { core := me.who.core, faddr := faddrOf (Cap.ofGran g).node va, fcap := g }

/-- A destination register becomes pending (04 R85); G0 never does. DESIGN CHOICE (log entry 108): a waiting read whose RD is G0 has no register to
be pending, and R106 does not say how its stall waits; the stall goes on, and the read stays open for the orders of chapter 10. -/
def Run.await (r : Run) (rd : Nat) : Run := if rd = 0 then r else { r with t := { r.t with pend := maskSet r.t.pend rd } }

/-- A result on its way to RD: the register becomes pending (04 R85, 08 R180). A result for G0 is discarded. -/
def deliver (me : Me) (r : Run) (rd : Nat) (v : Gran) : Res :=
  if rd = 0 then .ok r else .ok ({ r with s := r.s.result me.who.core me.cid rd v }.await rd)

/-- The register that named the original is rewritten where a forward was followed (12 R284), unless the bundle writes it too (04 R72). -/
def healed (r : Run) (ra : Nat) (heal : Option Gran) : Run :=
  match heal with | some g => if r.busy.contains ra then r else { r with t := r.t.setG ra g } | none => r

/-- The kinds memory may be read and written through, DEVICE apart (03 R39). -/
def loadKind (k : Nat) : Bool := kindLoads k || k == kDEVICE
def storeKind (k : Nat) : Bool := kindStores k || k == kDEVICE

/-- The address of a load or store: ADDR plus the offset (04 R75). -/
def effAddr (t0 : Stall) (ra : Nat) (off : Src) : Int := (Cap.ofGran (t0.getG ra)).addr + (srcWord t0 off).val.toInt

/-- The operation in a remote slot is an acquire one. -/
def State.markAcq (s : State) (n : Nat) (acq : Bool) : State := match s.slot n with | some x => s.setSlot n (some { x with acq := acq }) | none => s

/-- An access through a DEVICE capability (03 R40): KIND, SYS then LD or ST, alignment and bounds; then control space, or a
remote access with DEV set, an acquire one where `acq` (10 R249). Capability accesses are the stall window's alone. -/
def devAccess (ctl : Ctl) (me : Me) (r : Run) (g : Gran) (va : Int) (op : WinOp) (rd : Nat) (acq : Bool := false) : Res :=
  let c := Cap.ofGran g
  let wr := match op with | .stw _ | .stc _ => true | _ => false
  let cap := match op with | .ldc | .stc _ => true | _ => false
  let f (rank sub info : Nat) := accFail rank cCAP sub info g va
  let far := !r.s.isLocal c.node
  let size : Nat := if cap then 16 else 8
  match firstFail [(g.isCap, capFail 9 cfVALID 0 g), (c.wf, f 9 cfFORM 0), (c.otype == 0, f 9 cfSEALED 0),
      (!cap || (!far && ctl.stallWin r.s va.toNat), f 9 cfKIND 0), (c.has pSYS, f 9 cfPERM pSYS),
      (c.has (if wr then pST else pLD), f 9 cfPERM (if wr then pST else pLD)),
      (va % (size : Int) == 0, accFail 10 cMISALIGNED 0 0 g va), (c.inBounds va size, f 10 cfBOUNDS 0)] with
  | .error e => .fail r.s e
  | .ok _ =>
    if accessWaits me r.s || (!far && ctl.waits r.s me.k va.toNat op) then .wait
    else if far then
      if r.s.freeSlot.isNone then .wait
      else
        let n := r.s.freeSlot.getD 0
        let pkt : Pkt := { pt := if wr then ptSTORE else ptLOAD, dst := c.node, src := 0, ver := 0, dev := true, addr := va.toNat,
                           cgs := match op with | .stw w => [CG.of (Gran.ofWord w)] | _ => [] }
        if wr then .ok { r with s := r.s.remoteIssue me.k none pkt }
        else .ok ({ r with s := (r.s.remoteIssue me.k (some rd) pkt).markAcq n acq }.await rd)
    else
      let a := ctl.acc r.s me.k va.toNat op
      match a.2 with
      | .error e => .fail a.1 (if e.exc.cause = cCAP then e else { e with exc := { e.exc with faddr := faddrOf c.node va, fcap := g } })
      | .ok v =>
        .ok { r with t := if wr then r.t else r.t.setG rd v, post := fun s => (ctl.acc (r.post s) me.k va.toNat op).1 }

/-- 03 R59: a capability without GLOBAL never leaves the node. -/
def localFail (xs : List Gran) : List (Bool × Fail) :=
  xs.map (fun x => (!x.isCap || (Cap.ofGran x).has pGLOBAL, capFail 9 cfLOCAL 0 x))

/-- The same for what an access through slot `g` would send. -/
def farFail (s : State) (g : Gran) (xs : List Gran) : List (Bool × Fail) := if s.isLocal (Cap.ofGran g).node then [] else localFail xs

/-- A remote request of a bundle (15 R350, R353): a slot must be free; capabilities it carries are entered in the export
table first, or QUOTA_FAULT EXPORT is raised (12 R292). -/
def sendRemote (me : Me) (r : Run) (reg : Option Nat) (pkt : Pkt) (carried : List Gran) (acq : Bool) : Res :=
  if r.s.freeSlot.isNone then .wait
  else
    match r.s.exportCaps me.berth pkt.dst carried with
    | none => .fail r.s ⟨17, { cause := cQUOTA, subcode := 0x04 }⟩
    | some s =>
      let n := s.freeSlot.getD 0
      let s := s.remoteIssue me.k reg { pkt with cgs := carried.map (fun x => CG.of (s.capOut x)) }
      let r := { r with s := s.markAcq n acq }
      .ok (match reg with | some rd => r.await rd | none => r)

/-- 10 R233: a copy that a load through an IMMUT capability of another node hits: its granule, where its VER agrees and the
word is not one that goes to the home. A VER mismatch drops the copy, and so does its age (IMMUT_TTL). -/
def State.copyHit (s : State) (shed node charter ver va : Nat) : State × Option Gran :=
  let h := s.shed shed
  match h.copies.find? (fun c => c.node == node && c.charter == charter && c.vline == va / 64) with
  | none => (s, none)
  | some c =>
    let i := va / 16 % 4
    if h.immutTtl = 0 || decide (c.made + h.immutTtl < s.time) || (ver != 0 && (listAt c.vers i).getD 0 != ver) then (s.setShed shed { h with copies := h.copies.filter (· != c) }, none)
    else
      match listAt c.grans i with
      | some g => if g.isFwd || (g.word (va % 16 ≥ 8)).isSync then (s, none) else (s, some g)
      | none => (s, none)

/-- What a load asks for. -/
inductive LoadKind where
  | word
  | cap
  | pair
  deriving DecidableEq, Repr

def LoadKind.wait : LoadKind → WaitKind
  | .word => .ldw
  | .cap => .ldc
  | .pair => .pair

/-- The read of a load's granule (05 Tables 5.4 and 5.5, R110). -/
def LoadKind.read (lk : LoadKind) (g : Gran) (hi : Bool) : ReadOut :=
  match lk with
  | .word => readWord g hi true
  | .cap => readGran g true
  | .pair => readPair g

/-- The right that CAR and CDR need for the slot they read (05 R110), at rank 14. -/
def pairFail (g : Gran) (va : Nat) (x : Gran) : Option Fail :=
  let p := if x.isCap then pLDC else pLD
  if (Cap.ofGran g).has p then none else some (accFail 14 cCAP cfPERM p g va)

/-- A capability that a load brings is rebased, in place too (12 Table 12.6); a context's own buffered store is not yet in memory. -/
def rebaseLoaded (me : Me) (s : State) (loc : Loc) (m : MGran) (own v : Gran) : State × Gran :=
  let x := if v.isCap then s.rebased me.berth v else (s, v)
  if x.2 = v || own != m.g then x
  else ((x.1.touchWrite (shedOfCore me.who.core) me.who.core me.berth (loc.pa / 64) (loc.pa / 16 % 4)).writePA loc.pa (m.setGran x.2), x.2)

/-- A load after its register checks, local or remote (05 R103–R106, R110; 12 Table 12.6). A local one that meets a forwarding granule runs
FWD_FOLLOW (09 Table 9.7). For CAR and CDR the right needed follows from the slot read, at rank 14. -/
def loadAt (me : Me) (micro : Bool) (r : Run) (lk : LoadKind) (acq : Bool) (rd ra : Nat) (c : Cap) (va : Nat) : Res :=
  let g := me.t0.getG ra
  let hi := decide (va % 16 ≥ 8)
  if accessWaits me r.s then .wait
  else if !r.s.isLocal c.node then
    let shed := shedOf me.k
    let hit := if c.has pIMMUT then r.s.copyHit shed c.node (r.s.app (berthIdx me.berth) 0x04) c.ver va else (r.s, none)
    match hit.2 with
    | some x =>
      (match (if lk == .pair then pairFail g va x else none), lk.read x hi with
        | some f, _ => .fail hit.1 f
        | none, .value v => deliver me { r with s := hit.1 } rd v
        | none, .bad sub => .fail hit.1 (accFail 14 cTAG sub 0 g va)
        | none, .wait => .fail hit.1 (accFail 14 cTAG 1 0 g va))
    | none =>
      let covers := c.has pIMMUT && decide (16 * c.base ≤ va / 64 * 64) && decide (va / 64 * 64 + 64 ≤ 16 * c.top) && lk != .pair
      sendRemote me { r with s := hit.1 } (some rd)
        { pt := ptLOAD, dst := c.node, src := 0, ver := c.ver, cap := lk == .cap, line := covers, list := lk == .pair, addr := va,
          param := if lk == .pair then b2n (c.has pLD) + 2 * b2n (c.has pLDC) else 0 } [] acq
  else
    let l := r.s.land me.who.core me.berth g va
    match l.2 with
    | .error f => .fail l.1 f
    | .ok loc =>
      if loc.heal.isSome && !micro then .micro
      else
        match loc.m with
        | .error e => .fail l.1 (busFail g va e)
        | .ok m =>
          let own := l.1.ownView me.who.core me.cid loc.pa m.g
          let s0 := if l.1.inL1 me.who.core (loc.pa / 64) then l.1
            else l.1.trainStream me.k (Cap.ofGran me.t0.pcc).addr va me.berth (16 * c.base) (16 * c.top) c.ver
          let s1 := (s0.touchRead (shedOfCore me.who.core) me.berth (loc.pa / 64) (loc.pa / 16 % 4)).touchL1 me.who.core (loc.pa / 64) false
          let r1 := healed { r with s := s1 } ra loc.heal
          match (if lk == .pair then pairFail g va own else none), lk.read own hi with
          | some f, _ => .fail s1 f
          | none, .bad sub => .fail s1 (accFail 14 cTAG sub 0 g va)
          | none, .wait =>
            let pa := loc.pa + (if lk != LoadKind.cap && hi then 8 else 0)
            .ok ({ r1 with s := r1.s.register (me.origin g va) me.cid rd pa lk.wait (own.word (lk != LoadKind.cap && hi)) }.await rd)
          | none, .value v =>
            let x := rebaseLoaded me r1.s loc m own v
            deliver me { r1 with s := x.1 } rd x.2

/-- A load through RA at `va` (05 R103). -/
def evalLoad (ctl : Ctl) (me : Me) (micro : Bool) (r : Run) (lk : LoadKind) (acq : Bool) (rd ra : Nat) (off : Src) : Res :=
  let g := me.t0.getG ra
  let va := effAddr me.t0 ra off
  match off with
  | .reg n =>
    if !isIndex (me.t0.getG n).lo then .fail r.s (tagFail 0x03) else go g va
  | .imm _ => go g va
where
  go (g : Gran) (va : Int) : Res :=
    if g.isCap && (Cap.ofGran g).kind == kDEVICE then devAccess ctl me r g va (if lk == .cap then .ldc else .ldw) rd acq
    else
      match checkAccess g va (if lk == .cap then 16 else 8) kindLoads [if lk == .cap then pLDC else pLD] with
      | .error e => .fail r.s e
      | .ok c => loadAt me micro r lk acq rd ra c va.toNat

/-- The permissions of a store: ST for a word, STC for a capability store and STLC where the capability lacks GLOBAL (03 R58). -/
def storePerms (cap : Bool) (v : Gran) : List Nat :=
  (if cap then [pSTC] else [pST]) ++ (if v.isCap && cap && !(Cap.ofGran v).has pGLOBAL then [pSTLC] else [])

/-- A store after its checks (05 R105, R111; 10 R224): into the merging buffer, to another node, or, where its barrier is the routine SATB_BAR or
CARD_BAR (09 Table 9.7), by that routine, past the buffer, as byte codes store (`direct`). `whole` stores the granule, `v` the slot; a word store takes the low word. -/
def storeAt (me : Me) (micro direct : Bool) (r : Run) (whole list release : Bool) (ra : Nat) (c : Cap) (va : Nat) (v : Gran) : Res :=
  let g := me.t0.getG ra
  if accessWaits me r.s || (release && !r.s.isLocal c.node && !r.s.allPerformed me.cid) then .wait
  else if !r.s.isLocal c.node then
    let x := if whole then v else Gran.ofWord v.lo.noCap
    sendRemote me r none { pt := ptSTORE, dst := c.node, src := 0, ver := c.ver, cap := whole && v.isCap || (whole && !list), list := list, addr := va } [x] false
  else
    let l := r.s.land me.who.core me.berth g va
    match l.2 with
    | .error f => .fail l.1 f
    | .ok loc =>
      let core := me.who.core
      let line := loc.pa / 64
      let old := match loc.m with | .ok m => l.1.ownView core me.cid loc.pa m.g | .error _ => Gran.zero
      let routine := direct || (whole && v.isCap && l.1.barrierNeeded me.berth loc.va old v)
      if routine && !micro then .micro
      else if (routine && release && !l.1.allPerformed me.cid) || (!routine && !(l.1.core core).bufferRoom line) then .wait
      else
        let b := if whole && v.isCap then l.1.storeBarrier me.berth loc.va old v me.who.unscanned false
                 else (l.1.wordBarrier me.berth old, if whole then ⟨v.lo.noCap, v.hi.noCap⟩ else Gran.ofWord v.lo.noCap)
        let st : BufStore := { gi := loc.pa / 16 % 4, hi := !whole && decide (va % 16 ≥ 8), whole := whole, g := b.2, cids := [me.cid],
                               release := release, seqNo := b.1.seqNo, va := faddrOf c.node va, berth := me.berth }
        let s := if routine then (b.1.flushOwn core me.cid loc.pa).drainStores core line [st] else (b.1.updCore core (fun x => x.bufferStore line st)).tickSeq
        .ok (healed { r with s := s } ra loc.heal)

/-- STW, STC and their release forms (05 R103). -/
def evalStore (ctl : Ctl) (me : Me) (micro : Bool) (r : Run) (cap release : Bool) (rd ra : Nat) (off : Src) : Res :=
  let g := me.t0.getG ra
  let v := me.t0.getG rd
  let va := effAddr me.t0 ra off
  match off with
  | .reg n => if !isIndex (me.t0.getG n).lo then .fail r.s (tagFail 0x03) else go g v va
  | .imm _ => go g v va
where
  go (g v : Gran) (va : Int) : Res :=
    if g.isCap && (Cap.ofGran g).kind == kDEVICE then
      if release && !r.s.allPerformed me.cid then .wait else devAccess ctl me r g va (if cap then .stc v else .stw v.lo.noCap) 0
    else
      match checkAccess g va (if cap then 16 else 8) kindStores (storePerms cap v) (if cap then farFail r.s g [v] else []) with
      | .error e => .fail r.s e
      | .ok c => storeAt me micro false r cap false release ra c va.toNat v

/-! ### Atomics and FILL (05 R108) -/

/-- A local atomic's granule: translated, versions compared, own buffered stores performed first, read precisely. A line in the shed's victim
buffer waits for its acknowledgement (10 R231). -/
def atomicAt (me : Me) (r : Run) (ra : Nat) (va : Nat) (f : State → Loc → MGran → Res) : Res :=
  let g := me.t0.getG ra
  let l := r.s.landOwn me.who g va
  match l.2 with
  | .error e => .fail l.1 e
  | .ok loc =>
    if (l.1.shed (shedOfCore me.who.core)).victims.contains (loc.pa / 64) then .wait
    else
      match loc.m with
      | .error e => .fail l.1 (busFail g va e)
      | .ok m => f l.1 loc m

/-- CAS and CAS.C. A word of a capability register keeps its tag as the value expected (05 R89), here and at the home node. -/
def evalCas (me : Me) (r : Run) (cap : Bool) (rd ra rb : Nat) : Res :=
  let g := me.t0.getG ra
  let c := Cap.ofGran g
  let va : Int := c.addr
  let exp := me.t0.getG rd
  let new := me.t0.getG rb
  let f (rank sub info : Nat) := accFail rank cCAP sub info g va
  let perms := if cap then [pLDC, pSTC] ++ (if (Cap.ofGran new).has pGLOBAL then [] else [pSTLC]) else [pLD, pST]
  let size : Nat := if cap then 16 else 8
  let far := !r.s.isLocal c.node
  match firstFail ([(g.isCap, capFail 9 cfVALID 0 g), (!cap || new.isCap, capFail 9 cfVALID 0 new), (c.wf, f 9 cfFORM 0), (c.otype == 0, f 9 cfSEALED 0),
      (kindStores c.kind, f 9 cfKIND 0)] ++ perms.map (fun p => (c.has p, f 9 cfPERM p)) ++ (if far && cap then localFail [new, exp] else []) ++
      [(va % (size : Int) == 0, accFail 10 cMISALIGNED 0 0 g va), (c.inBounds va size, f 10 cfBOUNDS 0)]) with
  | .error e => .fail r.s e
  | .ok _ =>
    if accessWaits me r.s || !r.s.allPerformed me.cid then .wait
    else if far then
      let x := if cap then [exp, new] else [Gran.ofWord exp.lo, Gran.ofWord new.lo.noCap]
      sendRemote me r (some rd) { pt := ptCAS, dst := c.node, src := 0, ver := c.ver, cap := cap, addr := va.toNat } x true
    else
      atomicAt me r ra va.toNat (fun s loc m =>
        let hi := decide (va.toNat % 16 ≥ 8)
        match (if cap then readGran m.g false else readWord m.g hi false) with
        | .value old =>
          let x := if cap then s.rebased me.berth old else (s, old)
          let s := x.1
          let old' := x.2
          let same := if cap then old' == exp else old.lo == exp.lo
          let s' := if !same then (if old' = old then s else s.perform me.who.core me.berth loc.pa m old')
            else if cap then
              let b := s.storeBarrier me.berth loc.va m.g new me.who.unscanned false
              b.1.perform me.who.core me.berth loc.pa m b.2
            else (s.wordBarrier me.berth m.g).perform me.who.core me.berth loc.pa m (m.g.writeWord hi new.lo.noCap)
          deliver me (healed { r with s := s' } ra loc.heal) rd old'
        | _ => .fail s (accFail 14 cTAG 1 0 g va))

/-- FSTATUS of a context: in the stall whose float state it owns, else in its frame (08 R188, Table 8.6). -/
def State.fstatusOf (s : State) (k cid : Nat) : State × Nat :=
  if isS63 k then (s, (s.stall k).fstatus)
  else
    match s.stalls.find? (fun e => e.2.fowner == some cid) with
    | some e => (s, e.2.fstatus)
    | none =>
      let r := s.frameAt (shedOf k) cid 0x280
      (r.1, match r.2 with | .ok (_, m) => fsLoad m.g.lo.val.toNat | .error _ => 0)

/-- FADD.G. A FLO addend makes it a use of the float state where the memory word is not known yet (04 R77); otherwise the FSTATUS that a remote or
waiting sum needs is the context's, wherever it is (06 R124). -/
def evalFadd (me : Me) (r : Run) (rd ra rb : Nat) : Res :=
  let g := me.t0.getG ra
  let c := Cap.ofGran g
  let va : Int := c.addr
  let x := (me.t0.getG rb).lo
  let later (s : State) (go : State → Nat → Res) : Res :=
    if x.tag == tagFLO then withFloat me.k me.cid me.t0 s (go s me.t0.fstatus)
    else let f := s.fstatusOf me.k me.cid; go f.1 f.2
  match checkAccess g va 8 kindStores [pLD, pST] with
  | .error e => .fail r.s e
  | .ok _ =>
    if accessWaits me r.s then .wait
    else if !r.s.isLocal c.node then
      later r.s (fun s fs => sendRemote me { r with s := s } (some rd)
        { pt := ptFADD, dst := c.node, src := 0, ver := c.ver, addr := va.toNat, param := fsRM fs + 8 * fsTE fs } [Gran.ofWord x] false)
    else
      atomicAt me r ra va.toNat (fun s loc m =>
        let hi := decide (va.toNat % 16 ≥ 8)
        match readWord m.g hi true with
        | .bad sub => .fail s (accFail 14 cTAG sub 0 g va)
        | .wait =>
          later s (fun s fs =>
            let s := s.register (me.origin g va) me.cid rd (loc.pa + (if hi then 8 else 0)) (.fadd x fs) (m.g.word hi)
            .ok (healed ({ r with s := s }.await rd) ra loc.heal))
        | .value old =>
          let go : Res :=
            match gOp .add me.t0.fstatus old.lo x with
            | .error e => .fail s (opFail e old.lo.tag x.tag)
            | .ok out =>
              let s' := (s.wordBarrier me.berth m.g).perform me.who.core me.berth loc.pa m (m.g.writeWord hi out.w)
              deliver me (healed { r with s := s', fflags := r.fflags ||| out.fflags } ra loc.heal) rd old
          if gUsesFloat .add old.lo.tag x.tag then withFloat me.k me.cid me.t0 s go else go)

/-- FILL. -/
def evalFill (me : Me) (r : Run) (rd ra rb : Nat) : Res :=
  let g := me.t0.getG ra
  let v := me.t0.getG rd
  let va := effAddr me.t0 ra (.reg rb)
  if !isIndex (me.t0.getG rb).lo || (!v.isCap && v.lo.isSync) then .fail r.s (tagFail 0x03)
  else
    match checkAccess g va (if v.isCap then 16 else 8) kindStores
        ([pST] ++ (if v.isCap then storePerms true v else [])) (farFail r.s g [v]) with
    | .error e => .fail r.s e
    | .ok c =>
        if accessWaits me r.s || !r.s.allPerformed me.cid then .wait
        else if !r.s.isLocal c.node then
          sendRemote me r (some rd) { pt := ptFILL, dst := c.node, src := 0, ver := c.ver, cap := v.isCap, addr := va.toNat } [v] false
        else
          atomicAt me r ra va.toNat (fun s loc m =>
            let hi := decide (va.toNat % 16 ≥ 8)
            let w := m.g.word hi
            if !tagDefined w.tag then .fail s (accFail 14 cTAG 1 0 g va)
            else if !w.isSync then .fail s (accFail 14 cTAG 4 0 g va)
            else if v.isCap then
              let b := s.storeBarrier me.berth loc.va m.g v me.who.unscanned false
              .ok (healed { r with s := b.1.perform me.who.core me.berth loc.pa m b.2 } ra loc.heal)
            else
              .ok (healed { r with s := (s.wordBarrier me.berth m.g).perform me.who.core me.berth loc.pa m (m.g.writeWord hi v.lo.noCap) } ra loc.heal))

/-! ### Versions (03 R55, R56) -/

/-- A granule whose VER an operation reads or sets: where it lies, its forward followed (12 R284), the VER there, and the VER that a capability to it
must have: of the original, where the copy still has the forward's. -/
structure VerLoc where
  va : Nat
  pa : Nat
  ver : Nat
  named : Option Nat
  heal : Option Gran
  deriving DecidableEq, Repr

def State.landVer (s : State) (w : Who) (g : Gran) (va : Nat) : State × Except Fail VerLoc :=
  let at_ (s : State) (pa : Nat) (go : Nat → State × Except Fail VerLoc) : State × Except Fail VerLoc :=
    match s.verAt pa with
    | none => (s, .error (busFail g va (if (s.locate pa).isNone then beNOTARGET else beUNC)))
    | some v => go v
  let t := s.transData w.core w.berth g va
  match t.2 with
  | .error e => (t.1, .error e)
  | .ok pa0 =>
    at_ t.1 (pa0 / 16 * 16) (fun v =>
      let m := t.1.readPA (shedOfCore w.core) (pa0 / 16 * 16)
      let fwd := match m.2 with | .ok m => if m.g.isFwd then some (Cap.ofGran m.g) else none | .error _ => none
      match fwd with
      | none => (m.1, .ok ⟨va, pa0 / 16 * 16, v, some v, none⟩)
      | some f =>
        let t2 := m.1.transData w.core w.berth g (f.addr / 16 * 16)
        match t2.2 with
        | .error e => (t2.1, .error e)
        | .ok pa2 =>
          at_ t2.1 (pa2 / 16 * 16) (fun v2 =>
            (t2.1, .ok ⟨va, pa2 / 16 * 16, v2, if v2 = f.ver then some v else none,
              some (capRebase (Cap.ofGran g) ((f.addr / 16 : Int) - (va / 16 : Int)) f.ver).toGran⟩)))

/-- The `n` granules from `va`, with the faults met. -/
def State.landVers (s : State) (w : Who) (g : Gran) : Nat → Nat → State × List Fail × List VerLoc
  | 0, _ => (s, [], [])
  | n + 1, va =>
    let l := s.landVer w g va
    let r := l.1.landVers w g n (va + 16)
    match l.2 with
    | .error f => (r.1, f :: r.2.1, r.2.2)
    | .ok x => (r.1, r.2.1, x :: r.2.2)

/-- The granules of a capability for an operation on their VERs, with the fault of lowest rank: `bad` names those it may not meet. -/
def State.overGrans (s : State) (w : Who) (g : Gran) (sub : Nat) (bad : VerLoc → Bool) : State × Except Fail (List VerLoc) :=
  let c := Cap.ofGran g
  let l := s.landVers w g (c.top - c.base) (16 * c.base)
  match firstRank (l.2.1 ++ (l.2.2.filter bad).map (fun x => accFail 13 cCAP sub 0 g x.va)) with
  | some f => (l.1, .error f)
  | none => (l.1, .ok l.2.2)

/-- Set the VER of each granule. -/
def State.setVers (s : State) (w : Who) (f : VerLoc → Nat) (l : List VerLoc) : State :=
  l.foldl (fun s x =>
    if f x = x.ver then s
    else (s.touchWrite (shedOfCore w.core) w.core w.berth (x.pa / 64) (x.pa / 16 % 4)).writePA x.pa { s.rawAt x.pa with ver := BitVec.ofNat 4 (f x) }) s

/-- The rebased capability of the first granule that was forwarded (12 R284). -/
def healVer (l : List VerLoc) : Option Gran := (l.filterMap (·.heal)).head?

/-- R55 and R56's conditions on rs: VALID, FORM, SEALED, PERM, UNVERSIONED, REMOTE. -/
def checkVersioned (s : State) (g : Gran) (versioned : Bool) : Except Fail Cap :=
  let c := Cap.ofGran g
  match firstFail [(g.isCap, capFail 9 cfVALID 0 g), (c.wf, capFail 9 cfFORM 0 g), (c.otype == 0, capFail 9 cfSEALED 0 g),
      (c.kind != kDEVICE, capFail 9 cfKIND 0 g), (c.has pST, capFail 9 cfPERM pST g), ((c.ver != 0) == versioned, capFail 9 cfUNVERSIONED 0 g),
      (s.isLocal c.node, capFail 9 cfREMOTE 0 g)] with
  | .ok _ => .ok c
  | .error e => .error e

/-- VNEW: every granule takes the highest VER found, at least 1. -/
def evalVnew (me : Me) (r : Run) (rd ra : Nat) : Res :=
  let g := me.t0.getG ra
  match checkVersioned r.s g false with
  | .error e => .fail r.s e
  | .ok c =>
    if accessWaits me r.s || !r.s.allPerformed me.cid then .wait
    else
      let p := r.s.overGrans me.who g cfRETIRED (fun x => x.ver == 15)
      match p.2 with
      | .error e => .fail p.1 e
      | .ok l =>
        let v := l.foldl (fun v x => max v x.ver) 1
        let c := match healVer l with | some h => Cap.ofGran h | none => c
        let r := healed { r with s := p.1.setVers me.who (fun _ => v) l } ra (healVer l)
        .ok { r with t := r.t.setG rd ({ c with ver := v } : Cap).toGran }

/-- VFREE: granules at the capability's VER advance by 1. -/
def evalVfree (me : Me) (r : Run) (ra : Nat) : Res :=
  let g := me.t0.getG ra
  match checkVersioned r.s g true with
  | .error e => .fail r.s e
  | .ok c =>
    if accessWaits me r.s || !r.s.allPerformed me.cid then .wait
    else
      let p := r.s.overGrans me.who g cfRETIRED (fun _ => false)
      match p.2 with
      | .error e => .fail p.1 e
      | .ok l => .ok (healed { r with s := p.1.setVers me.who (fun x => if x.named = some c.ver then x.ver + 1 else x.ver) l } ra (healVer l))

/-! ### Lists (05 R109–R111) -/

/-- CAR and CDR. -/
def evalCar (me : Me) (micro : Bool) (r : Run) (second : Bool) (rd ra : Nat) : Res :=
  let g := me.t0.getG ra
  let c := Cap.ofGran g
  let va : Nat := 16 * c.base + (if second then 16 else 0)
  match checkAccess g va 16 (· == kPAIR) [] with
  | .error e => .fail r.s e
  | .ok c => loadAt me micro r .pair false rd ra c va

/-- SETCAR and SETCDR. -/
def evalSetcar (me : Me) (micro : Bool) (r : Run) (second : Bool) (rd ra : Nat) : Res :=
  let g := me.t0.getG ra
  let c := Cap.ofGran g
  let v := me.t0.getG rd
  let va : Nat := 16 * c.base + (if second then 16 else 0)
  let v' := if v.isCap then v else Gran.ofWord v.lo.noCap
  match checkAccess g va 16 (· == kPAIR) (storePerms v.isCap v) (farFail r.s g [v]) with
  | .error e => .fail r.s e
  | .ok c => storeAt me micro false r true true false ra c va v'

/-- 05 R109: whether ALLOC serves a pair. DESIGN CHOICE (log entry 109): the three conditions hold literally of an ALLOC whose ADDR is below its base;
the pair would lie outside ALLOC's bounds, and the model takes the refill routine. -/
def allocFast (s : State) (g : Gran) : Bool :=
  let c := Cap.ofGran g
  g.isCap && c.wf && c.otype == 0 && s.isLocal c.node && c.has pST && c.has pSTC && c.addr % 16 == 0 && c.inBounds c.addr 32

/-- R58 for CONS: a capability without GLOBAL needs STLC of ALLOC. -/
def consLacks (me : Me) (stlc : Bool) (ra rb : Nat) : Bool :=
  [me.t0.getG ra, me.t0.getG rb].any (fun x => x.isCap && !(Cap.ofGran x).has pGLOBAL) && !stlc

/-- A slot as CONS stores it: a capability, or a word and what follows it. -/
def pairSlot (x : Gran) : Gran := if x.isCap then x else ⟨x.lo.noCap, x.hi.noCap⟩

/-- CONS from an ALLOC that serves it: the pair stored directly, all or none, RD and ALLOC written. `late` says that the claim of a refill has
committed the bundle, so a memory error is a late store error (09 R209). -/
def consAt (me : Me) (r : Run) (late : Bool) (g : Gran) (rd ra rb : Nat) : Res :=
  let c0 := Cap.ofGran g
  let p := r.s.storeGrans me.who g false c0.addr [pairSlot (me.t0.getG ra), pairSlot (me.t0.getG rb)]
  let done (s : State) (c : Cap) : Res :=
    let out := Cap.exact c.node c.addr c.perms kPAIR c.ver (c.addr / 16) (c.addr / 16 + 2)
    .ok { r with s := s, t := ({ r.t with alloc := c.withAddr (c.addr + 32) }.mark srALLOC).setG rd out.toGran }
  match p.2 with
  | .error e => if late then done (p.1.lateStore me.cid (faddrOf c0.node c0.addr) e.exc.cause e.exc.subcode false) c0 else .fail p.1 e
  | .ok h => done p.1 (match h with | some x => Cap.ofGran x | none => c0)

/-- CONS (05 R109): the fast path, or the refill routine in a sequencer. R58 is judged with ALLOC as it is, or as HEAP_PERMS will make it
(12 R272), before the claim. -/
def evalCons (ctl : Ctl) (me : Me) (micro : Bool) (r : Run) (rd ra rb : Nat) : Res :=
  let g := me.t0.alloc
  let lacks : Res := .fail r.s (accFail 9 cCAP cfPERM pSTLC g (Cap.ofGran g).addr)
  if accessWaits me r.s then .wait
  else if allocFast r.s g then (if consLacks me ((Cap.ofGran g).has pSTLC) ra rb then lacks else consAt me r false g rd ra rb)
  else if !micro then .micro
  else if consLacks me (nbit (r.s.app (berthIdx me.berth) 0x44) pSTLC) ra rb then lacks
  else
    let c := ctl.claim r.s me.k
    match c.2 with
    | .error e => .fail c.1 e
    | .ok g => consAt me { r with s := c.1, post := fun s => ctl.claimed (r.post s) me.berth } true g rd ra rb

/-- FENCE (10 Table 10.9): the fence waits for what it orders; FENCE.I discards the bundles that the stall has fetched and not executed. -/
def evalFence (me : Me) (r : Run) (v : Nat) : Res :=
  let open_ :=
    match v with
    | 1 => r.s.storesOpen me.cid
    | 2 => r.s.readsOpen me.cid
    | 4 => false
    | _ => !r.s.allPerformed me.cid
  if open_ then .wait else .ok (if v = 4 then { r with t := { r.t with fetched := [] } } else r)

/-- Class M (04 Table 4.4). -/
def evalM (ctl : Ctl) (me : Me) (micro : Bool) (o : Op) (r : Run) : Option Res :=
  match o with
  | .ldw acq rd ra off => some (evalLoad ctl me micro r .word acq rd ra off)
  | .ldc acq rd ra off => some (evalLoad ctl me micro r .cap acq rd ra off)
  | .stw rel rd ra off => some (evalStore ctl me micro r false rel rd ra off)
  | .stc rel rd ra off => some (evalStore ctl me micro r true rel rd ra off)
  | .cas cap rd ra rb => some (evalCas me r cap rd ra rb)
  | .faddG rd ra rb => some (evalFadd me r rd ra rb)
  | .fill rd ra rb => some (evalFill me r rd ra rb)
  | .fence v => some (evalFence me r v)
  | .cseal .. | .cunseal .. => if micro then evalCap me.t0 o r else some .micro
  | .vnew rd ra => some (if micro then evalVnew me r rd ra else .micro)
  | .vfree ra => some (if micro then evalVfree me r ra else .micro)
  | o => evalCap me.t0 o r

end Sys2Proof.Machine
end

