-- ==== Sys2Proof/Machine/Control.lean ====
section
/-!
DEFINITION. Class C of one syllable (04 Table 4.6): transfers of control, special registers, contexts (chapters 04, 05, 07,
08, 09, 15).
-/

namespace Sys2Proof.Machine

/-! ### Order of faults (07 R152, Table 7.7) -/

/-- The place of a fault within its rank's row, where two checks of one syllable share the rank. -/
def rowOrder (e : Exc) : Nat :=
  if e.cause == cMISALIGNED then 0
  else if e.cause != cCAP then 1
  else
    (listFind (· == e.subcode)
      [cfVALID, cfFORM, cfSEALED, cfUNSEALED, cfKIND, cfPERM, cfOTYPE, cfUNVERSIONED, cfREMOTE, cfLOCAL, cfREPRESENT, cfBOUNDS,
       cfVERSION, cfRETIRED]).getD 14

/-- The fault of a syllable among those of its checks: lowest rank, then row order, then the order given. -/
def pickFail : List Fail → Option Fail
  | [] => none
  | f :: fs =>
    match pickFail fs with
    | none => some f
    | some g => if g.rank < f.rank ∨ (g.rank = f.rank ∧ rowOrder g.exc < rowOrder f.exc) then some g else some f

/-- The fault of a check that failed. -/
def failOf {α : Type} : Except Fail α → List Fail
  | .ok _ => []
  | .error f => [f]

/-- Where a bundle stands: its address, the address of the next sequential bundle, and whether its core runs it as the commit
of a routine. -/
structure At where
  addr : Nat
  next : Nat
  micro : Bool

/-! ### Transfers -/

/-- A transfer of control (04 R74). -/
def goto (r : Run) (pcc : Gran) : Res := .ok { r with pcc := some pcc }

/-- CALL (07 R143): the target and the push on G31 are checked together. -/
def evalCall (me : Me) (at_ : At) (r : Run) (ra : Nat) : Res :=
  let g31 := me.t0.getG 31
  let tgt := jumpTarget true true (me.t0.getG ra)
  let rec_ := [pccAt me.t0.pcc at_.next, rawGran (w64 me.t0.predsNat) 0]
  let c31 := Cap.ofGran g31
  let perms := if (Cap.ofGran (pccAt me.t0.pcc at_.next)).has pGLOBAL then [pST, pSTC] else [pST, pSTC, pSTLC]
  match pickFail (failOf tgt ++ failOf (checkStack r.s g31 ((c31.addr : Int) - 32) 2 perms)), tgt with
  | some f, _ => .fail r.s f
  | none, .error f => .fail r.s f
  | none, .ok pcc =>
    if accessWaits me r.s then .wait
    else
      let p := r.s.push me.who g31 rec_
      match p.2 with
      | .error f => .fail p.1 f
      | .ok g => goto { r with s := p.1, t := r.t.setG 31 g } pcc

/-- A word that a return pops is RAW or FIX (07 R143, R149). -/
def popWord (va : Gran) (w : TWord) : Bool × Fail := (w.tag == tagRAW || w.tag == tagFIX, accFail 14 cTAG 3 0 va (Cap.ofGran va).addr)

/-- RET (07 R143). -/
def evalRet (me : Me) (r : Run) : Res :=
  let g31 := me.t0.getG 31
  if accessWaits me r.s then .wait
  else
    let p := r.s.pop me.who g31 2
    match p.2 with
    | .error f => .fail p.1 f
    | .ok (xs, up) =>
      let ret := (listAt xs 0).getD Gran.zero
      let pw := ((listAt xs 1).getD Gran.zero).lo
      match firstFail [popWord g31 pw], checkRestoredPcc ret (stPL me.t0.status) false with
      | .error f, _ => .fail p.1 f
      | _, .error f => .fail p.1 f
      | .ok _, .ok _ => goto { r with s := p.1, t := { r.t.setG 31 up with preds := pw.val.setWidth 8 ||| 1 } } ret

/-- RETY (07 R149). -/
def evalRety (me : Me) (r : Run) : Res :=
  let g31 := me.t0.getG 31
  if accessWaits me r.s then .wait
  else
    let p := r.s.pop me.who g31 8
    match p.2 with
    | .error f => .fail p.1 f
    | .ok (xs, _) =>
      let sl (i : Nat) : Gran := (listAt xs i).getD Gran.zero
      let st := (sl 1).lo.val
      let checks := ([1, 4, 5].flatMap (fun i => [popWord g31 (sl i).lo, popWord g31 (sl i).hi])) ++
        [0, 6].map (fun i => ((sl i).isCap, capFail 14 cfVALID 0 (sl i)))
      match firstFail checks, checkReturn me.t0.status st (sl 0) with
      | .error f, _ => .fail p.1 f
      | _, .error f => .fail p.1 f
      | .ok _, .ok _ =>
        goto { r with s := p.1, t := { (r.t.setG 31 (sl 6)).mark srLC with
          status := returnStatus me.t0.status st true, preds := (sl 5).lo.val.setWidth 8 ||| 1, lc := (sl 4).lo.val,
          rep := (sl 4).hi.val.toNat, repFirst := false } } (sl 0)

/-- LEAVE (07 R145). -/
def evalLeave (me : Me) (r : Run) : Res :=
  match checkReturn me.t0.status me.t0.sstatus me.t0.spcc with
  | .error f => .fail r.s f
  | .ok _ => goto { r with t := { r.t with status := returnStatus me.t0.status me.t0.sstatus false, repFirst := false } } me.t0.spcc

/-- A trap of a class-C syllable (07 R146). -/
def trapOf (word cause info : Nat) : Exc := { cause := cause, slot := 4, info := info, syl := word }

/-- ENTER (07 R144, Table 7.4). -/
def evalEnter (me : Me) (at_ : At) (word : Nat) (r : Run) (n : Nat) : Res :=
  if stPL me.t0.status = 0 then
    match jumpTarget false true (me.t0.getEntry n) with
    | .error f => .fail r.s f
    | .ok pcc =>
      let st := setPL (setBit (setBit (setBit me.t0.status 9 false) 8 false) 2 false) 1
      goto { r with t := ({ r.t with spcc := pccAt me.t0.pcc at_.next, sstatus := me.t0.status, status := st }.mark srSPCC).mark srSSTATUS } pcc
  else if stPL me.t0.status = 1 then .ok { r with trap := some (trapOf word cSVC n) }
  else .fail r.s (privFail 4 0x01)

/-- Length in bytes of a bundle fetched only for that, and whether it holds a class-C syllable (05 R112, R114). -/
def scanBundle (ws : List Nat) : Nat × Bool := (4 * ws.length, ws.any (fun w => !isLimm w && nbits w 26 25 == 3))

/-- LOOP (05 R114). With a count it goes on at LSTART and replaces the active loop, whose loop-end step is not made. -/
def evalLoop (me : Me) (at_ : At) (r : Run) (ra : Nat) (disp : Word64) : Res :=
  let n := (me.t0.getG ra).lo
  let lend := ((at_.addr : Int) + disp.toInt) % 2 ^ 48
  if (at_.addr : Int) + disp.toInt < at_.next then .fail r.s illegal
  else if !isIndex n then .fail r.s (tagFail 0x03)
  else
    let t := ((({ r.t with lc := n.val, lstart := at_.next, lend := lend.toNat, status := setBit r.t.status 9 (n.val != 0) }.mark srLC).mark
      srLSTART).mark srLEND)
    if n.val != 0 then goto { r with t := t } (pccAt me.t0.pcc at_.next)
    else
      let f := r.s.fetchSyls (coreOf me.k) me.berth me.t0.pcc 7 lend.toNat
      match f.2 with
      | .error e => .fail f.1 e
      | .ok (ws, h) =>
        let pc := (Cap.ofGran me.t0.pcc).addr
        let g := h.getD me.t0.pcc
        goto { r with s := f.1, t := t } (pccAt g (lend + (scanBundle ws).1 + (((Cap.ofGran g).addr : Int) - pc)))

/-! ### Special registers (04 R80) -/

/-- MFSR. -/
def evalMfsr (me : Me) (r : Run) (rd sr : Nat) : Res :=
  if stPL me.t0.status < srReadPL sr then .fail r.s (privFail 4 0x01)
  else
    let go := putG r rd (me.t0.readSR r.s.time sr)
    if sr = srFSTATUS then withFloat me.k me.cid me.t0 r.s go else go

/-- MTSR. -/
def evalMtsr (me : Me) (r : Run) (sr ra : Nat) : Res :=
  let g := me.t0.getG ra
  let c := Cap.ofGran g
  if stPL me.t0.status < srWritePL sr then .fail r.s (privFail 4 0x01)
  else if srIsCap sr then
    let base := sr == srVBASE_S || sr == srVBASE_Y
    match firstFail ([(g.isCap, capFail 9 cfVALID 0 g), (c.wf, capFail 9 cfFORM 0 g)] ++
        (if base then [(c.otype == 0, capFail 9 cfSEALED 0 g), (c.kind == kCODE, capFail 9 cfKIND 0 g), (c.has pEX, capFail 9 cfPERM pEX g),
          (sr != srVBASE_Y || c.has pSYS, capFail 9 cfPERM pSYS g), (c.addr % 64 == 0, accFail 10 cMISALIGNED 0 0 g c.addr),
          (c.inBounds c.addr 4096, accFail 10 cCAP cfBOUNDS 0 g c.addr)] else [])) with
    | .error f => .fail r.s f
    | .ok _ => .ok { r with t := r.t.writeSRCap sr g }
  else
    let go : Res := if !isIndex g.lo then .fail r.s (tagFail 0x03)
      else .ok { r with t := r.t.writeSRWord sr g.lo.val, lcSet := sr == srLC }
    if sr = srFSTATUS then withFloat me.k me.cid me.t0 r.s go else go

/-! ### The Stable's choices (08 R184, R189) -/

/-- The berth a free stall of a shed would be given to: round-robin after the one served last, a READY record and fewer
resident contexts than its quota; `free` is a stall counted as free. No unpark of a berth under reset starts (16 R377). -/
def State.nextBerth (s : State) (shed : Nat) (free : Option Nat) : Option Nat :=
  let h := s.shed shed
  let resident (b : Nat) : Nat :=
    (s.stalls.filter (fun e => shedOf e.1 == shed && !isS63 e.1 && some e.1 != free && e.2.cid.isSome && stBerth e.2.status == b)).length
  if h.isolated || s.ent 0x6000 0x02 != 0 then none
  else
    ((upTo nBerths).map (fun i => (h.rrBerth + 1 + i) % nBerths)).find? (fun b =>
      h.ready.any (fun e => e.1 == b) && decide (resident b < s.ent (berthIdx b) 0x0A) && s.ent (berthIdx b) 0x01 != 3)

/-- YIELD and YIELD.T (08 R189); a stall that R173 forbids to park completes them with no effect. -/
def evalYield (me : Me) (r : Run) (timed : Bool) : Res :=
  if isS63 me.k || stDF me.t0.status then .ok r
  else if timed && me.t0.timer != 0 && decide (r.s.time < me.t0.timer.toNat) then .ok { r with t := { r.t with yielding := some 6 } }
  else if (r.s.nextBerth (shedOf me.k) (some me.k)).isSome then .ok { r with t := { r.t with yielding := some 5 } }
  else .ok r

/-! ### SPAWN, INVOKE (08 R192; 15 R353) -/

/-- 08 R192's conditions on RB, the frame region. -/
def checkRegion (s : State) (g : Gran) : Except Fail Cap :=
  let c := Cap.ofGran g
  match firstFail ([(g.isCap, capFail 9 cfVALID 0 g), (c.wf, capFail 9 cfFORM 0 g), (c.otype == 0, capFail 9 cfSEALED 0 g),
      (c.kind == kDATA, capFail 9 cfKIND 0 g)] ++ [pLD, pST, pLDC, pSTC, pSTLC].map (fun p => (c.has p, capFail 9 cfPERM p g)) ++
      [(c.ver != 0, capFail 9 cfUNVERSIONED 0 g), (s.isLocal c.node, capFail 9 cfREMOTE 0 g),
       (c.base % 256 == 0 && c.top == c.base + 256 && decide (16 * c.top < 2 ^ 48), capFail 10 cfBOUNDS 0 g),
       (decide (c.ver ≤ 13), capFail 13 cfRETIRED 0 g)]) with
  | .ok _ => .ok c
  | .error f => .error f

/-- The FUTURE word of a context (08 Table 8.1). -/
def State.future (s : State) (cid : Nat) : TWord := ⟨tagFUTURE, w64 (s.nodeId % 2 ^ 16 * 2 ^ 48 + cid % 2 ^ 32)⟩

/-- A child whose frame memory fails as it is built is destroyed as by a stall reset (09 R209). DESIGN CHOICE (log entry 115): the child has no stall of
its own; the report names the spawner's. -/
def State.loseChild (s : State) (k rn : Nat) : State :=
  let r := s.record rn
  (s.destroy (mkCid r.gen rn)).reportReset k r.status (({ cause := cBUS, subcode := beUNC } : Exc).info64)

/-- SPAWN (08 R192, Table 8.8): its checks, then the child. -/
def evalSpawn (me : Me) (r : Run) (far : Bool) (rd ra rb : Nat) : Res :=
  let g := me.t0.getG rb
  let tgt := jumpTarget true true (me.t0.getG ra)
  let reg := checkRegion r.s g
  match pickFail (failOf tgt ++ failOf reg), tgt, reg with
  | none, .ok pcc, .ok c =>
    if accessWaits me r.s || !r.s.allPerformed me.cid || r.s.ent (berthIdx me.berth) 0x01 = 3 then .wait
    else
      let p := r.s.overGrans me.who g cfVERSION (fun x => x.named != some c.ver)
      match p.2 with
      | .error f => .fail p.1 f
      | .ok l =>
        let shed := if far then p.1.farShed me.berth else some (shedOf me.k)
        let rn := match shed with | some h => p.1.freeRecord h | none => none
        let quota : Fail := ⟨17, { cause := cQUOTA, subcode := 0x02 }⟩
        match rn with
        | none => .fail p.1 quota
        | some rn =>
          if p.1.recordsUse me.berth ≥ p.1.ent (berthIdx me.berth) 0x0B then .fail p.1 quota
          else
            let t := me.t0
            let fs := p.1.fstatusOf me.k me.cid
            let child : NewCtx :=
              { base := 16 * c.base, ver := c.ver + 1, pcc := pcc,
                status := mkStatus (stPID t.status) (stCEIL t.status) (stPL t.status) (stFEN t.status) (stIE t.status),
                regs := [(1, t.getG rd)], stackPerms := c.perms, entries := (upTo 8).map t.getEntry, vbaseS := t.vbaseS, vbaseY := t.vbaseY,
                fstatus := fsRM fs.2 * 4096 }
            let q := fs.1.create (.core me.who.core) rn child
            let fut := q.1.future (mkCid (q.1.record rn).gen rn)
            let r := healed { r with s := if q.2 then q.1 else q.1.loseChild me.k rn } rb (healVer l)
            .ok { r with t := r.t.setW rd fut }
  | some f, _, _ => .fail r.s f
  | _, .error f, _ => .fail r.s f
  | _, _, .error f => .fail r.s f

/-- What INVOKE needs of its entry (15 R358, 03 R52), at both nodes (03 R63): sealed ENTRY, INVOKE, EX. -/
def entryFails (g : Gran) : List (Bool × Fail) :=
  let c := Cap.ofGran g
  let f (sub info : Nat) := accFail 9 cCAP sub info g c.addr
  [(c.otype != 0 && c.kind == kENTRY, f cfKIND 0), (c.has pINVOKE, f cfPERM pINVOKE), (c.has pEX, f cfPERM pEX)]

/-- INVOKE (15 R353, R358): on the issuing node where RA is local, else a packet. -/
def evalInvoke (ctl : Ctl) (me : Me) (r : Run) (ra rb : Nat) : Res :=
  let g := me.t0.getG ra
  let arg := me.t0.getG rb
  let c := Cap.ofGran g
  let near := r.s.isLocal c.node
  match firstFail ([(g.isCap, capFail 9 cfVALID 0 g), (c.wf, capFail 9 cfFORM 0 g)] ++ entryFails g ++ (if near then [] else localFail [g, arg])) with
  | .error f => .fail r.s f
  | .ok _ =>
    if accessWaits me r.s then .wait
    else if near then
      let p := ctl.invoke r.s me.k g arg
      match p.2 with
      | .error e => .fail p.1 ⟨if e.cause = cCAP then 9 else if e.cause = cQUOTA then 17 else 13, e⟩
      | .ok _ => .ok { r with s := p.1 }
    else
      let x := if arg.isCap then arg else Gran.ofWord arg.lo.noCap
      sendRemote me r none { pt := ptINVOKE, dst := c.node, src := 0, ver := c.ver, cap := arg.isCap, addr := c.addr } [g, x] false

/-- STALLWIN (08 R195). -/
def evalStallwin (me : Me) (r : Run) (rd ra : Nat) : Res :=
  let w := (me.t0.getG ra).lo
  if stPL me.t0.status < 2 then .fail r.s (privFail 4 0x01)
  else if !isIndex w then .fail r.s (tagFail 0x03)
  else
    let v := w.val.toNat % 2 ^ 20
    let t := r.t.setW rd (TWord.raw (w64 me.t0.winsel))
    .ok { r with t := if !nbit v 18 && decide (v % 2 ^ 18 > 16383) then t else { t with winsel := v } }

/-- PLOG (04 Table 4.6). -/
def plogVal (op : Nat) (a b : Bool) : Bool :=
  match op with
  | 0 => a && b
  | 1 => a || b
  | 2 => a != b
  | _ => a && !b

/-- Class C. -/
def evalC (ctl : Ctl) (me : Me) (at_ : At) (word : Nat) (o : Op) (r : Run) : Option Res :=
  let t := me.t0
  let s63 := isS63 me.k
  match o with
  | .jmp ra => some (match jumpTarget false true (t.getG ra) with | .ok g => goto r g | .error f => .fail r.s f)
  | .call ra => some (evalCall me at_ r ra)
  | .ret => some (evalRet me r)
  | .leave => some (if stPL t.status = 0 then .fail r.s (privFail 4 0x01) else evalLeave me r)
  | .rety => some (if stPL t.status = 0 then .fail r.s (privFail 4 0x01) else if at_.micro then evalRety me r else .micro)
  | .mfsr rd sr => some (evalMfsr me r rd sr)
  | .mtsr sr ra => some (evalMtsr me r sr ra)
  | .cons rd ra rb => some (evalCons ctl me at_.micro r rd ra rb)
  | .car rd ra => some (evalCar me at_.micro r false rd ra)
  | .cdr rd ra => some (evalCar me at_.micro r true rd ra)
  | .setcar rd ra => some (evalSetcar me at_.micro r false rd ra)
  | .setcdr rd ra => some (evalSetcar me at_.micro r true rd ra)
  | .yield timed => some (evalYield me r timed)
  | .exit => some (if s63 then .fail r.s illegal else .ok { r with ends := true })
  | .spawn far rd ra rb => some (if at_.micro then evalSpawn me r far rd ra rb else .micro)
  | .invoke ra rb => some (evalInvoke ctl me r ra rb)
  | .stallwin rd ra => some (evalStallwin me r rd ra)
  | .plog op pd pa pb => some (putP r pd (plogVal op (t.getP pa) (t.getP pb)))
  | .brk => some (.ok { r with trap := some (trapOf word cBREAK 0) })
  | .vz3 ra =>
    some (if !at_.micro then .micro
      else match jumpTarget false false (t.getG ra) with
        | .ok g => goto { r with t := { r.t with status := setBit r.t.status 11 true } } g
        | .error f => .fail r.s f)
  | .br disp =>
    let va : Int := (at_.addr : Int) + disp.toInt
    some (match checkBranch t.pcc va with | .ok _ => goto r (pccAt t.pcc va) | .error f => .fail r.s f)
  | .loop ra disp => some (evalLoop me at_ r ra disp)
  | .enter n => some (evalEnter me at_ word r n)
  | _ => none

end Sys2Proof.Machine
end

