-- ==== Sys2Proof/Machine/Bundle.lean ====
section
/-!
DEFINITION. BUNDLE_ISSUE and the commit of a routine (04 R69–R74, 05 R112–R116, 07 R152, 08 R171, 09 R200, R209): fetch, what makes a
bundle ineligible, its evaluation as one step, faults in order, repeats and loops.
-/

namespace Sys2Proof.Machine

/-! ### What is issued next -/

/-- What a stall would issue: a bundle at its address, once as it stands or as an iteration of a repeat; or the end of a repeat
whose count is 0, with the address after it. -/
inductive Next where
  | once (b : Bundle) (addr : Nat)
  | iter (b : Bundle) (addr : Nat)
  | done (addr : Nat)

/-- The fault of words that do not decode, with the syllable where one is at fault (07 R148). -/
def illegalIn (ws : List Nat) : Fail :=
  match badSyl 8 none ws with
  | some (slot, w) => ⟨3, { cause := cILLEGAL, slot := slot, syl := w }⟩
  | none => illegal

/-- 04 R71, 05 R116: a REP bundle that may not stand where it does. -/
def repIllegal (b : Bundle) : Exc := { cause := cILLEGAL, slot := 4, syl := (b.syls.head?.map Syl.word).getD 0 }

/-- The address in PCC. -/
def State.pc (s : State) (k : Nat) : Nat := (Cap.ofGran (s.stall k).pcc).addr

/-- The next bundle of a stall, by fetch and decode (04 R69, R71; 05 R112; 07 R164). -/
def State.fetchNext (s : State) (k : Nat) : State × Except Fail Next :=
  let f := s.fetchAt k 0
  match f.2 with
  | .error e => (f.1, .error e)
  | .ok ws =>
    match decBundle ws with
    | none => (f.1, .error (illegalIn ws))
    | some b =>
      if stRPA (s.stall k).status then
        if !b.isRep then (f.1, .error illegal)
        else
          let g := f.1.fetchAt k 4
          match g.2 with
          | .error e => (g.1, .error e)
          | .ok ws2 =>
            if (s.stall k).rep = 0 then (g.1, .ok (.done (g.1.pc k + 4 + 4 * ws2.length)))
            else
              match decBundle ws2 with
              | none => (g.1, .error (illegalIn ws2))
              | some b2 => if b2.hasC then (g.1, .error ⟨3, repIllegal b⟩) else (g.1, .ok (.iter b2 (g.1.pc k + 4)))
      else (f.1, .ok (.once b (f.1.pc k)))

/-- Every G and special register a bundle's syllables name (04 R85: whatever their conditions). -/
def bundleNames (b : Bundle) : List Nat := b.syls.flatMap (fun x => x.op.names)

/-- Whether a bundle raises flags of IFLAGS by itself (04 R82). -/
def raisesIflags : Op → Bool
  | .raw .. | .addi .. => true
  | _ => false

/-- 08 R171, R185: a register the bundle names is pending or in-frame. -/
def Stall.blocked (t : Stall) (b : Bundle) : Bool :=
  (bundleNames b).any (fun r => if r < 32 then maskBit t.pend r || maskBit t.inframe r else maskBit t.inframe r) ||
    (b.syls.any (fun x => raisesIflags x.op) && maskBit t.inframe (32 + srIFLAGS)) ||
    (stLPA t.status && (maskBit t.inframe (32 + srLC) || maskBit t.inframe (32 + srLSTART) || maskBit t.inframe (32 + srLEND)))

/-- 04 R65: whether a syllable executes. -/
def sylExecutes (x : Syl) (t : Stall) : Bool := if x.cond < 8 then t.getP x.cond else !t.getP (x.cond - 8)

/-- The context that issues. -/
def State.me (s : State) (k : Nat) : Me :=
  { k := k, cid := s.cidOf k, berth := stBerth (s.stall k).status, who := s.who k, t0 := s.stall k }

/-- One syllable, by its class. -/
def evalSyl (ctl : Ctl) (me : Me) (at_ : At) (x : Syl) (r : Run) : Res :=
  (match x.slot with
    | 0 | 1 => evalA me.k me.cid me.t0 x.op r
    | 2 => evalM ctl me at_.micro x.op r
    | 3 => evalF me.k me.cid me.t0 x.op r
    | _ => evalC ctl me at_ x.word x.op r).getD (.ok r)

/-- How a bundle's evaluation stands: the run so far, the faults with the states they left, and whether some syllable waits or
needs a sequencer. -/
structure Eval where
  run : Run
  fails : List (State × Fail) := []
  wait : Bool := false
  micro : Bool := false

/-- What stays of an evaluation that is squashed (04 R72): translation caches, counts and reports, no architectural state; and a collector that
an engine access of it has halted stays halted (12 R269). -/
def State.keepSide (s side : State) : State :=
  { s with tlbs := side.tlbs, walkc := side.walkc, xpages := side.xpages, fresh := side.fresh, dict := side.dict, errorLines := side.errorLines,
           berths := side.berths.foldl (fun m e =>
             if e.2.halted then SMap.set (fun _ => {}) m e.1 { SMap.get (fun _ => {}) m e.1 with halted := true, events := e.2.events } else m) s.berths }

/-- One syllable with its operand fetches (02 R31). DESIGN CHOICE (log entry 112): Table 7.7 has no row for a register slot that cannot be used; its
BUS_ERROR (02 R33) stands with the operand checks of rank 7. -/
def evalOne (ctl : Ctl) (me : Me) (at_ : At) (x : Syl) (r : Run) : Res :=
  let q := r.s.fetchSlots me.k x.op.gSources
  match q.2 with
  | some sub => .fail q.1 ⟨7, { cause := cBUS, subcode := sub }⟩
  | none => evalSyl ctl me at_ x { r with s := q.1 }

/-- Every executing syllable of a bundle, in order, from state `s0` (04 R72, R73). A syllable that faults leaves what it alone found: memory it
met in error, caches, counts and reports. -/
def evalSyls (ctl : Ctl) (me : Me) (at_ : At) (s0 : State) (ss : List Syl) (e : Eval) : Eval :=
  ss.foldl (fun e x =>
    if !sylExecutes x me.t0 then e
    else
      match evalOne ctl me at_ x e.run with
      | .ok r => { e with run := { r with busy := x.op.writes ++ r.busy } }
      | .fail s f =>
        let alone := match evalOne ctl me at_ x { s := s0.keepSide e.run.s, t := me.t0 } with | .fail s' _ => s' | _ => s0.keepSide s
        { e with fails := e.fails ++ [(alone, { f with exc := { f.exc with slot := x.slot, syl := x.word } })] }
      | .wait => { e with wait := true }
      | .micro => { e with micro := true }) e

/-- The evaluation of a bundle at `addr` by stall `k`. -/
def State.evalBundle (ctl : Ctl) (s : State) (k : Nat) (b : Bundle) (addr : Nat) (micro : Bool) : Eval :=
  evalSyls ctl (s.me k) ⟨addr, addr + 4 * b.len, micro⟩ s b.syls { run := { s := s, t := s.stall k } }

/-- 07 R152: the fault of lowest rank, the first in syllable order among equals. -/
def lowestFail : List (State × Fail) → Option (State × Fail)
  | [] => none
  | f :: fs =>
    match lowestFail fs with
    | none => some f
    | some g => if g.2.rank < f.2.rank then some g else some f

/-- 07 R151: the lowest-numbered refused register a bundle names. -/
def Stall.refusedNamed (t : Stall) (b : Bundle) : Option Nat := (upTo 32).find? (fun n => maskBit t.refused n && (bundleNames b).contains n)

/-! ### Completion -/

/-- 05 R115: the loop-end step of the bundle at `addr`, whose successor is `next`: the stall and where it goes on. DESIGN CHOICE (log entry 113): where
that bundle writes LSTART or LEND by MTSR, the spec does not say which values the step uses; the bundle ends a pass by the LEND it started with and goes
back to the LSTART it has written. DESIGN CHOICE (log entry 114): where the bundle arms a loop by writing LC while no loop was active as it started,
the spec does not say that it ends a pass; it does not. -/
def Stall.loopEnd (t0 t : Stall) (addr next : Nat) (lcSet : Bool) : Stall × Nat :=
  if stLPA t0.status && t0.lend == addr && stLPA t.status then
    if lcSet then (t, t.lstart)
    else
      let v := t.lc - 1
      let t := { t with lc := v, status := setBit t.status 9 (v != 0) }.mark srLC
      (t, if v = 0 then next else t.lstart)
  else (t, next)

/-- The registers of a bundle that completes: flags (04 R80, R82, R83; 08 R188), then PCC, the loop-end step and the repeat. What was fetched has
been executed, but for a repeat pair under way. -/
def Run.finish (r : Run) (t0 : Stall) (iter : Bool) (addr next : Nat) : Stall :=
  let t := r.t
  let t := if r.iflags = 0 then t else { t with iflags := t.iflags ||| r.iflags }.mark srIFLAGS
  let t := if r.fflags = 0 then t else { t with fstatus := t.fstatus ||| r.fflags, fdirty := true }
  let go (e : Stall × Nat) : Stall := { e.1 with pcc := pccAt t0.pcc e.2, fetched := [] }
  if iter then
    let left := t0.rep - 1
    if left = 0 then
      let t := { t with rep := 0, repFirst := false, status := setBit t.status 8 false }
      go (Stall.loopEnd { t0 with status := setBit t0.status 8 false } t addr next r.lcSet)
    else { t with rep := left, repFirst := false }
  else
    match r.pcc with
    | some g => { t with pcc := g, fetched := [] }
    | none => go (Stall.loopEnd t0 t addr next r.lcSet)

/-- 19 R445 step 9: boot state ends in the step in which the yard's initial context first issues. -/
def State.leaveBoot (s : State) : State :=
  if s.ent 0x2200 0x03 = 1 then (s.setEnt 0x2200 0x03 2).setEnt 0x2200 0x08 s.time else s

/-- A bundle takes effect: registers, pending traps, memory-side effects, and the control-space stores it made. -/
def State.complete (k : Nat) (r : Run) (iter : Bool) (addr next : Nat) (t0 : Stall) : State :=
  let t := r.finish t0 iter addr next
  let t := { t with exc := r.trap, late := (r.s.stall k).late, timp := (r.s.stall k).timp && t.timp, entering := none }
  r.post (((r.s.setStall k t).updCore (coreOf k) (fun c => { c with last := k % 64 })).leaveBoot)

/-- 08 R193: EXIT ends the context once its stores are performed; a late store error that no event takes goes to the berth. -/
def State.exitContext (s : State) (k : Nat) : State :=
  let cid := s.cidOf k
  let t := s.stall k
  let s :=
    match t.late with
    | some l =>
      s.berthEvent (stBerth t.status) 0x02 l.faddr
        (({ cause := cLATE, subcode := l.subcode, taga := l.cause, remote := l.remote, count := l.count } : Exc).info64)
    | none => s
  s.destroy cid

/-- EXIT's wait: the context's stores first; an event open then is taken with the EXIT bundle in its frame. -/
def State.tryExit (s : State) (k : Nat) : State :=
  if s.storesOpen (s.cidOf k) then s.updStall k (fun t => { t with exiting := true }) else s.exitContext k

/-- A fault ends a bundle or a routine (07 R146, R151; 09 R206), from the state its evaluation leaves: what the bundle had is squashed. -/
def State.faultBundle (s : State) (k : Nat) (f : Fail) : State := (s.dropRoutine k).raiseFault k f.exc

/-- A bundle or byte code that needs a routine takes a free sequencer of its core, or waits for one (09 R200). The hold of R207 is for this one. -/
def State.claimSeqr (s : State) (k : Nat) : State :=
  let c := s.core (coreOf k)
  let r : Routine := { stall := k, hold := (s.stall k).holdAt.contains (s.pc k) }
  let put (i : Nat) : State :=
    (s.setCore (coreOf k) (c.setSeqr i (some r))).updStall k (fun t => { t with holdAt := t.holdAt.filter (· != s.pc k) })
  if (s.routine k).isSome then s else if (c.seqr 0).isNone then put 0 else if (c.seqr 1).isNone then put 1 else s

/-- The fault of a refused register `n` (07 R151). -/
def Stall.refusalOf (t : Stall) (n : Nat) : Exc :=
  let f := Exc.ofRefusal (t.getG n)
  { f with slot := 7, info := if f.cause = cFPTRAP then f.info else n, taga := if f.cause = cFPTRAP then n else f.taga }

/-- The refusal of register `n` is delivered; the register is no longer refused. -/
def State.takeRefusal (s : State) (k n : Nat) : State :=
  (s.updStall k (fun t => { t.setG n Gran.zero with refused := maskClr t.refused n })).raiseFault k ((s.stall k).refusalOf n)

/-- Evaluate and complete a bundle at `addr`, in its core or as a routine's commit. -/
def State.runBundle (ctl : Ctl) (s : State) (k : Nat) (b : Bundle) (addr : Nat) (iter micro : Bool) : State :=
  let t0 := s.stall k
  let e := s.evalBundle ctl k b addr micro
  let fault := lowestFail e.fails
  match t0.refusedNamed b with
  | some n =>
    (match fault with
      | some (s', f) => if f.rank < 6 then s'.faultBundle k f else s.takeRefusal k n
      | none => s.takeRefusal k n)
  | none =>
    if e.wait then s
    else if e.micro then s.claimSeqr k
    else
      match fault with
      | some (s', f) => s'.faultBundle k f
      | none =>
        if e.run.ends then ((e.run.post (e.run.s.leaveBoot)).dropRoutine k).tryExit k
        else (State.complete k e.run iter addr (addr + 4 * b.len) t0).dropRoutine k

/-- A REP bundle (05 R112, R116): the repeated bundle is fetched for its length and R71; a count of 0 passes over it. DESIGN CHOICE (log entry 116): a fault
in that fetch, before any iteration, is one of the REP bundle's own: no count is latched, and the frame keeps RPA 0 (R113 speaks of iterations). -/
def State.runRep (s : State) (k : Nat) (b : Bundle) (addr : Nat) : State :=
  let t := s.stall k
  let x := b.syls.head?
  let n := match x with | some ⟨_, _, _, .repI n⟩ => n | _ => t.lc.toNat
  let skip : Bool := match x with | some y => !sylExecutes y t | none => true
  if skip then State.complete k { s := s, t := t } false addr (addr + 4) t
  else if stLPA t.status && t.lend == addr then s.raiseFault k (repIllegal b)
  else
    let f := s.fetchAt k 4
    match f.2 with
    | .error e => f.1.raiseFault k e.exc
    | .ok ws =>
      if (scanBundle ws).2 then f.1.raiseFault k (repIllegal b)
      else
        let s := f.1.updStall k (fun t =>
          if n = 0 then { t with pcc := pccAt t.pcc ((Cap.ofGran t.pcc).addr + 4 + (scanBundle ws).1), fetched := [] }
          else { t with status := setBit t.status 8 true, rep := n, repFirst := true })
        (s.updCore (coreOf k) (fun c => { c with last := k % 64 })).leaveBoot

/-- An event that must be taken before the stall's next bundle (07 R154, R158). -/
def State.eventFirst (s : State) (k : Nat) : Bool :=
  s.mayRun k && s.eventsOpen k && ((s.nextEvent k).isSome || (isS63 k && !(s.core (coreOf k)).devPend.isEmpty))

/-- An entry is complete once its vector's first bundle is fetched (07 R147, R160). -/
def State.entered (s : State) (k : Nat) : State := s.updStall k (fun t => { t with entering := none })

/-- Run what fetch and decode found, in its core or as a routine's commit. -/
def State.runNext (ctl : Ctl) (s : State) (k : Nat) (micro : Bool) : State :=
  let f := s.fetchNext k
  match f.2 with
  | .error e => ((if e.rank = 3 then f.1.entered k else f.1).dropRoutine k).raiseFault k e.exc
  | .ok (.done addr) =>
    (f.1.entered k).updStall k (fun t => { t with status := setBit t.status 8 false, repFirst := false, pcc := pccAt t.pcc addr, fetched := [] })
  | .ok (.iter b addr) =>
    let s := f.1.entered k
    if (s.stall k).blocked b then s else s.runBundle ctl k b addr true micro
  | .ok (.once b addr) =>
    let s := f.1.entered k
    if (s.stall k).blocked b then s else if b.isRep then s.runRep k b addr else s.runBundle ctl k b addr false micro

/-- What a stall must be for a bundle or a byte code of it to issue (08 R171): its context runs, no exception or event comes first, it waits for no
routine or park, and no other core's buffer holds a store of the context (10 R226). `routine` is for what goes on in the stall's own sequencer. -/
def State.issuable (s : State) (k : Nat) (routine : Bool := false) : Bool :=
  let t := s.stall k
  (if routine then s.mayGoOn k else s.mayRun k) && t.exc.isNone && t.yielding.isNone && (routine || (s.routine k).isNone) && !s.eventFirst k &&
    !s.cores.any (fun e => e.1 != coreOf k && e.2.hasStores (s.cidOf k))

/-- Whether the next bundle of a stall issues now: it is not blocked, and none of its syllables waits. -/
def State.bundleReady (ctl : Ctl) (s : State) (k : Nat) : Bool :=
  let f := s.fetchNext k
  let ok (b : Bundle) (addr : Nat) : Bool :=
    !(f.1.stall k).blocked b && (b.isRep || !(f.1.evalBundle ctl k b addr false).wait)
  match f.2 with
  | .ok (.once b addr) => ok b addr
  | .ok (.iter b addr) => ok b addr
  | _ => true

/-- 07 R157: S63 of stall `k`'s core is another stall and is ready, with a bundle or a byte code: it is selected first. -/
def State.s63First (ctl : Ctl) (s : State) (k : Nat) : Bool :=
  let j := coreOf k * 64 + 63
  k != j && (s.stall j).cid.isSome && s.issuable j && (if stCM (s.stall j).status then (s.stall j).vzWait.isNone else s.bundleReady ctl j)

/-- BUNDLE_ISSUE: a stall that may issue issues its next bundle. Nothing happens while it may not, or while S63 of its core is ready. -/
def issueWith (ctl : Ctl) (k : Nat) (s : State) : State :=
  if !s.issuable k || stCM (s.stall k).status || s.s63First ctl k then s
  else if (s.stall k).exiting then
    (if s.storesOpen (s.cidOf k) then s else s.exitContext k)
  else s.runNext ctl k false

end Sys2Proof.Machine
end

