-- ==== Sys2Proof/Machine/Vz3.lean ====
section
/-!
DEFINITION. VZ-3 compatibility mode (09 R216–R220): fetch of byte codes, the stack, and the byte codes of Table 9.13. A byte
code commits at one word; a read of it that must wait leaves it unexecuted until its value has come.
-/

namespace Sys2Proof.Machine

/-- How a byte code stops short: a fault with the state it leaves, a wait, or a read sent that is awaited. -/
inductive VzStop where
  | fail (s : State) (f : Fail)
  | wait
  | send (f : State → State)

/-- A byte code under way: who runs it, the state it starts from, its position, the position after it, its operand. -/
structure Vz where
  ctl : Ctl
  me : Me
  base : State
  pos : Nat
  next : Nat
  arg : Nat

/-- The mark in `Run.busy` of a byte code that has stored. -/
abbrev vzStored : Nat := 200

/-- A fault of a byte code met in state `s`: what it stored is taken back (09 R219). -/
def Vz.stop (v : Vz) (r : Run) (s : State) (f : Fail) : VzStop := .fail (if r.busy.contains vzStored then v.base.keepSide s else s) f

/-- Turn a syllable's result into a byte code's. -/
def ofRes (v : Vz) (r : Run) : Res → Except VzStop Run
  | .ok r => .ok r
  | .fail s f => .error (v.stop r s f)
  | _ => .error .wait

/-- A check. -/
def vzCheck {α : Type} (v : Vz) (r : Run) : Except Fail α → Except VzStop α
  | .ok a => .ok a
  | .error f => .error (v.stop r r.s f)

/-- Send an awaited read. -/
def vzAwait (v : Vz) (key : Nat) (f : State → State) : Except VzStop (Run × Gran) :=
  .error (.send (fun s => (f s).updStall v.me.k (fun t => { t with vzWait := some key })))

/-- A read through slot `g` of register `n` at `va`, as LDW or LDC performs it; with `n` = 0 the slot is no register's. One that was awaited and has
come is not made again. -/
def vzRead (v : Vz) (r : Run) (cap : Bool) (n : Nat) (g : Gran) (va : Int) : Except VzStop (Run × Gran) := do
  let me := v.me
  let lk : LoadKind := if cap then .cap else .word
  let c := Cap.ofGran g
  let key := va.toNat * 2 + b2n cap
  let got := (me.t0.vzGot.find? (fun e => e.1 == key)).map (·.2)
  if g.isCap && c.kind == kDEVICE then
    if r.s.isLocal c.node then
      match devAccess v.ctl me { r with t := me.t0 } g va (if cap then .ldc else .ldw) 1 with
      | .ok r' => .ok ({ r with s := r'.s, post := r'.post }, r'.t.getG 1)
      | .fail s f => .error (v.stop r s f)
      | _ => .error .wait
    else
      match got with
      | some x => .ok (r, x)
      | none =>
        match devAccess v.ctl me r g va (if cap then .ldc else .ldw) 0 with
        | .fail s f => .error (v.stop r s f)
        | .ok _ => vzAwait v key (fun s => s.remoteIssue me.k (some vzReg) { pt := ptLOAD, dst := c.node, src := 0, dev := true, addr := va.toNat })
        | _ => .error .wait
  else
    let c ← vzCheck v r (checkAccess g va (if cap then 16 else 8) kindLoads [if cap then pLDC else pLD])
    match got with
    | some x => .ok (r, x)
    | none =>
      if accessWaits me r.s then .error .wait
      else if !r.s.isLocal c.node then
        if r.s.freeSlot.isNone then .error .wait
        else vzAwait v key (fun s => s.remoteIssue me.k (some vzReg)
          { pt := ptLOAD, dst := c.node, src := 0, ver := c.ver, cap := cap, addr := va.toNat })
      else
        let l := r.s.land me.who.core me.berth g va.toNat
        match l.2 with
        | .error f => .error (v.stop r l.1 f)
        | .ok loc =>
          match loc.m with
          | .error e => .error (v.stop r l.1 (busFail g va.toNat e))
          | .ok m =>
            let own := l.1.ownView me.who.core me.cid loc.pa m.g
            let hi := !cap && decide (va.toNat % 16 ≥ 8)
            let s1 := (l.1.touchRead (shedOfCore me.who.core) me.berth (loc.pa / 64) (loc.pa / 16 % 4)).touchL1 me.who.core (loc.pa / 64) false
            match lk.read own hi with
            | .bad sub => .error (v.stop r s1 (accFail 14 cTAG sub 0 g va))
            | .wait => vzAwait v key (fun s => s.register (me.origin g va) me.cid vzReg (loc.pa + (if hi then 8 else 0)) lk.wait (own.word hi))
            | .value x =>
              let y := rebaseLoaded me s1 loc m own x
              let t := match loc.heal with | some h => (if n = 0 then r.t else r.t.setG n h) | none => r.t
              .ok ({ r with s := y.1, t := t }, y.2)

/-- A word stored through slot `g` of register `n` at `va`, as STW performs it, past the merging buffer (10 R224); with `n` = 0 the slot is no
register's. -/
def vzStore (v : Vz) (r : Run) (n : Nat) (g : Gran) (va : Int) (w : TWord) : Except VzStop Run := do
  let x ←
    if g.isCap && (Cap.ofGran g).kind == kDEVICE then ofRes v r (devAccess v.ctl v.me r g va (.stw w.noCap) 0)
    else do
      let c ← vzCheck v r (checkAccess g va 8 kindStores [pST])
      let i := if n = 0 then 1 else n
      ofRes v r (storeAt { v.me with t0 := v.me.t0.setG i g } true true { r with busy := (if n = 0 then [1] else []) ++ r.busy } false false false i c
        va.toNat (Gran.ofWord w))
  .ok { x with busy := vzStored :: r.busy }

/-- The conditions on G30 for an access at `va` (09 R219). -/
def vzStack (v : Vz) (r : Run) (va : Int) : Except VzStop Cap := vzCheck v r (checkAccess (r.t.getG 30) va 8 (· == kSTACK) [pLD, pST])

/-- A register takes slot `g` with ADDR moved, as CINCA moves it, or BOUNDS. -/
def vzMove (v : Vz) (r : Run) (n : Nat) (g : Gran) (va : Int) : Except VzStop Run := do
  let c ← vzCheck v r (useCap g)
  let g' := c.withAddr va
  if g'.isCap then .ok { r with t := r.t.setG n g' } else .error (v.stop r r.s (accFail 10 cCAP cfBOUNDS 0 g va))

/-- The cell `i` from the top of the stack. -/
def vzPeek (v : Vz) (r : Run) (i : Nat) : Except VzStop (Run × TWord) := do
  let g := r.t.getG 30
  let va : Nat := (Cap.ofGran g).addr + 8 * i
  let _ ← vzStack v r va
  let x ← vzRead v r false 30 g va
  .ok (x.1, x.2.lo)

/-- Pop a word. -/
def vzPop (v : Vz) (r : Run) : Except VzStop (Run × TWord) := do
  let x ← vzPeek v r 0
  let g := x.1.t.getG 30
  let r ← vzMove v x.1 30 g ((Cap.ofGran g).addr + 8)
  .ok (r, x.2)

/-- Push a word. -/
def vzPush (v : Vz) (r : Run) (w : TWord) : Except VzStop Run := do
  let g := r.t.getG 30
  let va : Int := ((Cap.ofGran g).addr : Int) - 8
  let _ ← vzStack v r va
  let r ← vzMove v r 30 g va
  vzStore v r 30 (r.t.getG 30) va w

/-- The operand byte or bytes as a signed number of `w` bits. -/
def Vz.simm (v : Vz) (w : Nat) : Int := sextN w v.arg

/-- Continue at the displacement. -/
def vzGo (v : Vz) (r : Run) : Run := { r with pcc := some (pccAt v.me.t0.pcc ((v.pos : Int) + v.simm 16)) }

/-- A word that counts as false. -/
def isFalse (w : TWord) : Bool := w.tag == tagNIL || (w.tag == tagBOOL && w.val == 0)

/-- A generic operation on two words (05 Table 5.2), with its flags. -/
def vzGen (v : Vz) (r : Run) (op : GOp) (a b : TWord) (unary : Bool) : Except VzStop (Run × TWord) :=
  let go : Except VzStop (Run × TWord) :=
    match gOp op v.me.t0.fstatus a b with
    | .ok o => .ok ({ r with fflags := r.fflags ||| o.fflags, iflags := r.iflags ||| o.iflags }, o.w)
    | .error e => .error (v.stop r r.s (opFail e a.tag (if unary then 0 else b.tag)))
  if gUsesFloat op a.tag b.tag then
    if !stFEN v.me.t0.status then .error (v.stop r r.s fpUnavailable) else if !floatHere v.me.k v.me.cid v.me.t0 then .error .wait else go
  else go

/-! ### Byte codes -/

/-- Push a constant. -/
def vzConst (w : TWord) (v : Vz) (r : Run) : Except VzStop Run := vzPush v r w

/-- PUSHK and LOADL: push the word at a register's ADDR + 8 × index. -/
def vzLoadAt (n : Nat) (v : Vz) (r : Run) : Except VzStop Run := do
  let g := r.t.getG n
  let x ← vzRead v r false n g ((Cap.ofGran g).addr + 8 * v.arg)
  vzPush v x.1 x.2.lo

/-- STOREL. -/
def vzStoreAt (n : Nat) (v : Vz) (r : Run) : Except VzStop Run := do
  let x ← vzPop v r
  let g := x.1.t.getG n
  vzStore v x.1 n g ((Cap.ofGran g).addr + 8 * v.arg) x.2

def vzDup (v : Vz) (r : Run) : Except VzStop Run := do
  let x ← vzPeek v r 0
  vzPush v x.1 x.2

def vzDrop (v : Vz) (r : Run) : Except VzStop Run := do
  let x ← vzPop v r
  .ok x.1

def vzSwap (v : Vz) (r : Run) : Except VzStop Run := do
  let b ← vzPop v r
  let a ← vzPop v b.1
  let r ← vzPush v a.1 b.2
  vzPush v r a.2

def vzOver (v : Vz) (r : Run) : Except VzStop Run := do
  let x ← vzPeek v r 1
  vzPush v x.1 x.2

/-- A generic operation on b popped, then a popped. -/
def vzBin (op : GOp) (v : Vz) (r : Run) : Except VzStop Run := do
  let b ← vzPop v r
  let a ← vzPop v b.1
  let x ← vzGen v a.1 op a.2 b.2 false
  vzPush v x.1 x.2

def vzNeg (v : Vz) (r : Run) : Except VzStop Run := do
  let a ← vzPop v r
  let x ← vzGen v a.1 .neg a.2 TWord.zero true
  vzPush v x.1 x.2

/-- A compare: the BOOL that CMP.G gives. -/
def vzCmp (rel : Nat) (v : Vz) (r : Run) : Except VzStop Run := do
  let b ← vzPop v r
  let a ← vzPop v b.1
  let fl := gUsesFloat .add a.2.tag b.2.tag
  if fl && !stFEN v.me.t0.status then .error (v.stop a.1 a.1.s fpUnavailable)
  else if fl && !floatHere v.me.k v.me.cid v.me.t0 then .error .wait
  else
    match gCmp rel v.me.t0.fstatus a.2 b.2 with
    | .ok o => vzPush v { a.1 with fflags := a.1.fflags ||| o.fflags } ⟨tagBOOL, b2w (o.w.val != 0)⟩
    | .error e => .error (v.stop a.1 a.1.s (opFail e a.2.tag b.2.tag))

/-- AND, OR and XOR (05 R98). -/
def vzLogic (op : LOp) (v : Vz) (r : Run) : Except VzStop Run := do
  let b ← vzPop v r
  let a ← vzPop v b.1
  vzPush v a.1 (logicOp op a.2 b.2).w

def vzJmp (v : Vz) (r : Run) : Except VzStop Run := .ok (vzGo v r)

/-- JF and JT. A BOOL is interpreted, so its payload must be canonical (02 R23). -/
def vzJif (sense : Bool) (v : Vz) (r : Run) : Except VzStop Run := do
  let a ← vzPop v r
  if a.2.tag == tagBOOL && !canonical a.2 then .error (v.stop a.1 a.1.s (tagFail 2))
  else .ok (if isFalse a.2 != sense then vzGo v a.1 else a.1)

def vzTag (v : Vz) (r : Run) : Except VzStop Run := do
  let a ← vzPop v r
  vzPush v a.1 (TWord.fix (w64 a.2.tag.toNat))

/-- The capability in the granule at G28's ADDR + 16 × u8, read as LDC. -/
def vzKap (v : Vz) (r : Run) : Except VzStop (Run × Gran) :=
  let g := r.t.getG 28
  vzRead v r true 28 g ((Cap.ofGran g).addr + 16 * v.arg)

def vzLoadx (v : Vz) (r : Run) : Except VzStop Run := do
  let i ← vzPop v r
  if !isIndex i.2 then .error (v.stop i.1 i.1.s (tagFail 0x03))
  else
    let k ← vzKap v i.1
    let x ← vzRead v k.1 false 0 k.2 ((Cap.ofGran k.2).addr + 8 * i.2.val.toInt)
    vzPush v x.1 x.2.lo

def vzStorex (v : Vz) (r : Run) : Except VzStop Run := do
  let w ← vzPop v r
  let i ← vzPop v w.1
  if !isIndex i.2 then .error (v.stop i.1 i.1.s (tagFail 0x03))
  else
    let k ← vzKap v i.1
    vzStore v k.1 0 k.2 ((Cap.ofGran k.2).addr + 8 * i.2.val.toInt) w.2

/-- A push on G31 (07 R142). -/
def vzPush31 (v : Vz) (r : Run) (xs : List Gran) : Except VzStop Run :=
  let p := r.s.push v.me.who (r.t.getG 31) xs
  match p.2 with
  | .error f => .error (v.stop r p.1 f)
  | .ok g => .ok { r with s := p.1, t := r.t.setG 31 g, busy := vzStored :: r.busy }

/-- A pop from G31. -/
def vzPop31 (v : Vz) (r : Run) (n : Nat) : Except VzStop (Run × List Gran) :=
  let p := r.s.pop v.me.who (r.t.getG 31) n
  match p.2 with
  | .error f => .error (v.stop r p.1 f)
  | .ok (xs, g) => .ok ({ r with s := p.1, t := r.t.setG 31 g }, xs)

/-- CALLK (09 R219). -/
def vzCallk (v : Vz) (r : Run) : Except VzStop Run := do
  let k ← vzKap v r
  let pcc ← vzCheck v k.1 (jumpTarget true false k.2)
  let r ← vzPush31 v k.1 [pccAt v.me.t0.pcc v.next, rawGran (w64 v.me.t0.predsNat) 0]
  let r ← vzPush31 v r [r.t.getG 29]
  .ok { r with t := r.t.setG 29 (r.t.getG 30), pcc := some pcc }

/-- RETN (09 R219). -/
def vzRetn (v : Vz) (r : Run) : Except VzStop Run := do
  let x ← vzPop v r
  let g29 := x.1.t.getG 29
  let r ← vzMove v x.1 30 g29 ((Cap.ofGran g29).addr + 8 * v.arg)
  let a ← vzPop31 v r 1
  let r := { a.1 with t := a.1.t.setG 29 ((listAt a.2 0).getD Gran.zero) }
  let b ← vzPop31 v r 2
  let ret := (listAt b.2 0).getD Gran.zero
  let pw := ((listAt b.2 1).getD Gran.zero).lo
  let _ ← vzCheck v b.1 (firstFail [popWord (r.t.getG 31) pw])
  let _ ← vzCheck v b.1 (checkRestoredPcc ret (stPL v.me.t0.status) true)
  vzPush v { b.1 with t := { b.1.t with preds := pw.val.setWidth 8 ||| 1 }, pcc := some ret } x.2

def vzExit (v : Vz) (r : Run) : Except VzStop Run := if isS63 v.me.k then .error (v.stop r r.s illegal) else .ok { r with ends := true }

/-- NATIVE (09 R218). -/
def vzNative (v : Vz) (r : Run) : Except VzStop Run :=
  .ok { r with t := { r.t with status := setBit r.t.status 11 false }, pcc := some (pccAt v.me.t0.pcc (((v.pos + 4) / 4 * 4 : Nat) : Int)) }

def vzBreak (_ : Vz) (r : Run) : Except VzStop Run := .ok { r with trap := some { cause := cBREAK, syl := 0xFF } }

/-- A byte code of Table 9.13: how many operand bytes it has, the registers it names, and what it does. -/
structure VzCode where
  n : Nat := 0
  names : List Nat := [30]
  body : Vz → Run → Except VzStop Run

/-- Table 9.13. -/
def vzCode (op : Nat) : VzCode :=
  match op with
  | 0x00 => { names := [], body := fun _ r => .ok r }
  | 0x01 => { n := 1, body := fun v r => vzPush v r (TWord.fix (w64i (v.simm 8))) }
  | 0x02 => { n := 4, body := fun v r => vzPush v r (TWord.fix (w64i (v.simm 32))) }
  | 0x03 => { body := vzConst ⟨tagNIL, 0⟩ }
  | 0x04 => { body := vzConst ⟨tagBOOL, 1⟩ }
  | 0x05 => { body := vzConst ⟨tagBOOL, 0⟩ }
  | 0x06 => { n := 1, names := [28, 30], body := vzLoadAt 28 }
  | 0x07 => { n := 2, names := [28, 30], body := vzLoadAt 28 }
  | 0x08 => { n := 1, names := [29, 30], body := vzLoadAt 29 }
  | 0x09 => { n := 1, names := [29, 30], body := vzStoreAt 29 }
  | 0x0A => { n := 2, names := [29, 30], body := vzLoadAt 29 }
  | 0x0B => { n := 2, names := [29, 30], body := vzStoreAt 29 }
  | 0x0C => { body := vzDup }
  | 0x0D => { body := vzDrop }
  | 0x0E => { body := vzSwap }
  | 0x0F => { body := vzOver }
  | 0x10 => { body := vzBin .add }
  | 0x11 => { body := vzBin .sub }
  | 0x12 => { body := vzBin .mul }
  | 0x13 => { body := vzBin .div }
  | 0x14 => { body := vzBin .rem }
  | 0x15 => { body := vzNeg }
  | 0x16 => { body := vzBin .ash }
  | 0x17 => { body := vzCmp 0 }
  | 0x18 => { body := vzCmp 1 }
  | 0x19 => { body := vzCmp 2 }
  | 0x1A => { body := vzCmp 3 }
  | 0x1B => { body := vzCmp 4 }
  | 0x1C => { body := vzCmp 5 }
  | 0x1D => { body := vzLogic .and }
  | 0x1E => { body := vzLogic .or }
  | 0x1F => { body := vzLogic .xor }
  | 0x20 => { n := 2, names := [], body := vzJmp }
  | 0x21 => { n := 2, body := vzJif false }
  | 0x22 => { n := 2, body := vzJif true }
  | 0x23 => { body := vzTag }
  | 0x24 => { n := 1, names := [28, 30], body := vzLoadx }
  | 0x25 => { n := 1, names := [28, 30], body := vzStorex }
  | 0x26 => { n := 1, names := [28, 29, 30, 31], body := vzCallk }
  | 0x27 => { n := 1, names := [29, 30, 31], body := vzRetn }
  | 0xFD => { names := [], body := vzExit }
  | 0xFE => { names := [], body := vzNative }
  | 0xFF => { names := [], body := vzBreak }
  | _ => { names := [], body := fun v r => .error (v.stop r r.s illegal) }

/-! ### Issue of a byte code -/

/-- `n` bytes at `va`, little-endian, each fetched and checked alone: those fetched, PCC rebased where a forward was followed (12 R284), and the fault
of the first that cannot be. -/
def State.vzBytes (s : State) (core b : Nat) (g : Gran) : Nat → Nat → State × Nat × Option Gran × Option Fail
  | 0, _ => (s, 0, none, none)
  | n + 1, va =>
    let r := s.fetchBytes core b g va 1
    match r.2 with
    | .error f => (r.1, 0, none, some f)
    | .ok (x, h) =>
      let more := r.1.vzBytes core b g n (va + 1)
      (more.1, x + 256 * more.2.1, h.orElse (fun _ => more.2.2.1), more.2.2.2)

/-- What slot 7 of a frame names of a byte code: it and up to three of its operand bytes (09 R220). -/
def vzSyl (op arg : Nat) : Nat := (op + 256 * arg) % 2 ^ 32

/-- A fault of the byte code at a stall's position. -/
def State.vzFault (s : State) (k syl : Nat) (e : Exc) : State := (s.abandon k).raiseFault k { e with slot := 7, syl := syl }

/-- The byte code and operand at a stall's position, as fetched (09 R217) or as the byte code under way was; else the state that its fetch fault
leaves. -/
def State.vzFetch (s : State) (k : Nat) : Except State (State × Nat × Nat) :=
  let t := s.stall k
  let core := coreOf k
  let b := stBerth t.status
  match checkPcc s t.pcc (stPL t.status) with
  | .error f => .error (s.vzFault k 0 f.exc)
  | .ok c =>
    match t.fetched.find? (fun e => e.1 == c.addr) with
    | some (_, [op, arg]) => .ok (s, op, arg)
    | _ =>
      let o := s.vzBytes core b t.pcc 1 c.addr
      match o.2.2.2 with
      | some f => .error (o.1.vzFault k 0 f.exc)
      | none =>
        let a := o.1.vzBytes core b t.pcc (vzCode o.2.1).n (c.addr + 1)
        match a.2.2.2 with
        | some f => .error (a.1.vzFault k (vzSyl o.2.1 a.2.1) f.exc)
        | none =>
          let s := match o.2.2.1.orElse (fun _ => a.2.2.1) with | some g => a.1.updStall k (fun t => { t with pcc := g }) | none => a.1
          .ok (s.entered k, o.2.1, a.2.1)

/-- A byte code that may run: the byte code and the byte code under way, with its registers at hand; else the state in which nothing has run. `p` says
which byte codes the command stands for. -/
def State.vzPrep (ctl : Ctl) (s : State) (k : Nat) (p : Nat → Bool) : Except State (Nat × Vz) :=
  let t := s.stall k
  let core := s.core (coreOf k)
  if !s.issuable k true || !stCM t.status || t.vzWait.isSome || s.s63First ctl k ||
      ((s.routine k).isNone && core.seqr0.isSome && core.seqr1.isSome) || t.exiting then .error s
  else
    match s.vzFetch k with
    | .error s' => .error s'
    | .ok (s1, op, arg) =>
      let names := (vzCode op).names
      if !p op then .error s
      else if stRPA t.status then .error (s1.vzFault k (vzSyl op arg) { cause := cILLEGAL })
      else if names.any (fun r => maskBit t.pend r || maskBit t.inframe r) then .error s1
      else
        match names.find? (maskBit t.refused) with
        | some r => .error (s1.takeRefusal k r)
        | none =>
          let q := s1.fetchSlots k names
          match q.2 with
          | some sub => .error (q.1.vzFault k (vzSyl op arg) { cause := cBUS, subcode := sub })
          | none => .ok (op, { ctl := ctl, me := q.1.me k, base := q.1, pos := q.1.pc k, next := q.1.pc k + 1 + (vzCode op).n, arg := arg })

/-- What a byte code does, from the state it starts from. -/
def vzRun (op : Nat) (v : Vz) : Except VzStop Run := (vzCode op).body v { s := v.base, t := v.me.t0 }

/-- A byte code that has run: its registers and PCC take effect, its reads are forgotten and its sequencer is free. -/
def vzDone (op : Nat) (v : Vz) (r : Run) : State :=
  let r : Run := { r with t := { r.t with vzGot := [] }, trap := r.trap.map (fun e : Exc => { e with syl := vzSyl op v.arg }) }
  if r.ends then ((r.post r.s.leaveBoot).dropRoutine v.me.k).tryExit v.me.k
  else (State.complete v.me.k { r with pcc := some (r.pcc.getD (pccAt v.me.t0.pcc v.next)) } false v.pos v.next v.me.t0).dropRoutine v.me.k

/-- The byte code at a stall's position runs, whole or not at all (09 R217, R219). One that awaits a read stays in its sequencer with what it has. -/
def State.vzGo (ctl : Ctl) (s : State) (k : Nat) (p : Nat → Bool) : State :=
  match s.vzPrep ctl k p with
  | .error s' => s'
  | .ok (op, v) =>
    match vzRun op v with
    | .error .wait => v.base
    | .error (.send f) => f ((v.base.claimSeqr k).updStall k (fun t => { t with fetched := [(v.pos, [op, v.arg])] }))
    | .error (.fail s f) => s.vzFault k (vzSyl op v.arg) f.exc
    | .ok r => vzDone op v r

/-- A byte code's command: the stall stands at a byte code that `p` accepts, and it may run now (08 R171, 09 R200). -/
def vzIssue (ctl : Ctl) (k : Nat) (p : Nat → Bool) (s : State) : State :=
  if (s.stall k).exiting && stCM (s.stall k).status && s.issuable k then (if s.storesOpen (s.cidOf k) then s else s.exitContext k)
  else s.vzGo ctl k p

end Sys2Proof.Machine
end

