-- ==== Sys2Proof/Machine/Micro.lean ====
section
/-!
DEFINITION. MICROWORD_WAIT (09 R199–R211, R217): a routine's sequencer. While no match register is valid the ROM alone runs, and a routine does what
its operation's rule states at one word, its commit word. While one is valid the sequencer steps word by word: its addresses, branches, waits,
loop counter, micro-stack, staged copies and errors are the rules of this chapter; the datapath's results, which no rule gives, are free values, and
what the routine does at its commit word is still its operation's rule (log entry 117).
-/

namespace Sys2Proof.Machine

/-! ### The microword (09 Tables 9.2 and 9.3) -/

abbrev mwNEXT (w : Nat) : Nat := nbits w 191 177
/-- BC0 to BC3. -/
abbrev mwBC (w i : Nat) : Nat := nbits w (158 + 6 * i) (153 + 6 * i)
abbrev mwWEN (w : Nat) : Bool := nbit w 152
abbrev mwWSEL (w : Nat) : Nat := nbits w 151 147
abbrev mwSEQ (w : Nat) : Nat := nbits w 146 145
abbrev mwCOMMIT (w : Nat) : Bool := nbit w 144
abbrev mwEND (w : Nat) : Bool := nbit w 143
abbrev mwASRC (w : Nat) : Nat := nbits w 136 131
abbrev mwBSRC (w : Nat) : Nat := nbits w 130 125
abbrev mwDST (w : Nat) : Nat := nbits w 124 119
abbrev mwMEMOP (w : Nat) : Nat := nbits w 114 110
abbrev mwCTR (w : Nat) : Nat := nbits w 97 96
abbrev mwRAISE (w : Nat) : Nat := nbits w 95 89
abbrev mwSUBC (w : Nat) : Nat := nbits w 88 81
abbrev mwLIT (w : Nat) : Nat := nbits w 63 0

/-- The branch condition codes that Table 9.4 defines, and the sources of DISPATCH. -/
def bcDefined (c : Nat) : Bool :=
  decide (c ≤ 5) || (decide (8 ≤ c) && decide (c ≤ 0x10)) || (decide (0x12 ≤ c) && decide (c ≤ 0x16)) || c == 0x18 || c == 0x19 ||
    (decide (0x20 ≤ c) && decide (c ≤ 0x27))

/-- The codes a word's sequencing reads are all defined (09 R203, R205). -/
def bcsOk (w : Nat) : Bool :=
  if mwSEQ w == 3 then (decide (0x30 ≤ mwBC w 0) && decide (mwBC w 0 ≤ 0x32)) && mwBC w 1 == 0 && mwBC w 2 == 0 && mwBC w 3 == 0
  else bcDefined (mwBC w 0) && bcDefined (mwBC w 1) && bcDefined (mwBC w 2) && bcDefined (mwBC w 3)

/-- A class-C memory operation (Table 9.6). -/
def memopC (m : Nat) : Bool := decide (0x10 ≤ m) && decide (m ≤ 0x18)
/-- One that reads. -/
def memopReads (m : Nat) : Bool := decide (1 ≤ m) && decide (m ≤ 3)

/-- What a word breaks of R205 when it is reached: a wait, branch or source code that is reserved, class C before the commit word. -/
def wordErr (w : Nat) (committed nano : Bool) : Bool :=
  (mwWEN w && decide (11 < mwWSEL w)) || !bcsOk w || decide (0x1D < mwASRC w) || decide (0x1D < mwBSRC w) ||
    (memopC (mwMEMOP w) && !committed && !mwCOMMIT w) || (nano && mwSEQ w == 3)

/-! ### Match registers and patch RAM (09 R210, R211) -/

/-- Whether any match register is valid. -/
def State.patched (s : State) : Bool := (upTo 64).any (fun i => nbit (s.ent 0x8000 (0x40 + i)) 31)

/-- The patch RAM index that a valid register gives a ROM address. -/
def State.matched (s : State) (a : Nat) : Option Nat :=
  ((upTo 64).find? (fun i => nbit (s.ent 0x8000 (0x40 + i)) 31 && nbits (s.ent 0x8000 (0x40 + i)) 22 9 == a)).map (fun i => nbits (s.ent 0x8000 (0x40 + i)) 8 0)

/-- A patch RAM word read by a copy of shed `h` under its SECDED: a single-bit error is corrected and counted, a double-bit error is a control-store
error and raises the error line of the shed that holds the copy. INJECT feeds it through the shed (DESIGN CHOICE, log entry 117). -/
def State.patchWord (s : State) (h i : Nat) : State × Option Nat :=
  let q := s.injected h
  let w := (SMap.get (fun _ => 0) q.1.patchRam i).toNat
  if q.2 = 0 then (q.1, some w)
  else if q.2 = injectMask 1 then (q.1.bump 0x8000 0x0A 32 1, some w)
  else (q.1.raise { bit := h, kind := .unit, source := h }, none)

/-- The word at a control-store address: none is a control-store error (09 Table 9.1, R205, R210). -/
def State.csWord (s : State) (h a : Nat) : State × Option Nat :=
  if a < 0x4000 then
    match s.matched a with
    | some i => s.patchWord h i
    | none => (s, some (Config.rom a).toNat)
  else if a < 0x4000 + s.ent 0x8000 0x09 then s.patchWord h (a - 0x4000)
  else (s, none)

/-! ### Sequencing (09 R203, R204) -/

/-- A slot that a routine has by its code (Table 9.3): its micro-registers and staged copies, and the bundle's RA and RB slots as it was entered. -/
def Routine.src (r : Routine) (code : Nat) : Gran := SMap.get (fun _ => Gran.zero) r.mr code

/-- A branch condition (Table 9.4); those of the datapath are free. -/
def State.microCond (s : State) (r : Routine) (param c : Nat) : State × Bool :=
  let t := s.stall r.stall
  let b := stBerth t.status
  match c with
  | 0x00 => (s, false)
  | 0x05 => (s, r.ctr == 0)
  | 0x0C => (s, s.marking b)
  | 0x0D => (s, s.evacuating b)
  | 0x12 => (s, (r.src 0x10).lo.tag == tagFIX)
  | 0x13 => (s, (r.src 0x11).lo.tag == tagFIX)
  | 0x14 => (s, (r.src 0x10).lo.tag == tagFLO)
  | 0x15 => (s, (r.src 0x11).lo.tag == tagFLO)
  | 0x18 => (s, stCM t.status)
  | 0x19 => (s, stDF t.status)
  | c => if 0x20 ≤ c ∧ c ≤ 0x27 then (s, nbit param (c - 0x20)) else ({ s with fresh := s.fresh + 1 }, Config.microFlag c s.fresh)

/-- The branch bits of a word. -/
def State.microBits (s : State) (r : Routine) (w param : Nat) : State × Nat :=
  (upTo 4).foldl (fun (a : State × Nat) i =>
    let q := a.1.microCond r param (mwBC w i)
    (q.1, a.2 + b2n q.2 * 2 ^ i)) (s, 0)

/-- The value that DISPATCH ORs in. -/
def dispatchVal (r : Routine) (src : Nat) : Nat :=
  (match src with | 0x30 => (r.src 0x10).lo.tag | 0x31 => (r.src 0x11).lo.tag | _ => r.mdata.lo.tag).toNat

/-- In the 18-bit path a sequencer's next word is its 18-bit word's (09 R217): what stands for its control-store address then. -/
abbrev inNano : Nat := 0x8000

/-- The routine at its next word, or none where its micro-stack fails it or the address is reserved (09 R203, R205). -/
def State.microNext (s : State) (r : Routine) (w param : Nat) (nano : Bool) : State × Option Routine :=
  let q := s.microBits r w param
  let c := q.2
  let pop : Option Routine :=
    match r.ustack.getLast? with
    | none => none
    | some a => some { r with upc := a, ustack := r.ustack.dropLast }
  let push (a : Nat) (r : Routine) : Option Routine := if r.ustack.length < 4 then some { r with ustack := r.ustack ++ [a] } else none
  let go : Option Routine :=
    if nano then
      let p := r.vz.getD 0 / 16 * 16 + ((r.vz.getD 0 % 16 + 1) ||| c)
      match mwSEQ w with
      | 0 => some { r with vz := some p }
      | 1 => push inNano { r with vz := some p, upc := mwNEXT w }
      | 2 => pop
      | _ => none
    else
      match mwSEQ w with
      | 0 => some { r with upc := mwNEXT w ||| c }
      | 1 => push (mwNEXT w ||| c) { r with upc := mwLIT w % 2 ^ 15 }
      | 2 => pop
      | _ => some { r with upc := mwNEXT w ||| dispatchVal r (mwBC w 0) }
  (q.1, match go with
    | some r => if r.upc == inNano || decide (r.upc < 0x4000 + s.ent 0x8000 0x09) then some r else none
    | none => none)

/-- A wait condition (Table 9.5) of a routine of stall `k`. A sequencer's own memory operations, divider and units never keep it waiting here. -/
def State.microReady (s : State) (k : Nat) (r : Routine) (wsel : Nat) : Bool :=
  match wsel with
  | 0 => (s.stall k).vzWait.isNone
  | 1 => !s.memFull (coreOf k)
  | 2 => s.freeSlot.isSome
  | 3 => !s.cores.any (fun c => c.2.hasStores (s.cidOf k))
  | 11 => match r.since with | some n => decide (n < s.time) | none => false
  | _ => true

/-- What a word leaves in the sequencer: the loop counter, MDATA, and its DST, a micro-register or a staged copy (09 R201, R202). -/
def State.microData (s : State) (r : Routine) (w : Nat) : State × Routine :=
  let v := (Config.microValue s.fresh).toNat
  let val : Gran := ⟨⟨BitVec.ofNat 8 (v / 2 ^ 64), w64 v⟩, ⟨BitVec.ofNat 8 (v / 2 ^ 136), w64 (v / 2 ^ 72)⟩⟩
  let r := match mwCTR w with
    | 1 => { r with ctr := mwLIT w % 2 ^ 16 }
    | 2 => { r with ctr := (r.ctr + 2 ^ 16 - 1) % 2 ^ 16 }
    | _ => r
  let r := if memopReads (mwMEMOP w) then { r with mdata := val } else r
  let d := mwDST w
  let dst := decide (d ≤ 0x0F) || (decide (0x12 ≤ d) && decide (d ≤ 0x19)) || d == 0x1C
  ({ s with fresh := s.fresh + 1 }, if dst then { r with mr := SMap.set (fun _ => Gran.zero) r.mr d val } else r)

/-! ### Control-store errors (09 R205) -/

/-- The shed's error line for a control-store error, and what the stall reset it brings reports. -/
def csErrorInfo : Word64 := ({ cause := cBUS, subcode := beNOTARGET } : Exc).info64
def State.csLine (s : State) (h k : Nat) : State := s.raise { bit := h, kind := .contained, source := k, master := 1 }

/-- A control-store error of a stall's routine: the context is destroyed as by a stall reset. -/
def State.csError (s : State) (k : Nat) : State := ((s.abandon k).stallReset k csErrorInfo).csLine (shedOf k) k

/-- The words of a routine that runs whole at one command (PARK, UNPARK, EXC_ENTRY, DF_ENTRY), `fuel` of them at most: whether it meets a control-store
error. What it waits for has come. -/
def State.csWalk (h : Nat) : Nat → State → Routine → State × Bool
  | 0, s, _ => (s, true)
  | fuel + 1, s, r =>
    let q := s.csWord h r.upc
    match q.2 with
    | none => (q.1, false)
    | some w =>
      let late := match r.after with | some n => decide (64 ≤ n) | none => false
      if late || wordErr w r.after.isSome false then (q.1, false)
      else
        let d := q.1.microData r w
        let r1 := { d.2 with after := match r.after with | some n => some (n + 1) | none => if mwCOMMIT w then some 0 else none }
        if mwEND w then (d.1, true)
        else
          let n := d.1.microNext r1 w 0 false
          match n.2 with
          | none => (n.1, false)
          | some r2 => State.csWalk h fuel n.1 r2

/-- Whether the routine of a row of Table 9.7 runs to its end for stall `k` in a control store of shed `h`. The ROM alone always does. -/
def State.routineRuns (s : State) (h k row : Nat) : State × Bool :=
  if s.patched then
    State.csWalk h 65536 s { stall := k, started := true, upc := Config.routineEntry row }
  else (s, true)

/-! ### Routines of bundles -/

/-- The row of Table 9.7 of a bundle's routine. -/
def opRow (marking : Bool) : Op → Option Nat
  | .rety => some 2
  | .cseal .. | .cunseal .. => some 3
  | .vnew .. => some 4
  | .vfree .. => some 5
  | .cons .. => some 6
  | .ldw .. | .ldc .. | .car .. | .cdr .. => some 7
  | .stc .. | .setcar .. | .setcdr .. => some (if marking then 8 else 9)
  | .spawn .. => some 10
  | .vz3 .. => some 13
  | _ => none

/-- A routine as it is entered (09 R202): micro-registers RAW zero, the operands' slots at hand. A byte code starts at its first 18-bit word. -/
def State.routineStart (s : State) (r : Routine) : Routine :=
  let t := s.stall r.stall
  if stCM t.status then
    let op := match s.vzFetch r.stall with | .ok (_, op, _) => op | .error _ => 0
    { r with started := true, upc := inNano, vz := some (16 * op) }
  else
    let f := s.fetchNext r.stall
    let syls := match f.2 with | .ok (.once b _) => b.syls | .ok (.iter b _) => b.syls | _ => []
    let m := s.marking (stBerth t.status)
    let x := syls.find? (fun x => (opRow m x.op).isSome)
    let reg (i : Nat) : Gran := match x with | some x => t.getG ((listAt x.op.gFields i).getD 0) | none => Gran.zero
    { r with started := true, upc := Config.routineEntry ((x.bind (fun x => opRow m x.op)).getD 0),
             mr := SMap.set (fun _ => Gran.zero) (SMap.set (fun _ => Gran.zero) [] 0x10 (reg 1)) 0x11 (reg 2) }

/-- The routine of sequencer `i` of core `c` is set. -/
def State.putRoutine (s : State) (c i : Nat) (r : Routine) : State := s.updCore c (fun x => x.setSeqr i (some r))

/-- The commit word of a stall's routine (09 R209): its operation's rule. -/
def State.commit (ctl : Ctl) (s : State) (k : Nat) : State :=
  if stCM (s.stall k).status then s.vzGo ctl k (fun _ => true) else s.runNext ctl k true

/-- One word of a routine under a patch. -/
def State.microStep (ctl : Ctl) (s : State) (c i : Nat) (r : Routine) : State :=
  let k := r.stall
  let h := shedOf k
  let r := if r.started then r else s.routineStart r
  let nano := r.upc == inNano
  let w18 := (Config.rom18 (r.vz.getD 0 % 4096)).toNat
  let q := s.csWord h (if nano then 0x3C00 + nbits w18 17 8 else r.upc)
  match q.2 with
  | none => q.1.csError k
  | some w0 =>
    let w := if nano then w0 / 256 * 256 + nbits w18 7 0 else w0
    let late := match r.after with | some n => decide (64 ≤ n) | none => false
    if late || wordErr w r.after.isSome nano then q.1.csError k
    else if mwWEN w && !s.microReady k r (mwWSEL w) then q.1.putRoutine c i { r with since := some (r.since.getD s.time) }
    else if nbit (mwRAISE w) 6 && r.after.isNone then
      (q.1.abandon k).raiseFault k { cause := mwRAISE w % 64, subcode := mwSUBC w }
    else
      let d := q.1.microData { r with since := none } w
      let n := d.1.microNext d.2 w (nbits w18 7 0) nano
      let next (s : State) (after : Option Nat) : State :=
        if mwEND w then s.dropRoutine k
        else match n.2 with | some r => s.putRoutine c i { r with after := after } | none => s.csError k
      match r.after with
      | some m => next n.1 (some (m + 1))
      | none =>
        if !mwCOMMIT w then next n.1 none
        else
          let x := (n.1.putRoutine c i r).commit ctl k
          if (x.routine k).isSome || (x.stall k).exc.isSome || (x.stall k).cid != (s.stall k).cid then x else next x (some 0)

/-- MICROWORD_WAIT (09 R204, R206, R209): a routine's wait ends and its next word acts, its commit word while the ROM alone runs; an event that is open
abandons it first. -/
def microWith (ctl : Ctl) (c i : Nat) (s : State) : State :=
  match (s.core c).seqr i with
  | none => s
  | some r =>
    let k := r.stall
    if !s.mayGoOn k then s
    else if s.eventFirst k && r.after.isNone then s.abandonFor k
    else if s.patched || r.after.isSome then s.microStep ctl c i r
    else s.commit ctl k

/-- EXC_ENTRY and DF_ENTRY run from the control store: a control-store error in one is the stall's (09 R205). -/
def excEntryMicro (k : Nat) (s : State) : State :=
  let s1 := doExcEntry k s
  if s.patched && ((s1.stall k).entering != (s.stall k).entering || (s1.stall k).dfOrig != (s.stall k).dfOrig) then
    let q := s.routineRuns (shedOf k) k (if (s.stall k).entering.isSome then 1 else 0)
    if q.2 then doExcEntry k q.1 else q.1.csError k
  else s1

end Sys2Proof.Machine
end

