-- ==== Sys2Proof/Machine/Stable.lean ====
section
/-!
DEFINITION. The Stable and its events (chapter 08): delivery of results, parking and unparking, frames, the float-state switch,
preemption, drains of the merging buffer, and the stall window.
-/

namespace Sys2Proof.Machine

/-! ### Special registers in the frame (08 Table 8.6) -/

/-- The slot of special register `sr` in the frame, and whether it is a word in the high half; registers held elsewhere have
none. -/
def srSlot (sr : Nat) : Option (Nat × Bool) :=
  match sr with
  | 0x02 => some (0x000, false)
  | 0x04 => some (0x290, false)
  | 0x08 => some (0x290, true)
  | 0x05 => some (0x2A0, false)
  | 0x06 => some (0x2A0, true)
  | 0x0C => some (0x2B0, false)
  | 0x0A => some (0x2C0, false)
  | 0x0B => some (0x2D0, false)
  | 0x0D => some (0x2E0, false)
  | 0x0E => some (0x2F0, false)
  | n => if 0x10 ≤ n ∧ n ≤ 0x17 then some (0x300 + 16 * (n - 0x10), false) else none

/-- The special registers a frame holds. -/
def frameSRs : List Nat := [2, 4, 5, 6, 8, 0xA, 0xB, 0xC, 0xD, 0xE, 0x10, 0x11, 0x12, 0x13, 0x14, 0x15, 0x16, 0x17]

/-- How a special register's slot changes at a spill. -/
def Stall.spillSR (t : Stall) (sr : Nat) : Option (Nat × (Gran → Gran)) :=
  match srSlot sr with
  | none => none
  | some (off, hi) =>
    if srIsCap sr then some (off, fun _ => t.readSR 0 sr)
    else some (off, fun g => g.setWord hi (TWord.raw (t.readSR 0 sr).lo.val))

/-! ### Delivery (08 R180) -/

/-- A context without a stall of its own whose frame cannot be reached is destroyed as by a stall reset (08 R187), which names stall `k`. -/
def State.loseContext (s : State) (cid k : Nat) (e : Exc) : State :=
  match s.stallOf cid with
  | some j => s.stallReset j e.info64
  | none => (s.destroy cid).reportReset k (s.statusOf cid) e.info64

/-- Write a slot of a parked context's frame. DESIGN CHOICE (log entry 118): R187 speaks of spills and reloads; where a delivery meets a fault of the frame,
the model destroys the context in the same way, and names the shed's lowest stall. -/
def State.frameStore (s : State) (cid off : Nat) (f : Gran → Gran) : State :=
  let w := s.framePut (cidShed cid) cid off f
  match w.2 with
  | none => w.1
  | some e => w.1.loseContext cid (1024 * cidShed cid) e

/-- Deliver a slot, or a refusal (08 R178), to a register of a context wherever it is; nowhere where the CID is stale or the
register awaits nothing. -/
def State.deliverReg (s : State) (cid reg : Nat) (v : Gran) (refused : Option Exc) : State :=
  if !s.living cid then s
  else
    let slot := match refused with | some e => (if e.cause = cFPTRAP then { e with taga := reg } else { e with info := reg } : Exc).refusal | none => v
    match s.liveStall cid with
    | some k =>
      let t := s.stall k
      if reg = vzReg then
        match t.vzWait, refused with
        | none, _ => s
        | some _, some e => (s.updStall k (fun t => { t with vzWait := none, vzGot := [] })).raiseFault k e
        | some key, none => s.updStall k (fun t => { t with vzWait := none, vzGot := t.vzGot ++ [(key, v)] })
      else if maskBit t.pend reg then
        s.updStall k (fun t =>
          { (t.setG reg slot) with pend := maskClr t.pend reg, refused := if refused.isSome then maskSet t.refused reg else t.refused })
      else s
    | none =>
      let rn := cidRecord cid
      let r := s.record rn
      if reg < 32 && maskBit r.pend reg then
        let hot := r.hots.any (fun h => h.1 == reg)
        let r := { r with pend := maskClr r.pend reg, block := maskClr r.block reg,
                          refused := if refused.isSome then maskSet r.refused reg else r.refused,
                          hots := r.hots.map (fun h => if h.1 = reg then (reg, slot) else h), gpois := maskClr r.gpois reg }
        let s := s.setRecord rn r
        let s := if hot then s else s.frameStore cid (16 * reg) (fun _ => slot)
        s.wakeRecord rn
      else s

/-- Flags ORed into a context's FSTATUS as it then stands (05 R108, 06 R124). -/
def State.orFstatus (s : State) (cid flags : Nat) : State :=
  if flags = 0 || !s.living cid then s
  else
    let own := if isIntCid cid then s.stallOf cid else (s.stalls.find? (fun e => e.2.fowner == some cid)).map (·.1)
    match own with
    | some k => s.updStall k (fun t => { t with fstatus := t.fstatus ||| flags, fdirty := true })
    | none => s.frameStore cid 0x280 (fun g => rawGran (g.lo.val ||| w64 flags) 0)

/-- RESULT_DELIVERY: the oldest fixed result of a register is delivered. -/
def doResultDelivery (cid reg : Nat) (s : State) : State :=
  match listFind (fun o : LocalOp => o.cid == cid && o.reg == reg && o.poll.isNone) s.ops with
  | none => s
  | some i =>
    match listAt s.ops i with
    | none => s
    | some o => ({ s with ops := listDel s.ops i }).deliverReg cid reg (o.value.getD Gran.zero) o.refusal

/-! ### Reads that wait (05 R107, 08 R181) -/

/-- The core whose line a home agent's read-modify-write for a context takes. -/
def State.coreFor (s : State) (cid : Nat) : Nat :=
  match s.stallOf cid with | some k => coreOf k | none => 16 * cidShed cid

/-- What a repeat of a waiting FADD.G, or of a retried read, comes to. -/
inductive Again where
  | waits
  | gave (v : Gran) (flags : Nat)
  | refused (e : Exc)

/-- Read again the word at `pa` for a waiting read of context `cid`, as the context sees it (10 R226): the state with what a FADD.G wrote. -/
def State.readAgain (s : State) (core cid b pa : Nat) (kind : WaitKind) (fs : Nat) : State × Again :=
  let hi := decide (pa % 16 ≥ 8)
  let r := s.readPA (shedOfCore core) (pa / 16 * 16)
  match r.2 with
  | .error e => (r.1, .refused { cause := cBUS, subcode := e })
  | .ok m =>
    match kind with
    | .fadd x _ =>
      (match readWord m.g hi true with
      | .wait => (r.1, .waits)
      | .bad sub => (r.1, .refused { cause := cTAG, subcode := sub })
      | .value old =>
        match gOp .add fs old.lo x with
        | .error e => (r.1, .refused (opFail e old.lo.tag x.tag).exc)
        | .ok o => ((r.1.wordBarrier b m.g).perform core b (pa / 16 * 16) m (m.g.writeWord hi o.w), .gave old o.fflags))
    | _ =>
      let own := r.1.ownView core cid (pa / 16 * 16) m.g
      let out := match kind with | .ldc => readGran own true | .pair => readPair own | _ => readWord own hi true
      match out with
      | .wait => (r.1, .waits)
      | .bad sub => (r.1, .refused { cause := cTAG, subcode := sub })
      | .value v => let x := if v.isCap then r.1.rebased b v else (r.1, v); (x.1, .gave x.2 0)

/-- FSTATUS a waiting read carries. -/
def WaitKind.fstatus : WaitKind → Nat
  | .fadd _ fs => fs
  | _ => 0

/-- A local waiter whose word was filled (05 R107). -/
def State.wakeLocal (s : State) (w : Waiter) (g : Gran) : State :=
  let drop (s : State) : State := { s with waiters := s.waiters.erase w }
  match w.kind with
  | .fadd _ fs =>
    let a := s.readAgain (s.coreFor w.cid) w.cid (s.berthOf w.cid) w.pa w.kind fs
    match a.2 with
    | .waits => { a.1 with waiters := a.1.waiters.map (fun x => if x = w then { x with got := none } else x) }
    | .gave v fl => ((drop a.1).deliverReg w.cid w.reg v none).orFstatus w.cid fl
    | .refused e => (drop a.1).deliverReg w.cid w.reg Gran.zero (some { e with faddr := w.faddr, fcap := w.fcap })
  | k =>
    let v := k.result (decide (w.pa % 16 ≥ 8)) g
    let x := if v.isCap then s.rebased (s.berthOf w.cid) v else (s, v)
    (drop x.1).deliverReg w.cid w.reg x.2 none

/-- POLL_RETRY: a read answered retry is sent again; a remote one goes back to its slot's start (08 R181, 15 R352). -/
def doPollRetry (cid reg : Nat) (s : State) : State :=
  match listFind (fun o : LocalOp => o.cid == cid && o.reg == reg && o.poll.isSome) s.ops with
  | some i =>
    (match listAt s.ops i with
    | some { poll := some (pa, kind), core := core, faddr := fa, fcap := fc, .. } =>
      let s0 : State := { s with ops := listDel s.ops i }
      let a := s0.readAgain (s.coreFor cid) cid (s.berthOf cid) pa kind kind.fstatus
      let o : Origin := { core := core, faddr := fa, fcap := fc }
      match a.2 with
      | .waits => a.1.register o cid reg pa kind ((a.1.rawAt pa).g.word (decide (pa % 16 ≥ 8)))
      | .gave v fl => (a.1.result core cid reg v).orFstatus cid fl
      | .refused e => a.1.refuseReg o cid reg { e with faddr := fa, fcap := fc }
    | _ => s)
  | none =>
    { s with slots := SMap.mapv (fun _ => none) (fun _ x => x.map (fun (y : Slot) =>
        if y.cid = cid ∧ y.reg = some reg ∧ y.st = .poll then { y with st := .unsent, tick := s.time } else y)) s.slots }

/-! ### Drains (10 R225, R245) -/

/-- Every access of a context before `seqNo` has been performed. -/
def State.performedBefore (s : State) (cid seqNo : Nat) : Bool :=
  !s.waiters.any (fun w => w.cid == cid && decide (w.seqNo < seqNo) && w.isRead) &&
    !s.ops.any (fun o => o.cid == cid && o.poll.isSome && decide (o.seqNo < seqNo)) &&
    !s.slots.any (fun e => match e.2 with | some x => x.cid == cid && decide (x.seqNo < seqNo) | none => false) &&
    !s.cores.any (fun e => e.2.buffer.any (fun x => x.stores.any (fun b => b.cids.contains cid && decide (b.seqNo < seqNo))))

/-- Whether a buffered store may drain. -/
def State.mayDrain (s : State) (b : BufStore) : Bool := !b.release || b.cids.all (fun c => s.performedBefore c b.seqNo)

/-- The stores of an entry that drain: a release store that must wait stays, and so does what follows it in its words; it holds up no other
(10 R244, R245). `held` are those that stay. -/
def State.drainable (s : State) : List BufStore → List BufStore → List BufStore
  | _, [] => []
  | held, b :: bs =>
    if s.mayDrain b && !held.any b.overlaps then b :: s.drainable held bs else s.drainable (b :: held) bs

/-- BUFFER_DRAIN: an entry drains; a line in its shed's victim buffer waits for its acknowledgement (10 R225, R231). -/
def doBufferDrain (core line : Nat) (s : State) : State :=
  if (s.shed (shedOfCore core)).victims.contains line then s
  else
    match (s.core core).buffer.find? (fun e => e.line == line) with
    | none => s
    | some e =>
      let go := s.drainable [] e.stores
      let rest := e.stores.filter (fun b => !go.contains b)
      let buf (c : Core) : Core :=
        { c with buffer := (c.buffer.map (fun x => if x.line = line then { x with stores := rest } else x)).filter (fun x => !x.stores.isEmpty) }
      (s.updCore core buf).drainStores core line go

/-! ### Parking (08 R173–R176) -/

/-- The kind of a wait for a register (08 Table 8.7). -/
def State.waitKind (s : State) (cid reg : Nat) : Nat :=
  if s.slots.any (fun e => match e.2 with | some x => x.cid == cid && x.reg == some reg && x.st != .poll | none => false) then 2
  else if s.waiters.any (fun w => w.cid == cid && w.reg == reg) then 3
  else if s.slots.any (fun e => match e.2 with | some x => x.cid == cid && x.reg == some reg | none => false) ||
      s.ops.any (fun o => o.cid == cid && o.reg == reg && o.poll.isSome) then 4
  else 1

/-- WCOND of a block: the first of REMOTE, WORD, POLL and MEM that applies. -/
def State.blockKind (s : State) (cid : Nat) (regs : List Nat) : Nat :=
  let ks := regs.map (s.waitKind cid)
  if ks.isEmpty then 0 else ([2, 3, 4].find? (ks.contains ·)).getD 1

/-- The next bundle's or byte code's G registers: those it names explicitly, in order, and all it names. -/
def State.nextRegs (s : State) (k : Nat) : List Nat × List Nat :=
  if stCM (s.stall k).status then ([], match s.vzFetch k with | .ok (_, op, _) => (vzCode op).names | .error _ => [])
  else
    match (s.fetchNext k).2 with
    | .ok (.once b _) | .ok (.iter b _) => ((b.syls.flatMap (fun x => x.op.gFields)).filter (· != 0), (bundleNames b).filter (· < 32))
    | _ => ([], [])

/-- Whether the next bundle would be blocked by a register that is in-frame. -/
def State.nextInframe (s : State) (k : Nat) : Bool :=
  if stCM (s.stall k).status then (s.nextRegs k).2.any (maskBit (s.stall k).inframe)
  else
    match (s.fetchNext k).2 with
    | .ok (.once b _) | .ok (.iter b _) => ({ s.stall k with pend := 0 } : Stall).blocked b
    | _ => false

/-- The first `n` distinct elements. -/
def takeDistinct : Nat → List Nat → List Nat
  | 0, _ => []
  | _ + 1, [] => []
  | n + 1, x :: xs => x :: takeDistinct n (xs.filter (· != x))

/-- R173: a stall that may park. -/
def State.mayPark (s : State) (k : Nat) : Bool :=
  let t := s.stall k
  t.runs && !isS63 k && !stDF t.status && !t.halt && t.exc.isNone && (s.routine k).isNone && t.vzWait.isNone && !t.exiting

/-! ### Reloads (08 R185, R187) -/

/-- A special register takes its frame slot's content. -/
def Stall.loadSR (t : Stall) (sr : Nat) (g : Gran) (hi : Bool) : Stall :=
  let v := (g.word hi).val
  match sr with
  | 0x02 => { t with iflags := v.toNat % 8 }
  | 0x04 => { t with lc := v }
  | 0x05 => { t with lstart := v.toNat % 2 ^ 48 }
  | 0x06 => { t with lend := v.toNat % 2 ^ 48 }
  | 0x08 => { t with timer := v }
  | 0x0A => { t with alloc := g }
  | 0x0B => { t with spcc := g }
  | 0x0C => { t with sstatus := v &&& statusFields }
  | 0x0D => { t with vbaseS := g }
  | 0x0E => { t with vbaseY := g }
  | n => { t with entry := SMap.set (fun _ => Gran.zero) t.entry (n - 0x10) g }

/-- Reload one in-frame register (08 R185, R187): G n is n, special register n is 32 + n. -/
def State.reload (s : State) (k reg : Nat) : State :=
  let t := s.stall k
  if !t.runs || !maskBit t.inframe reg then s
  else
    let cid := s.cidOf k
    let off := if reg < 32 then some (16 * reg, false) else srSlot (reg - 32)
    match off with
    | none => s
    | some (o, hi) =>
      let r := s.frameAt (shedOf k) cid o
      let done (f : Stall → Stall) : State :=
        r.1.updStall k (fun t => { f t with inframe := maskClr t.inframe reg, gpois := if reg < 32 then maskClr t.gpois reg else t.gpois })
      let refuse (e : Exc) : State :=
        done (fun t => { t with g := SMap.set (fun _ => Gran.zero) t.g reg ({ e with info := reg } : Exc).refusal, refused := maskSet t.refused reg })
      match r.2 with
      | .error e => if reg < 32 && e.cause == cBUS && e.subcode == beUNC then refuse e else r.1.stallReset k e.info64
      | .ok (_, m) =>
        if !tagDefined m.g.lo.tag || !tagDefined m.g.hi.tag then
          let e : Exc := { cause := cTAG, subcode := 1 }
          if reg < 32 then refuse e else r.1.stallReset k e.info64
        else if reg < 32 && maskBit t.gpois reg then refuse { cause := cBUS, subcode := beUNC }
        else
          let x := r.1.rebased (s.berthOf cid) (pairSlot m.g)
          x.1.updStall k (fun t =>
            { (if reg < 32 then { t with g := SMap.set (fun _ => Gran.zero) t.g reg x.2 } else t.loadSR (reg - 32) x.2 hi) with
              inframe := maskClr t.inframe reg })

/-- The Stable's four sequencers (09 R199): one is free while fewer stalls of the shed are moving. -/
def State.stableFree (s : State) (shed : Nat) : Bool :=
  decide ((s.stalls.filter (fun e => shedOf e.1 == shed && (e.2.phase == .parking || e.2.phase == .unparking))).length < 4)

/-- The park cut of a stall whose hot registers are at hand: record and spills are written; a fault of a spill destroys the context (R187). -/
def State.parkAt (s : State) (k wcond : Nat) (hot block : List Nat) : State :=
  let t := s.stall k
  let cid := s.cidOf k
  let rn := cidRecord cid
  let r : Record :=
    { s.record rn with
      pcc := t.pcc, status := t.status, wcond := wcond, lsep := t.late.isSome, timp := t.timp, bevp := (s.berthEventFor cid).isSome,
      block := block.foldl maskSet 0, refused := t.refused, preds := t.preds, pend := t.pend,
      hots := hot.map (fun n => (n, if maskBit t.pend n then Gran.zero else t.getG n)), timer := t.timer, holdAt := t.holdAt,
      repFirst := t.repFirst, gpois := t.gpois }
  let gs := (upTo 32).filter (fun n => n != 0 && maskBit t.dirty n && !hot.contains n && !maskBit t.pend n)
  let spillG : List (Nat × (Gran → Gran)) := gs.map (fun n => (16 * n, fun _ => t.getG n))
  let spillS : List (Nat × (Gran → Gran)) := (frameSRs.filter (fun n => maskBit t.dirty (32 + n))).filterMap t.spillSR
  let spillR : List (Nat × (Gran → Gran)) :=
    if stRPA t.status then [(0x000, fun g => g.setWord true (TWord.raw (w64 t.rep)))] else []
  let spillL : List (Nat × (Gran → Gran)) :=
    match t.late with
    | some l => [(0x380, fun _ => rawGran l.faddr
        (({ cause := 0, subcode := l.subcode, taga := l.cause, remote := l.remote, slot := 0, count := l.count } : Exc).info64))]
    | none => []
  let spills := spillG ++ spillS ++ spillR ++ spillL
  let w := (s.setRecord rn r).framePuts (shedOf k) cid spills
  match w.2 with
  | some e => w.1.stallReset k e.info64
  | none => w.1.updStall k (fun t => { t with phase := .parking, yielding := none })

/-- The park cut (08 R174, R175). A hot register that is still in-frame is reloaded first, since its slot goes to the record; PARK runs in the Stable's
control store (09 Table 9.7, R205). -/
def State.park (s : State) (k wcond : Nat) : State :=
  let cid := s.cidOf k
  let regs := s.nextRegs k
  let hot := takeDistinct 4 regs.1
  let block := (takeDistinct 32 regs.2).filter (maskBit (s.stall k).pend)
  if !s.stableFree (shedOf k) then s
  else
    let m := s.routineRuns (shedOf k) k 11
    if !m.2 then m.1.csError k
    else
      let s1 := hot.foldl (fun s n => s.reload k n) m.1
      if (s1.stall k).cid != some cid then s1 else s1.parkAt k wcond hot block

/-- PARK_CUT: a YIELD's park, or the block counter of a stall whose next bundle is ineligible only for pending registers reaches its limit (08 R173). -/
def doParkCut (k : Nat) (s : State) : State :=
  let t := s.stall k
  if !s.mayPark k then s
  else
    match t.yielding with
    | some w => s.park k w
    | none =>
      let block := (s.nextRegs k).2.filter (maskBit t.pend)
      if block.isEmpty || s.nextInframe k || s.eventFirst k then s else s.park k (s.blockKind (s.cidOf k) block)

/-- PREEMPTION: a context resident for MX_SLICE is parked where R184 would give its stall to a READY record (08 R191). -/
def doPreemption (k : Nat) (s : State) : State :=
  let t := s.stall k
  if !s.mayPark k || t.yielding.isSome || t.repFirst || s.ent (berthIdx (stBerth t.status)) 0x09 == 0 ||
      (s.nextBerth (shedOf k) (some k)).isNone then s
  else s.park k (s.blockKind (s.cidOf k) ((s.nextRegs k).2.filter (maskBit t.pend)))

/-- PARK_COMPLETE: the record becomes READY or PARKED and the stall is free (08 R176, R183). -/
def doParkComplete (k : Nat) (s : State) : State :=
  let t := s.stall k
  if t.phase != .parking then s
  else
    let rn := cidRecord (s.cidOf k)
    let s := (s.setRecord rn { s.record rn with rstate := .parked }).wakeRecord rn
    s.updStall k Stall.vacate

/-! ### Unparking (08 R184–R186) -/

/-- The lowest free stall of a shed, S63s apart, trying `n` from `k`. -/
def State.freeStallFrom (s : State) : Nat → Nat → Option Nat
  | 0, _ => none
  | n + 1, k => if !isS63 k && (s.stall k).cid.isNone then some k else s.freeStallFrom n (k + 1)

/-- The late store error that frame slot 0x380 holds (08 R186). -/
def lateOf (g : Gran) : LateErr :=
  let v := g.hi.val.toNat
  { faddr := g.lo.val, cause := nbits v 39 32, subcode := nbits v 23 16, remote := nbit v 15, count := nbits v 63 48 }

/-- A record as an unpark reads it (08 R177, R187): its granules are decoded, and INJECT may feed their checker. The Bool says that
one of granules 0x00 to 0x30 is uncorrectable; the register of a hot slot that is uncorrectable, or was parked poisoned, is refused. -/
def State.readRecord (s : State) (rn : Nat) : State × Bool × Record :=
  let r := s.record rn
  let i := s.injectedN 51 (4 + r.hots.length)
  let fixed := (i.2.filter (· == injectMask 1)).length
  let bad (m : BitVec 24) : Bool := m != 0 && m != injectMask 1
  let s := if fixed = 0 then i.1 else i.1.bump 0x6000 (0x80 + 51) 32 fixed
  let s := if i.2.any bad then s.raise { bit := 51, kind := .contained, source := rn / 2 ^ 14, access := 1, master := 2 } else s
  let hotBad := ((r.hots.zip (i.2.drop 4)).filter (fun e => bad e.2 || maskBit r.gpois e.1.1)).map (fun e => e.1.1)
  let no (n : Nat) : Gran := ({ cause := cBUS, subcode := beUNC, info := n } : Exc).refusal
  (s, (i.2.take 4).any bad,
   { r with refused := hotBad.foldl maskSet r.refused, gpois := hotBad.foldl maskClr r.gpois, hots := r.hots.map (fun h => if hotBad.contains h.1 then (h.1, no h.1) else h) })

/-- Load a record into a stall. -/
def State.unpark (s : State) (k rn : Nat) : State :=
  let chk := s.readRecord rn
  let s := chk.1
  let r := chk.2.2
  let cid := mkCid r.gen rn
  let t := s.stall k
  let hot := r.hots.map (·.1)
  let inG := (upTo 32).filter (fun n => n != 0 && !hot.contains n && !maskBit r.pend n)
  let late := if r.lsep then (s.frameAt (shedOf k) cid 0x380) else (s, .error { cause := 0 })
  let rep := if stRPA r.status then (late.1.frameAt (shedOf k) cid 0x000) else (late.1, .error { cause := 0 })
  let t' : Stall :=
    { f := t.f, fstatus := t.fstatus, fowner := t.fowner, fdirty := t.fdirty, dfstack := t.dfstack, winsel := t.winsel, halt := t.halt,
      g := r.hots.foldl (fun m h => SMap.set (fun _ => Gran.zero) m h.1 h.2) [],
      preds := r.preds ||| 1, pcc := r.pcc, status := r.status, cid := some cid, phase := .running, pend := r.pend,
      refused := r.refused, inframe := (inG ++ frameSRs.map (32 + ·)).foldl maskSet 0, dirty := hot.foldl maskSet 0,
      rep := (match rep.2 with | .ok (_, m) => m.g.hi.val.toNat | .error _ => 0), timer := r.timer, timp := r.timp, holdAt := r.holdAt,
      repFirst := r.repFirst, gpois := r.gpois,
      late := (match late.2 with | .ok (_, m) => some (lateOf m.g) | .error _ => none) }
  let bad := match late.2, rep.2 with
    | .error e, _ => if r.lsep then some e else none
    | _, .error e => if stRPA r.status then some e else none
    | _, _ => none
  let s := (rep.1.setRecord rn { r with frame := (rep.1.record rn).frame, rstate := .resident }).setStall k t'
  match (if chk.2.1 then some { cause := cBUS, subcode := beUNC } else bad) with
  | some e => s.stallReset k e.info64
  | none => s

/-- STALL_ASSIGN: the lowest free stall of a shed takes the head READY record of the next qualifying berth; UNPARK runs in the Stable's control store
(09 Table 9.7, R205). -/
def doStallAssign (k : Nat) (s : State) : State :=
  let shed := shedOf k
  if s.freeStallFrom 1024 (shed * 1024) != some k || !s.stableFree shed then s
  else
    match s.nextBerth shed none with
    | none => s
    | some b =>
      match (s.shed shed).ready.find? (fun e => e.1 == b) with
      | none => s
      | some (_, rn) =>
        let m := s.routineRuns shed k 12
        let s := (m.1.updShed shed (fun h => { h with rrBerth := b, ready := h.ready.filter (fun e => e.2 != rn) })).unpark k rn
        if m.2 || (s.stall k).cid.isNone then s else s.csError k

/-- FRAME_RELOAD. -/
def doFrameReload (k reg : Nat) (s : State) : State := s.reload k reg

/-! ### The float-state switch (08 R188) -/

/-- Write a stall's float state to the frame of the context that owns it; a fault destroys that context (R187). -/
def State.saveFloat (s : State) (k : Nat) : State :=
  let t := s.stall k
  match t.fowner with
  | some d =>
    if t.fdirty && s.living d then
      let w := s.framePuts (shedOf k) d t.spillF
      match w.2 with
      | none => w.1.updStall k (fun t => { t with fdirty := false })
      | some e => w.1.loseContext d k e
    else s
  | none => s

/-- The `n` granules of a context's frame from `off`, to the first that cannot be used (08 R187). -/
def State.frameRead (s : State) (shed cid : Nat) : Nat → Nat → State × Except Exc (List Gran)
  | 0, _ => (s, .ok [])
  | n + 1, off =>
    let r := s.frameAt shed cid off
    match r.2 with
    | .error e => (r.1, .error e)
    | .ok (_, m) =>
      if !tagDefined m.g.lo.tag || !tagDefined m.g.hi.tag then (r.1, .error { cause := cTAG, subcode := 1 })
      else
        let more := r.1.frameRead shed cid n (off + 16)
        (more.1, match more.2 with | .error e => .error e | .ok l => .ok (m.g :: l))

/-- Load a context's float state from its frame into a stall. An F register never holds a word of a capability (06 R119): one that the frame holds is
loaded RAW. -/
def State.loadFloat (s : State) (k cid : Nat) : State :=
  let r := s.frameRead (shedOf k) cid 9 0x200
  match r.2 with
  | .error e => r.1.stallReset k e.info64
  | .ok gs =>
    let fs := (upTo 16).foldl (fun m n => SMap.set (fun _ => TWord.zero) m n (((listAt gs (n / 2)).getD Gran.zero).word (n % 2 == 1)).noCap) []
    r.1.updStall k (fun t => { t with f := fs, fstatus := fsLoad ((listAt gs 8).getD Gran.zero).lo.val.toNat, fowner := some cid, fdirty := false })

/-- The switch itself; it ends where a fault of step 1 or 2 has taken the stall's own context. -/
def State.floatSwitch (s : State) (k : Nat) : State :=
  let cid := s.cidOf k
  let s1 := s.saveFloat k
  let other := s1.stalls.find? (fun e => e.1 != k && shedOf e.1 == shedOf k && e.2.fowner == some cid)
  let s2 := match other with
    | some (y, _) => (s1.saveFloat y).updStall y (fun t => { t with fowner := none, fdirty := false })
    | none => s1
  if (s2.stall k).cid != some cid then s2 else s2.loadFloat k cid

/-- Whether the next bundle or byte code waits for the switch (04 R77): it waits as things stand, and would not with the float state at hand. -/
def State.needsFloat (ctl : Ctl) (s : State) (k : Nat) : Bool :=
  let t := s.stall k
  let own : State := s.updStall k (fun t => { t with fowner := some (s.cidOf k) })
  let waits (s : State) (b : Bundle) (addr : Nat) : Bool := (s.evalBundle ctl k b addr (s.routine k).isSome).wait
  let vzWaits (s : State) : Bool :=
    match s.vzPrep ctl k (fun _ => true) with
    | .ok (op, v) => (match vzRun op v with | .error .wait => true | _ => false)
    | .error _ => false
  if isS63 k || t.fowner == some (s.cidOf k) || !stFEN t.status then false
  else if stCM t.status then vzWaits s && !vzWaits own
  else
    match (s.fetchNext k).2 with
    | .ok (.once b a) | .ok (.iter b a) => waits s b a && !waits own b a
    | _ => false

/-- FLOAT_STATE_SWITCH. -/
def floatSwitchWith (ctl : Ctl) (k : Nat) (s : State) : State :=
  if (s.stall k).runs && s.needsFloat ctl k then s.floatSwitch k else s

/-! ### The stall window (08 R195–R197) -/

/-- 32-bit masks as words of the window. -/
def maskWord (m : BitVec 32) : Word64 := m.setWidth 64

/-- The kind of the wait a running stall is in, 0 where its next bundle waits for no result. -/
def State.currentWait (s : State) (k : Nat) : Nat :=
  if (s.stall k).pend = 0 then 0 else s.blockKind (s.cidOf k) ((s.nextRegs k).2.filter (maskBit (s.stall k).pend))

/-- STALLCTL (08 Table 8.11). -/
def Stall.ctl (t : Stall) (wait : Nat) : Nat :=
  wait % 16 * 256 + b2n t.halt * 128 + (match t.phase with | .empty => 0 | .running => 1 | .parking => 2 | .unparking => 3)

/-- A record as the window shows it (08 Tables 8.2 to 8.5). -/
def Record.image (r : Record) (i : Nat) : Gran :=
  let rs := match r.rstate with | .free => 0 | .resident => 1 | .parked => 2 | .ready => 3
  let hotN (j : Nat) : Nat := match listAt r.hots j with | some h => h.1 | none => 0
  match i with
  | 0 => r.pcc
  | 1 => r.frame
  | 2 => rawGran r.status (w64 (r.wcond * 2 ^ 60 + b2n r.lsep * 2 ^ 59 + b2n r.timp * 2 ^ 58 + b2n r.bevp * 2 ^ 57 + r.block.toNat))
  | 3 => rawGran (w64 (r.refused.toNat * 2 ^ 32 + r.gen * 2 ^ 18 + rs * 2 ^ 16 + r.preds.toNat))
      (w64 (r.pend.toNat * 2 ^ 32 + hotN 3 * 2 ^ 27 + hotN 2 * 2 ^ 22 + hotN 1 * 2 ^ 17 + hotN 0 * 2 ^ 12 + (2 ^ r.hots.length - 1) * 2 ^ 8))
  | n => if n < 8 then (match listAt r.hots (n - 4) with | some h => h.2 | none => Gran.zero) else Gran.zero

/-- Slot `i` of a stall target (08 Table 8.10). -/
def State.winSlot (s : State) (k i : Nat) : Gran :=
  let t := s.stall k
  if i < 32 then t.getG i
  else if i < 40 then ⟨t.getF (2 * (i - 32)), t.getF (2 * (i - 32) + 1)⟩
  else if i < 64 then t.readSR s.time (i - 40)
  else
    match i with
    | 64 => t.dfstack
    | 65 => rawGran (w64 (t.ctl (s.currentWait k))) (w64 (t.cid.getD 0))
    | 66 => rawGran (maskWord t.pend) (maskWord t.refused)
    | 67 =>
      let o := if isS63 k then some (intCid (coreOf k)) else t.fowner
      rawGran (match o with | some c => w64 c | none => Config.fownerNone) (b2w t.fdirty)
    | _ => Gran.zero

/-- The register a slot of the window names, as `reload` numbers it. -/
def winReg (i : Nat) : Option Nat := if i < 32 then some i else if 40 ≤ i ∧ i < 64 then some (32 + (i - 40)) else none

/-- An in-frame register's reload is completed first (08 R197). -/
def State.winReload (s : State) (k i : Nat) : State := match winReg i with | some r => s.reload k r | none => s

/-- A write of a G register through the window: a pending result is discarded (08 R197). -/
def State.winSetG (s : State) (k n : Nat) (g : Gran) : State :=
  let cid := s.cidOf k
  let s :=
    if maskBit (s.stall k).pend n then
      { s with ops := s.ops.filter (fun o => !(o.cid == cid && o.reg == n)),
               waiters := s.waiters.filter (fun w => !(w.cid == cid && w.reg == n && w.isRead)),
               slots := SMap.mapv (fun _ => none) (fun _ x => x.map (fun (y : Slot) =>
                 if y.cid = cid ∧ y.reg = some n then { y with reg := some 0 } else y)) s.slots }
    else s
  s.updStall k (fun t => { t.setG n g with pend := maskClr t.pend n, refused := maskClr t.refused n })

/-- STATUS as the window writes it: every field but the berth (08 R196, 16 R364); a reserved PL or CEIL leaves its field. -/
def winStatus (old v : Word64) : Word64 :=
  let n := (v &&& statusFields &&& ~~~0x000F_C000_0000_0000#64) ||| (old &&& 0x000F_C000_0000_0000#64)
  let n := if stPL v = 3 then setPL n (stPL old) else n
  if stCEIL v = 3 then (n &&& ~~~0xC000#64) ||| (old &&& 0xC000#64) else n

/-- STALLCTL HALT: the stall is never eligible; a routine before its commit word is abandoned (09 R206). -/
def State.setHalt (s : State) (k : Nat) (on : Bool) : State :=
  (if on then s.abandon k else s).updStall k (fun t => { t with halt := on })

/-- STALLCTL START: on S63 only, the interrupt context starts from the window's registers (08 R169, Table 8.11). -/
def State.startInt (s : State) (c : Nat) : State :=
  let k := 64 * c + 63
  if (s.stall k).cid.isSome then s
  else s.updStall k (fun t => { t with cid := some (intCid c), phase := .running, fowner := some (intCid c) })

/-- STALLCTL KILL: the resident context is destroyed and reported as a stall reset (07 R163). -/
def State.kill (s : State) (k : Nat) : State :=
  if (s.stall k).cid.isSome then (s.dropRoutine k).stallReset k (BitVec.allOnes 64) else s

/-- A stall in state parking or unparking, or whose context's berth is being reset (16 R379): its window accesses wait. -/
def State.winBusy (s : State) (k : Nat) : Bool :=
  let t := s.stall k
  t.phase == .parking || t.phase == .unparking || (t.cid.isSome && s.ent (berthIdx (stBerth t.status)) 0x01 == 3)

/-- One access to a stall target at its boundary. The Bool of the answer is false where a capability store's source is no
capability (VALID). -/
def State.winAccess (s : State) (k off : Nat) (op : WinOp) : State × Option Gran :=
  let i := off / 16
  let hi := decide (off % 16 ≥ 8)
  let s := s.winReload k i
  let isCapSlot := (decide (40 ≤ i) && decide (i < 64) && srIsCap (i - 40)) || i == 64
  match op with
  | .ldw => (s, some (Gran.ofWord (TWord.raw ((s.winSlot k i).word hi).val)))
  | .ldc => (s, some (s.winSlot k i))
  | .stc g =>
    if isCapSlot then
      if !g.isCap then (s, none)
      else if i == 64 then (s.updStall k (fun t => { t with dfstack := g }), some g)
      else if i == 40 then (s.updStall k (fun t => { t with pcc := g, fetched := [] }), some g)
      else (s.updStall k (fun t => t.writeSRCap (i - 40) g), some g)
    else if i < 32 then (s.winSetG k i g, some g)
    else (s, some g)
  | .stw w =>
    let out := some (Gran.ofWord w)
    if i < 32 then (if hi then s else s.winSetG k i (Gran.ofWord w.noCap), out)
    else if i < 40 then (s.updStall k (fun t => t.setF (2 * (i - 32) + b2n hi) w.noCap), out)
    else if i < 64 then
      if hi || isCapSlot || i - 40 == srTIME || !srDefined (i - 40) then (s, out)
      else if i - 40 == srSTATUS then (s.updStall k (fun t => { t with status := winStatus t.status w.val, fetched := [] }), out)
      else (s.updStall k (fun t => t.writeSRWord (i - 40) w.val), out)
    else if i == 65 && !hi then
      let v := w.val.toNat
      let s := s.setHalt k (nbit v 7)
      let s := if nbit v 6 && isS63 k then s.startInt (coreOf k) else s
      (if nbit v 5 then s.kill k else s, out)
    else (s, out)

/-- STALL_WINDOW_ACCESS: an access to a stall takes effect at its boundary; one to a stall that parks, or whose routine runs,
waits. -/
def doStallWindowAccess (k off : Nat) (op : WinOp) (s : State) : State :=
  if s.winBusy k || (s.routine k).isSome || off ≥ 4096 then s else (s.winAccess k off op).1

/-- HALT. -/
def doHalt (k : Nat) (s : State) : State := if s.winBusy k then s else s.setHalt k true

/-- KILL. -/
def doKill (k : Nat) (s : State) : State := if s.winBusy k then s else s.kill k

end Sys2Proof.Machine
end

