-- ==== Sys2Proof/Machine/Cache.lean ====
section
/-!
DEFINITION. The haylofts' events and their control window (10 R228–R240): prefetch, ownership, directory evictions, immutable
copies, maintenance, way lock and way power.
-/

namespace Sys2Proof.Machine

/-- Whether memory can serve a line: a port holds it, and it is held on chip or its unit is ready. -/
def State.lineReady (s : State) (line : Nat) : Bool :=
  match s.locate (64 * line) with
  | some (p, pda) => s.lineHeld line || (s.readPorts p pda).any (fun q => s.unitReady q pda)
  | none => false

/-- 10 R235: how far apart the lines along a stride are: the stride, or a whole line in its direction where it is shorter. -/
def lineStride (d : Int) : Int := if d.natAbs < 64 then (if d < 0 then -64 else 64) else d

/-- The line `i + 1` strides after a stream's last miss is read for its shed's hayloft; a failed check drops it: an address outside the stream's bounds,
a translation that faults, memory that cannot serve it, a VER that differs (10 R235). -/
def State.prefetchLine (s : State) (shed : Nat) (x : Stream) (i : Nat) : State :=
  let va : Int := x.last + lineStride x.stride * (i + 1)
  if va < x.lo || va + 8 > x.hi then s
  else
    let r := s.translate (.core (coreOf x.stall)) x.berth va.toNat
    match r.2 with
    | .ok pa => if r.1.lineReady (pa / 64) && verOk x.ver (r.1.verAt pa) then r.1.touchRead shed x.berth (pa / 64) else r.1
    | .error _ => r.1

/-- STRIDE_PREFETCH: a confident stream prefetches the next PF_DEPTH lines along its stride. -/
def doStridePrefetch (shed stream : Nat) (s : State) : State :=
  match listAt (s.shed shed).streams stream with
  | none => s
  | some x =>
    if !(s.shed shed).pfEn || x.same < 2 then s
    else (upTo (s.shed shed).pfDepth).foldl (fun s i => s.prefetchLine shed x i) s

/-- OWNERSHIP_REQUEST: every other copy is invalidated and the line granted in M; a line in the victim buffer waits for its
acknowledgement (10 R230, R231). -/
def doOwnershipRequest (shed line : Nat) (s : State) : State :=
  if !s.lineReady line || (s.shed shed).victims.contains line then s
  else
    let berth := match (s.shed shed).lines.find? (fun e => e.1 == line) with | some (_, l) => l.berth | none => 0
    let s := (s.portRead shed line 4).dropOthers shed line
    let s := if (s.shed shed).lines.any (fun l => l.1 == line) then s else s.fillLine shed berth line .M
    s.updShed shed (fun h => { h with lines := h.lines.map (fun l => if l.1 = line then (l.1, { l.2 with st := .M }) else l) })

/-- DIRECTORY_EVICTION (10 R229). -/
def doDirectoryEviction (line : Nat) (s : State) : State := s.dropLine line

/-- IMMUT_TTL: copies older than the shed's TTL are dropped (10 R233). -/
def doImmutTtl (shed : Nat) (s : State) : State :=
  s.updShed shed (fun h => { h with copies := h.copies.filter (fun c => decide (s.time ≤ c.made + h.immutTtl)) })

/-- A write of MAINT_CMD with GO: ignored while an operation runs (10 R239). With a reserved OP the field keeps its value (R13) and GO
completes at once. -/
def Shed.startMaint (h : Shed) (op : Nat) : Shed :=
  if h.maintGo then h
  else if 1 ≤ op ∧ op ≤ 4 then { h with maintOp := op, maintGo := true } else { h with maintResult := 0 }

/-- Whether any victim buffer holds a line. -/
def State.inVictims (s : State) (line : Nat) : Bool := s.sheds.any (fun e => e.2.victims.contains line)

/-- An M copy of a line written back: E, or S where others share it. -/
def cleanCopy (others : Bool) (l : HLine) : HLine := if l.st == .M then { l with st := if others then .S else .E } else l

/-- Every line of a list is written back. -/
def State.writeBackAll (s : State) (ls : List (Nat × HLine)) : State := ls.foldl (fun s l => s.writeBack l.1) s

/-- MAINT_COMPLETE: the operation's write-backs and invalidations are done (10 R239, R240). -/
def doMaintComplete (shed : Nat) (s : State) : State :=
  let h := s.shed shed
  let line := h.maintAddr / 64
  if !h.maintGo || (h.maintOp ≤ 2 && s.inVictims line) then s
  else
    let fin (s : State) (r : Nat) : State := s.updShed shed (fun h => { h with maintGo := false, maintResult := r })
    match h.maintOp with
    | 1 | 2 =>
      if (s.locate (64 * line)).isNone then fin s 1
      else
        let res := if s.dirty line && s.writeBackFails line then 2 else 0
        if h.maintOp = 2 then fin (s.dropLine line) res
        else
          let s := if s.dirty line then s.writeBack line else s
          fin { s with sheds := SMap.mapv (fun _ => {}) (fun k x =>
            { x with lines := x.lines.map (fun l => if l.1 = line then (l.1, cleanCopy (s.othersHold k line) l.2) else l) }) s.sheds } res
    | 3 =>
      let bad := h.lines.any (fun l => l.2.st == .M && s.writeBackFails l.1)
      fin ((s.writeBackAll (h.lines.filter (fun l => l.2.st == .M))).updShed shed (fun h => { h with lines := h.lines.map (fun l => (l.1, cleanCopy false l.2)) })) (if bad then 2 else 0)
    | _ => fin { s with sheds := SMap.mapv (fun _ => {}) (fun _ x => { x with copies := [] }) s.sheds } 0

/-- How many bits of a way mask are set. -/
def countWays (m : BitVec 16) : Nat := (waysOf m).length

/-- The ways that are powered and stay so: neither requested off nor being cleaned. -/
def Shed.powered (h : Shed) : BitVec 16 := h.pwrState &&& ~~~h.offReq &&& ~~~h.cleaning

/-- A write of WAY_LOCK (10 R236): refused as a whole where it is illegal. -/
def Shed.writeLock (h : Shed) (v : Word64) : Shed :=
  let lock := v.setWidth 16
  let alloc := (v >>> 16).setWidth 16
  if countWays lock > 12 || (lock &&& ~~~h.pwrState) != 0 || countWays (h.powered &&& ~~~lock) < 4 then h
  else { h with lock := lock, allocWays := alloc }

/-- A write of WAY_PWR (10 R237): ways that lose power are cleaned first; ways that regain it power up. -/
def Shed.writePwr (h : Shed) (v : Word64) : Shed :=
  let off := v.setWidth 16
  if (off &&& h.lock) != 0 || countWays (h.pwrState &&& ~~~h.cleaning &&& ~~~off &&& ~~~h.lock) < 4 then h
  else
    { h with offReq := off, cleaning := h.cleaning ||| (off &&& ~~~h.offReq &&& h.pwrState),
             powering := (h.powering &&& ~~~off) ||| (h.offReq &&& ~~~off &&& ~~~h.pwrState) }

/-- WAY_CLEAN_DONE: the way's M lines are written back, its lines and copies are gone and its power is gated; a clear that came meanwhile
powers it up. -/
def doWayCleanDone (shed way : Nat) (s : State) : State :=
  if way < 16 && maskBit (s.shed shed).cleaning way then
    (s.writeBackAll ((s.shed shed).lines.filter (fun l => l.2.way == way && l.2.st == .M))).updShed shed (fun h =>
      { h with cleaning := maskClr h.cleaning way, lines := h.lines.filter (fun l => l.2.way != way),
               copies := h.copies.filter (fun c => c.way != way), pwrState := maskClr h.pwrState way,
               powering := if maskBit h.offReq way then h.powering else maskSet h.powering way })
  else s

/-- WAY_POWER_UP_DONE. -/
def doWayPowerUpDone (shed way : Nat) (s : State) : State :=
  s.updShed shed (fun h =>
    if way < 16 && maskBit h.powering way then { h with powering := maskClr h.powering way, pwrState := maskSet h.pwrState way } else h)

/-- A read of the hayloft control window (10 Tables 10.3 to 10.5). -/
def Shed.winRead (h : Shed) (off : Nat) : Nat :=
  match off with
  | 0x000 => h.maintAddr
  | 0x008 => h.maintResult * 256 + b2n h.maintGo * 16 + h.maintOp
  | 0x010 => h.allocWays.toNat * 65536 + h.lock.toNat
  | 0x018 => h.pwrState.toNat * 65536 + h.offReq.toNat
  | 0x020 => h.pfDepth * 16 + b2n h.pfEn
  | 0x028 => h.immutTtl
  | _ => 0

/-- A write of it. A reserved PF_DEPTH leaves the field. -/
def Shed.winWrite (h : Shed) (off : Nat) (v : Word64) : Shed :=
  let n := v.toNat
  match off with
  | 0x000 => if h.maintGo then h else { h with maintAddr := nbits n 51 6 * 64 }
  | 0x008 => if h.maintGo then h else if nbit n 4 then h.startMaint (n % 16) else if 1 ≤ n % 16 ∧ n % 16 ≤ 4 then { h with maintOp := n % 16 } else h
  | 0x010 => h.writeLock v
  | 0x018 => h.writePwr v
  | 0x020 => { h with pfDepth := if 1 ≤ nbits n 7 4 ∧ nbits n 7 4 ≤ 8 then nbits n 7 4 else h.pfDepth, pfEn := nbit n 0 }
  | 0x028 => { h with immutTtl := n % 2 ^ 32 }
  | _ => h

end Sys2Proof.Machine
end

