-- ==== Sys2Proof/Machine/Xlate.lean ====
section
/-!
DEFINITION. The translation control window and its commands (11 R258–R266): staged registers, XCOMMIT, the berth-wide
invalidates, and walks made for a unit.
-/

namespace Sys2Proof.Machine

/-- Bits of a staged register that are kept (11 Tables 11.1, 11.2 and 11.6), by page offset. -/
def xlMask (off : Nat) : Word64 :=
  if off < 0x100 then (if off % 16 = 0 then 0xC03F_FFFF_FFE0_0000 else 0x000F_FFFF_FFFF_F000)
  else if off % 16 = 0 then 0x800F_FFFF_FFE0_0000 else 0x000F_FFFF_FFE0_0000

/-- Whether a command of the page runs (11 R261). -/
def XPage.busy (p : XPage) : Bool := p.xgo || p.tgo

/-- The valid staged blocks of a berth. -/
def State.stagedBlks (s : State) (b : Nat) : List Blk := ((upTo 16).map (s.blk 0 b)).filter (·.valid)

/-- Whether two blocks cover a common address. -/
def Blk.overlaps (x y : Blk) : Bool := decide (x.vbase < y.vbase + 2 ^ y.size) && decide (y.vbase < x.vbase + 2 ^ x.size)

/-- Whether some two elements of a list are related. -/
def anyPair {α : Type} (p : α → α → Bool) : List α → Bool
  | [] => false
  | x :: xs => xs.any (p x) || anyPair p xs

/-- 11 R261: the result of checking the staged values. -/
def State.xcheck (s : State) (b : Nat) : Nat :=
  let bs := s.stagedBlks b
  let sizeOk (x : Blk) : Bool :=
    decide (21 ≤ x.size) && decide (x.size ≤ 47) && x.vbase % 2 ^ x.size == 0 && (x.walked || x.target % 2 ^ x.size == 0)
  let rangeOk (x : Blk) : Bool := s.inPrange 0x200 b x.target (x.target + if x.walked then 4096 else 2 ^ x.size)
  if !bs.all sizeOk then 2
  else if anyPair Blk.overlaps bs then 1
  else if !((upTo 4).all (fun r => let p := s.prange 0x200 b r; !p.1 || prUsable p)) || !bs.all rangeOk then 3
  else 0

/-- Copy a register of a berth's page. -/
def State.copyXreg (s : State) (b src dst : Nat) : State := s.setXreg b dst (w64 (s.xreg b src))

/-- Apply all 16 staged blocks and all four staged ranges. -/
def State.xapply (s : State) (b : Nat) : State :=
  let s := (upTo 32).foldl (fun s i => s.copyXreg b (8 * i) (0x100 + 8 * i)) s
  (upTo 8).foldl (fun s i => s.copyXreg b (0x200 + 8 * i) (0x240 + 8 * i)) s

/-- XCOMMIT: a refused commit changes nothing; one that passes applies, and its ALL invalidate runs (11 R261). -/
def doXcommit (b : Nat) (s : State) : State :=
  let p := s.xpage b
  if p.busy then s
  else
    match s.xcheck b with
    | 0 => (((s.xapply b).dropTranslations b none).setXpage b { p with xgo := true, goSeq := s.seqNo })
    | r => s.setXpage b { p with xresult := r }

/-- TLBI_ALL. -/
def doTlbiAll (b : Nat) (s : State) : State :=
  let p := s.xpage b
  if p.busy then s else (s.dropTranslations b none).setXpage b { p with top := 1, tgo := true, goSeq := s.seqNo }

/-- TLBI_ADDR. -/
def doTlbiAddr (b : Nat) (s : State) : State :=
  let p := s.xpage b
  if p.busy then s else (s.dropTranslations b (some p.taddr)).setXpage b { p with top := 2, tgo := true, goSeq := s.seqNo }

/-- The berth in this node that a charter is bound to (16 R368). -/
def State.charterBerth (s : State) (ch : Nat) : Option Nat :=
  if ch = 0 then none else (upTo nBerths).find? (fun b => s.app (berthIdx b) 0x04 == ch)

/-- Whether an access of the berth issued before `seqNo`, and translated then, has not been performed (10 R241): a store in a merging buffer, a
polled or registered waiting read, whose value is not fixed, or a remote requester's wait here. DEDUCED (log entry 119): R266 says
every access, so a registered waiting read holds the command open too. -/
def State.openBefore (s : State) (b seqNo : Nat) : Bool :=
  s.ops.any (fun o => o.poll.isSome && decide (o.seqNo < seqNo) && s.berthOf o.cid == b) ||
  s.waiters.any (fun w => w.waits && decide (w.seqNo < seqNo) && (match w.kind with
    | .remote n => (match s.homeWait.find? (fun x => x.1 == n) with | some (_, p) => s.charterBerth p.charter == some b | none => false)
    | _ => s.berthOf w.cid == b)) ||
  s.cores.any (fun e => e.2.buffer.any (fun x => x.stores.any (fun st => decide (st.seqNo < seqNo) && st.cids.any (fun c => s.berthOf c == b))))

/-- TLBI_COMPLETE: the accesses translated through what was dropped have been performed (11 R266); the model waits for every access of the berth, since
it does not keep which entry translated one. -/
def doTlbiComplete (b : Nat) (s : State) : State :=
  let p := s.xpage b
  if !p.busy || s.openBefore b p.goSeq then s
  else s.setXpage b { p with xgo := false, tgo := false, xresult := if p.xgo then 0 else p.xresult }

/-- TLB_WALK: a unit's miss in a walked block walks its tables; a fault, speculative or not, fills nothing here and reaches a
context only in the step that needs the access (11 R254, R256, R257). -/
def doTlbWalk (u : TlbUnit) (b va : Nat) (s : State) : State :=
  match tlbHit (s.tlb u) b va, s.findBlk b va 16 0 with
  | none, some (_, x) => if x.walked then (s.translate u b va).1 else s
  | _, _ => s

/-- A read of the window's page of berth `b` (11 Table 11.7). -/
def State.xlRead (s : State) (b off : Nat) : Nat :=
  let p := s.xpage b
  if off % 8 ≠ 0 then 0
  else if off < 0x280 then s.xreg b off
  else
    match off with
    | 0x280 => p.xresult * 256 + b2n p.xgo
    | 0x288 => b2n p.tgo * 16 + p.top
    | 0x290 => p.taddr
    | 0x298 => p.walks
    | 0x2A0 => p.walkFaults
    | _ => 0

/-- A write of it; `sup` says that an S context writes (11 R260). -/
def State.xlWrite (s : State) (b off : Nat) (sup : Bool) (v : Word64) : State :=
  let p := s.xpage b
  if p.busy then s
  else if off < 0x100 || (0x200 ≤ off && off < 0x240 && !sup) then s.setXreg b off (v &&& xlMask off)
  else
    match off with
    | 0x280 => if v.getLsbD 0 then doXcommit b s else s
    | 0x288 =>
      let op := v.toNat % 16
      let s := if op = 1 ∨ op = 2 then s.setXpage b { p with top := op } else s
      if v.getLsbD 4 then (if op = 1 then doTlbiAll b s else if op = 2 then doTlbiAddr b s else s) else s
    | 0x290 => s.setXpage b { p with taddr := nbits v.toNat 47 12 * 4096 }
    | _ => s

end Sys2Proof.Machine
end

