-- ==== Sys2Proof/Machine/Groom.lean ====
section
/-!
DEFINITION. The groom engines (chapter 12): chunk claims, the cycles and their phases, tracing, evacuation, update, the
revocation sweep, and the collector's controls. An engine step of a phase is taken whole at the phase's boundary.
-/

namespace Sys2Proof.Machine

/-! ### Engine accesses (12 R269) -/

/-- An engine at work for berth `b`: the state, the first access that failed with its fault, the import keys reached, and the
bytes copied. -/
structure Gc where
  s : State
  b : Nat
  bad : Option (Nat × Exc) := none
  reached : List (Nat × Nat) := []
  copied : Nat := 0
  bads : Nat := 0

/-- An engine access that met a fault: the first is kept. -/
def Gc.failed (g : Gc) (va : Nat) (e : Exc) : Gc := if g.bad.isSome then g else { g with bad := some (va, e) }

/-- What an engine does while none of its accesses has failed: the collector halts at the first that does (R269). -/
def Gc.go (g : Gc) (f : Gc → Gc) : Gc := if g.bad.isSome then g else f g

/-- Read a granule of the berth for an engine; one found uncorrectable is counted (12 Table 12.7). -/
def Gc.get (g : Gc) (va : Nat) : Gc × MGran :=
  if g.bad.isSome then (g, MGran.zero)
  else
    let u := g.s.engUnit g.b va
    let r := g.s.translate u g.b va
    match r.2 with
    | .error f => ({ g with s := r.1 }.failed va { cause := f.cause, subcode := f.subcode, info := f.level, faddr := w64 va }, MGran.zero)
    | .ok pa =>
      let m := r.1.readVia u g.b (pa / 16 * 16)
      match m.2 with
      | .error e => ({ g with s := if e = beNOTARGET then m.1 else m.1.anomaly g.b 16 1 }.failed va { cause := cBUS, subcode := e, faddr := w64 va }, MGran.zero)
      | .ok x => ({ g with s := m.1 }, x)

/-- Change a granule of the berth for an engine. -/
def Gc.put (g : Gc) (va : Nat) (f : MGran → MGran) : Gc :=
  g.go (fun g =>
    let u := g.s.engUnit g.b va
    let r := g.s.translate u g.b va
    match r.2 with
    | .error e => { g with s := r.1 }.failed va { cause := e.cause, subcode := e.subcode, info := e.level, faddr := w64 va }
    | .ok pa =>
      if (r.1.verAt (pa / 16 * 16)).isNone then { g with s := r.1 }.failed va { cause := cBUS, subcode := beUNC, faddr := w64 va }
      else { g with s := r.1.rawPut u g.b va f })

/-- Every granule of a list of addresses is read. -/
def Gc.touch (g : Gc) (vas : List Nat) : Gc := vas.foldl (fun g va => (g.get va).1) g

/-- A granule emptied for a new life: RAW zero at VER `ver`, with a MARK. -/
def freshGran (ver mark : Nat) (_ : MGran) : MGran := { MGran.zero with ver := BitVec.ofNat 4 ver, mark := BitVec.ofNat 2 mark }

/-- Berth-virtual address of segment `i`, and of granule `k` of it. -/
def State.segVA (s : State) (b i : Nat) : Nat := s.heapBase b + i * 2 ^ 21

/-- The engine reads the SEGINFO of every segment at the start of its work, and halts where one is out of reach (R269). -/
def Gc.readInfos (g : Gc) : Gc := if g.s.heapOn g.b then g.touch ((upTo (g.s.segCount g.b)).map (fun i => g.s.heapBase g.b + 8192 * i)) else g

/-- The engine reads the entries in use of the export and import tables (12 R288). -/
def Gc.readTables (g : Gc) : Gc :=
  let x := g.s.berth g.b
  g.touch (((upTo x.exports.length) ++ (upTo x.imports.length).map (· + g.s.xtabMax g.b)).flatMap (fun i =>
    let va := g.s.app (berthIdx g.b) 0x46 + 32 * i
    [va, va + 16]))

/-- SEGINFO of a segment as the engine has read it, and its writing (12 Table 12.1: the other words of its block are kept). -/
def Gc.info (g : Gc) (i : Nat) : Nat := g.s.seginfo g.b i
def Gc.setInfo (g : Gc) (i v : Nat) : Gc :=
  g.put (g.s.heapBase g.b + 8192 * i) (fun m => m.setGran (m.g.setWord false (TWord.raw (w64 v))))

/-- Fields of SEGINFO replaced. -/
def siWith (v st ver : Nat) (pin fromSet : Bool) (live : Nat) : Nat := mkSeginfo st ver (siOwner v) pin fromSet live

/-- Segments of the heap that may be allocated (12 R270). -/
def State.heapSegs (s : State) (b : Nat) : List Nat := (upTo (s.segCount b)).filter (fun i => decide (s.metaSegs b ≤ i))

/-- Segments in a state. -/
def Gc.inState (g : Gc) (p : Nat → Bool) : List Nat := (g.s.heapSegs g.b).filter (fun i => p (g.info i))

/-- Bytes handed out of a segment. -/
def Gc.cursor (g : Gc) (i : Nat) : Nat := SMap.get (fun _ => 0) (g.s.berth g.b).cursor i
def Gc.setCursor (g : Gc) (i n : Nat) : Gc :=
  g.go (fun g => { g with s := g.s.updBerth g.b (fun x => { x with cursor := SMap.set (fun _ => 0) x.cursor i n }) })

/-- CHUNK_SIZE in force. -/
def State.chunkSize (s : State) (b : Nat) : Nat := max 4096 (s.app (berthIdx b) 0x43)

/-- MEM_USE (16 Table 16.5): 2 MiB for each segment not FREE, the metadata area included. -/
def State.memUse (s : State) (b : Nat) : Nat :=
  if s.heapOn b then (s.metaSegs b + ((s.heapSegs b).filter (fun i => siState (s.seginfo b i) != 0)).length) * 2 ^ 21 else 0

/-- The epoch of a segment state's generation (12 R277). -/
def State.epochOf (s : State) (b st : Nat) : Nat := if segYoung st then (s.berth b).nEpoch else (s.berth b).oEpoch

/-- LIVE of a segment whose granules are handed out marked while the old generation is being marked. -/
def State.liveTaken (s : State) (b st n : Nat) : Nat := if segOld st && s.oldPhase b == 2 then n else 0

/-! ### Taking and freeing segments (12 R272, R273, R282) -/

/-- Why a claim is refused. -/
inductive ClaimFail where
  | disabled
  | noFree
  | quota
  deriving DecidableEq, Repr

/-- Every granule of a segment. -/
def Gc.eachGran (g : Gc) (i : Nat) (f : MGran → MGran) : Gc :=
  (upTo 131072).foldl (fun g k => g.put (g.s.segVA g.b i + 16 * k) f) g

/-- NURSERY_SEGS of a berth. -/
def State.nurserySegs (s : State) (b : Nat) : Nat := s.ent (berthIdx b) 0x4D

/-- The FREE segments. -/
def Gc.freeSegs (g : Gc) : List Nat := g.inState (fun v => siState v == 0)

/-- `f` takes segments: where the free ones fall below NURSERY_SEGS by it, a minor cycle is due (12 R280). DEDUCED (log entry 120): to fall below
is to have been at it or above before. -/
def Gc.taking (g : Gc) (f : Gc → Gc) : Gc :=
  let h := f g
  let n := g.s.nurserySegs g.b
  if h.freeSegs.length < n ∧ n ≤ g.freeSegs.length then { h with s := h.s.updBerth g.b (fun x => { x with pendMinor := true }) } else h

/-- A FREE segment is taken in a state for a shed's engine: its granules become RAW zero at VER SVER, unmarked, or marked while
marking is active (R279). -/
def Gc.take (g : Gc) (i st owner : Nat) : Gc :=
  let v := g.info i
  let ver := if siVer v = 0 then 1 else siVer v
  let mark := if g.s.marking g.b then g.s.epochOf g.b st else 0
  g.taking (fun g =>
    let g := ((g.eachGran i (freshGran ver mark)).setInfo i (mkSeginfo st ver owner false false 0)).setCursor i 0
    { g with s := g.s.updBerth g.b (fun x => { x with taken := x.taken + b2n (segYoung st) }) })

/-- One of the segments that would do, where the spec names none (`Config.freeSegment`). -/
def Gc.pick (g : Gc) (l : List Nat) : Gc × Option Nat :=
  match l with
  | [] => (g, none)
  | [i] => (g, some i)
  | _ => ({ g with s := { g.s with fresh := g.s.fresh + 1 } }, listAt l (Config.freeSegment g.s.fresh % l.length))

/-- A new segment for a claim: the heap must have a FREE one, and MEM_QUOTA must admit it. -/
def Gc.claimSeg (g : Gc) (st owner : Nat) : Gc × Except ClaimFail Nat :=
  match g.pick g.freeSegs with
  | (_, none) => (g, .error .noFree)
  | (h, some i) =>
    if g.s.memUse g.b + 2 ^ 21 > g.s.ent (berthIdx g.b) 0x0C then (g, .error .quota) else (h.take i st owner, .ok i)

/-- Room for a whole chunk in a segment, at the next chunk boundary. -/
def Gc.chunkOff (g : Gc) (i : Nat) : Nat := (g.cursor i + g.s.chunkSize g.b - 1) / g.s.chunkSize g.b * g.s.chunkSize g.b

/-- The capability of a chunk (12 R272). -/
def State.chunkCap (s : State) (b va bytes ver : Nat) : Gran :=
  (Cap.exact 0xFFFF va (BitVec.ofNat 12 (s.app (berthIdx b) 0x44)) kDATA ver (va / 16) ((va + bytes) / 16)).toGran

/-- Claim one chunk of CHUNK_SIZE from a segment of a state that the shed owns, taking a FREE segment where none has room. -/
def Gc.claimChunk (g : Gc) (st shed : Nat) : Gc × Except ClaimFail Gran :=
  if !g.s.heapOn g.b || (g.s.berth g.b).halted then (g, .error .disabled)
  else
    let g := g.readInfos
    let size := g.s.chunkSize g.b
    let rooms := (g.inState (fun v => siState v == st && siOwner v == shed && !siFrom v)).filter (fun i => decide (g.chunkOff i + size ≤ 2 ^ 21))
    let r : Gc × Except ClaimFail Nat := match g.pick rooms with | (h, some i) => (h, .ok i) | (_, none) => g.claimSeg st shed
    match r.2 with
    | .error e => (r.1, .error e)
    | .ok i =>
      let off := r.1.chunkOff i
      let va := g.s.segVA g.b i + off
      let g1 := r.1.setCursor i (off + size)
      let g2 :=
        if g1.s.marking g.b then
          (upTo (size / 16)).foldl (fun g k => g.put (va + 16 * k) (fun m => { m with mark := BitVec.ofNat 2 (g.s.epochOf g.b st) })) g1
        else g1
      (g2, .ok (g1.s.chunkCap g.b va size (siVer (g1.info i))))

/-- Claim a large chunk of `n` bytes: consecutive FREE segments at whose base the bounds of R272 can be exactly the chunk (12 R274). -/
def Gc.claimLarge (g : Gc) (n shed : Nat) : Gc × Except ClaimFail Gran :=
  if !g.s.heapOn g.b || (g.s.berth g.b).halted then (g, .error .disabled)
  else
    let g := g.readInfos
    let bytes := (cfitlen n + 2 ^ 21 - 1) / 2 ^ 21 * 2 ^ 21
    let k := bytes / 2 ^ 21
    let fr := g.freeSegs
    let fits (i : Nat) : Bool :=
      let c := Cap.ofGran (g.s.chunkCap g.b (g.s.segVA g.b i) bytes 1)
      c.base == g.s.segVA g.b i / 16 && c.top == (g.s.segVA g.b i + bytes) / 16
    match g.pick (fr.filter (fun i => (upTo k).all (fun j => fr.contains (i + j)) && fits i)) with
    | (_, none) => (g, .error .noFree)
    | (h, some i) =>
      if g.s.memUse g.b + bytes > g.s.ent (berthIdx g.b) 0x0C then (g, .error .quota)
      else
        let ver := (upTo k).foldl (fun v j => max v (siVer (g.info (i + j)))) 1
        let g1 := h.taking (fun g => (upTo k).foldl (fun g j =>
          let st := if j = 0 then 5 else 6
          let mark := if g.s.marking g.b then g.s.epochOf g.b st else 0
          ((g.eachGran (i + j) (freshGran ver mark)).setInfo (i + j) (mkSeginfo st ver shed false false (g.s.liveTaken g.b st 131072))).setCursor
            (i + j) (2 ^ 21)) g)
        (g1, .ok (g.s.chunkCap g.b (g.s.segVA g.b i) bytes ver))

/-- A segment is freed: its granules move to the next VER, and to HELD after 14 (12 R282). -/
def Gc.freeSeg (g : Gc) (i : Nat) : Gc :=
  let v := g.info i
  let ver := siVer v + 1
  let g := (g.eachGran i (freshGran ver 0)).setInfo i (siWith v (if ver ≤ 14 then 0 else 8) (if ver ≤ 14 then ver else 14) false false 0)
  g.setCursor i 0

/-- R269: the collector of the berth halts where an engine access failed; the phases stop and the berth hears of it. -/
def Gc.done (g : Gc) : State :=
  match g.bad with
  | none => g.s
  | some (va, e) => g.s.haltGc g.b va e

/-- CONS's claim of a pair chunk (12 R272) for a stall: the chunk, or QUOTA_FAULT. -/
def claimPair (s : State) (k : Nat) : State × Except Fail Gran :=
  let b := stBerth (s.stall k).status
  let r := Gc.claimChunk { s := s, b := b } 1 (shedOf k)
  match r.1.bad, r.2 with
  | none, .ok c => (r.1.s, .ok c)
  | none, .error e => (r.1.s.anomaly b 0 1, .error ⟨17, { cause := cQUOTA, subcode := if e = .quota then 0x01 else 0x03 }⟩)
  | some _, _ => (r.1.done.anomaly b 0 1, .error ⟨17, { cause := cQUOTA, subcode := 0x03 }⟩)

/-! ### Objects (12 R275, R276) -/

/-- An object: its segment, the granule offset of its start from the heap's base, its length, and whether its body is not
scanned. -/
structure GObj where
  seg : Nat
  off : Nat
  len : Nat
  noscan : Bool := false

/-- Parse a chunk from granule `k`, `n` granules left to its end: its objects, where its tail starts, and bad headers. -/
def Gc.parse (g : Gc) (seg : Nat) : Nat → Nat → Nat → Gc × List GObj × Nat × Nat
  | 0, k, _ => (g, [], k, 0)
  | fuel + 1, k, n =>
    if n = 0 then (g, [], k, 0)
    else
      let r := g.get (g.s.heapBase g.b + 16 * k)
      let w := r.2.g.lo
      let len := nbits w.val.toNat 35 0
      if w.tag != tagHDR || !canonical w then (r.1, [], k, 0)
      else if len > n then (r.1, [], k, 1)
      else
        let t := r.1.parse seg fuel (k + len) (n - len)
        (t.1, { seg := seg, off := k, len := len, noscan := nbit w.val.toNat 63 } :: t.2.1, t.2.2.1, t.2.2.2)

/-- LCONT segments that follow a LARGE one, `n` left. -/
def Gc.conts (g : Gc) : Nat → Nat → Nat
  | 0, _ => 0
  | n + 1, i => if siState (g.info i) == 6 then Gc.conts g n (i + 1) + 1 else 0

/-- The objects of a segment, by its state, the granule ranges of its tails, and its bad headers. -/
def Gc.objs (g : Gc) (i : Nat) : Gc × List GObj × List (Nat × Nat) × Nat :=
  let base := i * 131072
  let used := g.cursor i / 16
  match siState (g.info i) with
  | 1 | 3 => (g, (upTo (used / 2)).map (fun j => { seg := i, off := base + 2 * j, len := 2 }), [], 0)
  | 2 | 4 =>
    let cg := g.s.chunkSize g.b / 16
    (upTo ((used + cg - 1) / cg)).foldl (fun (acc : Gc × List GObj × List (Nat × Nat) × Nat) j =>
      let r := acc.1.parse i cg (base + j * cg) cg
      (r.1, acc.2.1 ++ r.2.1, acc.2.2.1 ++ [(r.2.2.1, base + (j + 1) * cg)], acc.2.2.2 + r.2.2.2)) (g, [], [], 0)
  | 5 =>
    let n := 131072 * (1 + g.conts (g.s.segCount g.b) (i + 1))
    let r := g.parse i 1 base n
    (r.1, r.2.1, [(r.2.2.1, base + n)], r.2.2.2)
  | _ => (g, [], [], 0)

/-- The start segment of the large object that segment `i` belongs to. -/
def Gc.largeStart (g : Gc) : Nat → Nat → Nat
  | 0, i => i
  | n + 1, i => if siState (g.info i) == 6 then Gc.largeStart g n (i - 1) else i

/-- The object that holds a heap address. -/
def Gc.objAt (g : Gc) (seg va : Nat) : Gc × Option GObj :=
  let k := (va - g.s.heapBase g.b) / 16
  let seg := if siState (g.info seg) == 6 then g.largeStart seg seg else seg
  match siState (g.info seg) with
  | 1 | 3 => (g, some { seg := seg, off := k / 2 * 2, len := 2 })
  | _ =>
    let r := g.objs seg
    (r.1, r.2.1.find? (fun o => decide (o.off ≤ k) && decide (k < o.off + o.len)))

/-- Granule addresses of an object. -/
def Gc.granVAs (g : Gc) (o : GObj) : List Nat := (upTo o.len).map (fun k => g.s.heapBase g.b + 16 * (o.off + k))

/-- The capabilities among granules read at addresses. -/
def Gc.capsAt (g : Gc) (vas : List Nat) : Gc × List Gran :=
  vas.foldl (fun (acc : Gc × List Gran) va =>
    let r := acc.1.get va
    (r.1, if r.2.g.isCap then acc.2 ++ [r.2.g] else acc.2)) (g, [])

/-! ### Roots (12 R279) -/

/-- Every capability register of a stall and its context, DFSTACK among them (07 R161), a byte code's reads and what an exception brings to a frame
included. -/
def Stall.caps (t : Stall) : List Gran :=
  ([t.pcc, t.alloc, t.spcc, t.vbaseS, t.vbaseY, t.dfstack] ++ t.g.map (·.2) ++ t.entry.map (·.2) ++ t.vzGot.map (·.2) ++
    (t.exc.toList ++ t.dfOrig.toList ++ t.entering.toList.map (·.exc)).map (·.fcap) ++
    t.entering.toList.flatMap (fun e => [e.oldG31, e.oldPcc])).filter Gran.isCap
def Stall.mapCaps (f : Gran → Gran) (t : Stall) : Stall :=
  let ex (e : Exc) : Exc := { e with fcap := f e.fcap }
  { t with pcc := f t.pcc, alloc := f t.alloc, spcc := f t.spcc, vbaseS := f t.vbaseS, vbaseY := f t.vbaseY, dfstack := f t.dfstack,
           g := SMap.mapv (fun _ => Gran.zero) (fun _ x => f x) t.g, entry := SMap.mapv (fun _ => Gran.zero) (fun _ x => f x) t.entry,
           vzGot := t.vzGot.map (fun e => (e.1, f e.2)), exc := t.exc.map ex, dfOrig := t.dfOrig.map ex,
           entering := t.entering.map (fun e => { e with exc := ex e.exc, oldG31 := f e.oldG31, oldPcc := f e.oldPcc }) }

/-- Every capability of a record. -/
def Record.caps (r : Record) : List Gran := ([r.pcc, r.frame] ++ r.hots.map (·.2)).filter Gran.isCap
def Record.mapCaps (f : Gran → Gran) (r : Record) : Record :=
  { r with pcc := f r.pcc, frame := f r.frame, hots := r.hots.map (fun h => (h.1, f h.2)) }

/-- Whether a stall or record belongs to a living context of the berth. -/
def Stall.ofBerth (b : Nat) (t : Stall) : Bool := t.cid.isSome && stBerth t.status == b
def Record.ofBerth (b : Nat) (r : Record) : Bool := r.rstate != .free && stBerth r.status == b

/-- The register roots of a berth: registers, records, and values on their way to a register or to memory. -/
def State.regRoots (s : State) (b : Nat) : List Gran :=
  (s.stalls.filter (fun e => e.2.ofBerth b)).flatMap (fun e => e.2.caps) ++
    (s.records.filter (fun e => e.2.ofBerth b)).flatMap (fun e => e.2.caps) ++
    (s.ops.filter (fun o => s.berthOf o.cid == b)).filterMap (fun o => o.value.filter Gran.isCap) ++
    (s.waiters.filter (fun w => s.berthOf w.cid == b)).filterMap (fun w => w.got.filter Gran.isCap) ++
    s.cores.flatMap (fun e => e.2.buffer.flatMap (fun x => (x.stores.filter (fun st => st.g.isCap && st.cids.any (fun c => s.berthOf c == b))).map (·.g)))

/-- The same roots, each capability changed. -/
def State.mapRegRoots (s : State) (b : Nat) (f : Gran → Gran) : State :=
  let h (g : Gran) : Gran := if g.isCap then f g else g
  { s with
    stalls := SMap.mapv (fun _ => {}) (fun _ t => if t.ofBerth b then t.mapCaps h else t) s.stalls,
    records := SMap.mapv (fun _ => {}) (fun _ r => if r.ofBerth b then r.mapCaps h else r) s.records,
    ops := s.ops.map (fun o => if s.berthOf o.cid = b then { o with value := o.value.map h } else o),
    waiters := s.waiters.map (fun w => if s.berthOf w.cid = b then { w with got := w.got.map h } else w),
    cores := SMap.mapv (fun _ => {}) (fun _ c => { c with buffer := c.buffer.map (fun x => { x with stores := x.stores.map (fun st =>
      if st.cids.any (fun i => s.berthOf i == b) then { st with g := h st.g } else st) }) }) s.cores }

/-- The addresses of the frames of a berth's contexts (08 Table 8.6: 64 granules each). -/
def State.frameVAs (s : State) (b : Nat) : List Nat :=
  (s.records.filter (fun e => e.2.ofBerth b && e.2.frame.isCap)).flatMap (fun e =>
    (upTo 64).map (fun i => 16 * (Cap.ofGran e.2.frame).base + 16 * i))

/-- The addresses of the three root regions. -/
def State.rootVAs (s : State) (b : Nat) : List Nat :=
  (upTo 3).flatMap (fun r => (upTo (s.app (berthIdx b) (0x48 + 2 * r) / 16)).map (fun i => s.app (berthIdx b) (0x47 + 2 * r) + 16 * i))

/-- The capabilities the export table pins (12 R289). -/
def State.pinned (s : State) (b : Nat) : List XEntry := (s.berth b).exports.filter (fun e => e.home == s.nodeId)

/-- Mark every context of the berth scanned or not. -/
def State.setScanned (s : State) (b : Nat) (on : Bool) : State :=
  { s with records := SMap.mapv (fun _ => {}) (fun _ r => if r.ofBerth b then { r with scanned := on } else r) s.records,
           stalls := SMap.mapv (fun _ => {}) (fun _ t => if t.ofBerth b then { t with scanned := on } else t) s.stalls }

/-- Addresses of the slots of an old segment whose card bit is set (12 Table 12.1). -/
def Gc.cardVAs (g : Gc) (i : Nat) : Gc × List Nat :=
  let blk := g.s.heapBase g.b + 8192 * i + 0x40
  (upTo 32).foldl (fun (acc : Gc × List Nat) k =>
    let r := acc.1.get (blk + 16 * k)
    let bits := r.2.g.lo.val.toNat + r.2.g.hi.val.toNat * 2 ^ 64
    (r.1, acc.2 ++ ((upTo 128).filter (fun j => nbit bits j)).flatMap (fun j =>
      (upTo 32).map (fun x => g.s.segVA g.b i + (128 * k + j) * 512 + 16 * x)))) (g, [])

/-! ### Marking (12 R277, R279–R282) -/

/-- Segments a marking works on: a minor cycle's from-set; a major cycle's old and large segments. -/
def gcScope (minor : Bool) (v : Nat) : Bool := if minor then segYoung (siState v) && siFrom v else segOld (siState v)

/-- Set MARK on every granule of an object and count it in LIVE. -/
def Gc.markObj (g : Gc) (o : GObj) : Gc :=
  let e := g.s.epochOf g.b (siState (g.info o.seg))
  let g := (g.granVAs o).foldl (fun g va => g.put va (fun m => { m with mark := BitVec.ofNat 2 e })) g
  let v := g.info o.seg
  g.setInfo o.seg (siWith v (siState v) (siVer v) (siPin v) (siFrom v) (min 131072 (siLive v + o.len)))

/-- Set a segment's PIN. -/
def Gc.pin (g : Gc) (i : Nat) : Gc := let v := g.info i; g.setInfo i (siWith v (siState v) (siVer v) true (siFrom v) (siLive v))

/-- Trace from a worklist of capabilities: mark what is unmarked in scope and go on with what it holds; a capability to a peer
device's memory reaches its import entry. -/
def Gc.trace (minor : Bool) : Nat → List Gran → Gc → Gc
  | 0, _, g => g
  | _ + 1, [], g => g
  | fuel + 1, x :: xs, g =>
    let c := Cap.ofGran x
    if !g.s.isLocal c.node then Gc.trace minor fuel xs { g with reached := (c.node, c.base) :: g.reached }
    else
      match g.s.segOf g.b (16 * c.base) with
      | none => Gc.trace minor fuel xs g
      | some seg =>
        if !gcScope minor (g.info seg) then Gc.trace minor fuel xs g
        else
          let g := if c.kind == kCODE || c.kind == kENTRY || c.kind == kFRAME then g.pin seg else g
          let m := g.get (16 * c.base)
          if m.2.mark.toNat == g.s.epochOf g.b (siState (g.info seg)) then Gc.trace minor fuel xs m.1
          else
            let o := m.1.objAt seg (16 * c.base)
            match o.2 with
            | none => Gc.trace minor fuel xs o.1
            | some ob =>
              let g := o.1.markObj ob
              let r := if ob.noscan then (g, []) else g.capsAt (g.granVAs ob)
              Gc.trace minor fuel (r.2 ++ xs) r.1

/-- Granules of memory: more than any trace visits. -/
abbrev traceFuel : Nat := 2 ^ 48

/-- The tails of a segment's chunks are marked when its marking starts: of pair chunks, the slots above the highest that holds a
granule other than RAW zero. The segment's bad headers are counted here, once a cycle (12 R276). -/
def Gc.markTails (g : Gc) (i : Nat) : Gc :=
  let e := g.s.epochOf g.b (siState (g.info i))
  let mark (g : Gc) (k : Nat) : Gc := g.put (g.s.heapBase g.b + 16 * k) (fun m => { m with mark := BitVec.ofNat 2 e })
  let r := g.objs i
  if siState (g.info i) == 1 || siState (g.info i) == 3 then
    let cg := g.s.chunkSize g.b / 16
    (upTo ((g.cursor i / 16 + cg - 1) / cg)).foldl (fun g j =>
      let base := i * 131072 + j * cg
      let top := (upTo cg).foldl (fun (t : Gc × Nat) k =>
        let m := t.1.get (g.s.heapBase g.b + 16 * (base + k))
        (m.1, if m.2.g = Gran.zero then t.2 else k / 2 * 2 + 2)) (g, 0)
      ((upTo cg).filter (fun k => decide (top.2 ≤ k))).foldl (fun g k => mark g (base + k)) top.1) g
  else r.2.2.1.foldl (fun g t => (upTo (t.2 - t.1)).foldl (fun g k => mark g (t.1 + k)) g) { r.1 with bads := r.1.bads + r.2.2.2 }

/-- Bad headers met by an engine's parse. -/
def Gc.countBad (g : Gc) : Gc := { g with s := g.s.anomaly g.b 32 g.bads, bads := 0 }

/-- Every segment that an export entry's bounds overlap is pinned. -/
def Gc.pinExports (g : Gc) : Gc :=
  (g.s.pinned g.b).foldl (fun g e =>
    ((g.s.heapSegs g.b).filter (fun i => decide (16 * e.lo < g.s.segVA g.b (i + 1)) && decide (g.s.segVA g.b i < 16 * e.hi))).foldl Gc.pin g) g

/-- The roots common to both cycles. -/
def Gc.roots (g : Gc) : Gc × List Gran :=
  let r := g.capsAt (g.s.frameVAs g.b ++ g.s.rootVAs g.b)
  let ex := (g.s.pinned g.b).map (fun e => (Cap.exact 0xFFFF (16 * e.lo) 0 kDATA 0 e.lo (e.lo + 1)).toGran)
  (r.1, r.2 ++ ex ++ g.s.regRoots g.b)

/-- The imports that a marking of the old generation has reached so far are kept until its end (12 R291). -/
def Gc.keepReached (g : Gc) : Gc :=
  if g.s.oldPhase g.b == 2 then { g with s := g.s.updBerth g.b (fun x => { x with reached := x.reached ++ g.reached }), reached := [] } else g

/-- Start marking: the epoch flips, PIN, LIVE and FROM of its segments are set, tails marked, every root scanned and traced. -/
def Gc.startMark (g : Gc) (minor : Bool) : Gc :=
  let b := g.b
  let inGen (v : Nat) : Bool := if minor then segYoung (siState v) else segOld (siState v)
  let s := g.s.updBerth b (fun x => if minor then { x with nEpoch := 3 - x.nEpoch, taken := 0, pendMinor := false } else { x with oEpoch := 3 - x.oEpoch, reached := [] })
  let s := s.setScanned b false
  let s := if minor then s.setPhase b 1 (s.oldPhase b) else s.setPhase b (s.minorPhase b) 2
  let g := ({ g with s := s } : Gc).readInfos.readTables
  let segs := g.inState inGen
  let g := segs.foldl (fun g i => let v := g.info i; g.setInfo i (siWith v (siState v) (siVer v) false minor 0)) g
  let g := (segs.foldl Gc.markTails g).countBad.pinExports
  let r := g.roots
  let more : Gc × List Gran :=
    if minor then
      (r.1.inState (fun v => segOld (siState v))).foldl (fun acc i => let c := acc.1.cardVAs i; let x := c.1.capsAt c.2; (x.1, acc.2 ++ x.2)) (r.1, [])
    else
      (r.1.inState (fun v => segYoung (siState v))).foldl (fun acc i =>
        let o := acc.1.objs i
        (o.2.1.filter (fun ob => !ob.noscan)).foldl (fun a ob => let x := a.1.capsAt (a.1.granVAs ob); (x.1, a.2 ++ x.2)) (o.1, acc.2)) (r.1, [])
  let g := (more.1.trace minor traceFuel (r.2 ++ more.2)).keepReached
  g.go (fun g => { g with s := g.s.setScanned b true })

/-- What ends a marking: the log and the contexts not yet scanned are traced, for both generations where both are marked, and the export entries made
since it began pin too (12 R289). -/
def Gc.finishMark (g : Gc) : Gc :=
  let g := g.readInfos.readTables.pinExports
  let log := (g.s.berth g.b).log
  let cs := (g.s.records.filter (fun e => e.2.ofBerth g.b && !e.2.scanned)).map (·.1)
  let regs := (g.s.stalls.filter (fun e => e.2.ofBerth g.b)).flatMap (fun e => e.2.caps) ++
    (g.s.records.filter (fun e => cs.contains e.1)).flatMap (fun e => e.2.caps)
  let fr := g.capsAt ((g.s.records.filter (fun e => cs.contains e.1 && e.2.frame.isCap)).flatMap (fun e =>
    (upTo 64).map (fun i => 16 * (Cap.ofGran e.2.frame).base + 16 * i)))
  let all := log ++ regs ++ fr.2
  let g := if g.s.minorPhase g.b == 1 then fr.1.trace true traceFuel all else fr.1
  let g := if g.s.oldPhase g.b == 2 then (g.trace false traceFuel all).keepReached else g
  g.go (fun g => { g with s := (g.s.updBerth g.b (fun x => { x with log := [] })).setScanned g.b true })

/-! ### Evacuation (12 R280–R285) -/

/-- Room for an object of `n` granules in a segment: never across a chunk's end. -/
def Gc.copyOff (g : Gc) (i n : Nat) : Nat :=
  let cg := g.s.chunkSize g.b / 16
  let k := g.cursor i / 16
  if k % cg + n ≤ cg then k else (k + cg - 1) / cg * cg

/-- Where an object's copy goes: a segment of the state with room, or a FREE one taken. A major cycle's copies go to segments taken for them
(R281), which are those without a live object of its marking. -/
def Gc.copySeg (g : Gc) (minor : Bool) (st n owner : Nat) : Option (Gc × Nat) :=
  let rooms := (g.inState (fun v => siState v == st && !siFrom v && !siPin v && (minor || siLive v == 0))).filter
    (fun i => decide (g.copyOff i n + n ≤ 131072))
  match g.pick rooms with
  | (h, some i) => some (h, i)
  | (_, none) =>
    match g.pick g.freeSegs with
    | (_, none) => none
    | (h, some i) => some (h.take i st owner, i)

/-- Waits registered on a granule go with its copy. -/
def State.moveWaits (s : State) (b vaFrom vaTo : Nat) : State :=
  match (s.resolve (s.engUnit b vaFrom) b vaFrom).2, (s.resolve (s.engUnit b vaTo) b vaTo).2 with
  | .ok x, .ok y =>
    let pa := x.pa / 16 * 16
    let pa2 := y.pa / 16 * 16
    let f (p : Nat) : Nat := if p / 16 * 16 = pa then pa2 + p % 16 else p
    { s with waiters := s.waiters.map (fun w => { w with pa := f w.pa }),
             ops := s.ops.map (fun o => { o with poll := o.poll.map (fun q => (f q.1, q.2)) }) }
  | _, _ => s

/-- Copy an object and leave forwarding granules; none where the heap has no room. -/
def Gc.copyObj (g : Gc) (minor : Bool) (o : GObj) : Option Gc :=
  let v := g.info o.seg
  let first := g.get (g.s.heapBase g.b + 16 * o.off)
  let age := if minor then min 3 (first.2.age.toNat + 1) else first.2.age.toNat
  let st := if minor ∧ age < g.s.ent (berthIdx g.b) 0x4E then siState v else if siState v == 1 || siState v == 3 then 3 else 4
  match first.1.copySeg minor st o.len (siOwner v) with
  | none => none
  | some (g, i) =>
    let off := i * 131072 + g.copyOff i o.len
    let ver := siVer (g.info i)
    let mark := if !segYoung st && g.s.oldPhase g.b == 2 then g.s.epochOf g.b st else 0
    let base := g.s.heapBase g.b
    let g := g.setCursor i (16 * (g.copyOff i o.len + o.len))
    let w := g.info i
    let g := g.setInfo i (siWith w (siState w) (siVer w) (siPin w) (siFrom w) (min 131072 (siLive w + g.s.liveTaken g.b st o.len)))
    let g := (upTo o.len).foldl (fun g k =>
      let src := base + 16 * (o.off + k)
      let dst := base + 16 * (off + k)
      let m := g.get src
      let g1 := m.1.put dst (fun d => ({ d with ver := BitVec.ofNat 4 ver, age := BitVec.ofNat 2 age, mark := BitVec.ofNat 2 mark } : MGran).setGran m.2.g)
      let fwd := (Cap.exact 0xFFFF dst 0 kDATA ver (base / 16 + off) (base / 16 + off + o.len)).toGran
      let g2 := g1.put src (fun d => d.setGran ⟨⟨tagFWDL, fwd.lo.val⟩, ⟨tagFWDH, fwd.hi.val⟩⟩)
      g2.go (fun g => { g with s := g.s.moveWaits g.b src dst })) g
    some (g.go (fun g => { g with copied := g.copied + 16 * o.len }))

/-- Evacuate a from-set segment whole; one for whose objects the heap has no room stays, pinned. -/
def Gc.evacSeg (g : Gc) (minor : Bool) (i : Nat) : Gc :=
  let o := g.objs i
  let e := g.s.epochOf g.b (siState (g.info i))
  let r := o.2.1.foldl (fun (acc : Option Gc) ob =>
    match acc with
    | none => none
    | some g =>
      let m := g.get (g.s.heapBase g.b + 16 * ob.off)
      if m.2.mark.toNat == e then m.1.copyObj minor ob else some m.1) (some o.1)
  match r with
  | some g => g
  | none => g.pin i

/-- The from-set segments of a cycle that are evacuated. -/
def Gc.fromSet (g : Gc) (minor : Bool) : List Nat :=
  g.inState (fun v => siFrom v && !siPin v && (if minor then segYoung (siState v) else segOld (siState v)))

/-- Evacuate the whole from-set. -/
def Gc.evac (g : Gc) (minor : Bool) : Gc := (g.fromSet minor).foldl (fun g i => g.evacSeg minor i) g

/-! ### Update (12 R280–R282) -/

/-- A capability into the from-set, rebased (12 R282). -/
def Gc.rebase (g : Gc) (x : Gran) : Gc × Gran :=
  if g.s.evacuating g.b && g.s.heapCap g.b x then
    let m := g.get (16 * (Cap.ofGran x).base)
    (m.1, rebaseFrom m.2 x)
  else (g, x)

/-- Rebase the capabilities of granules in place. -/
def Gc.rebaseAt (g : Gc) (vas : List Nat) : Gc :=
  vas.foldl (fun g va =>
    let m := g.get va
    let x := m.1.rebase m.2.g
    if x.2 = m.2.g then x.1 else x.1.put va (fun d => d.setGran x.2)) g

/-- Rebase a list of capabilities: what each becomes. -/
def Gc.rebaseMap (g : Gc) (xs : List Gran) : Gc × (Gran → Gran) :=
  let r := xs.dedup.foldl (fun (acc : Gc × List (Gran × Gran)) x => let y := acc.1.rebase x; (y.1, acc.2 ++ [(x, y.2)])) (g, [])
  (r.1, fun x => match r.2.find? (fun e => decide (e.1 = x)) with | some e => e.2 | none => x)

/-- The card bits of an old segment, as the young capabilities in its slots require: those of slots that hold none any more are cleared (R280), and
those of slots that a copy or a segment grown old leaves with one are set (Table 12.6's condition). -/
def Gc.cleanCards (g : Gc) (i : Nat) : Gc :=
  let blk := g.s.heapBase g.b + 8192 * i + 0x40
  (upTo 32).foldl (fun g k =>
    let r := g.get (blk + 16 * k)
    let bits := r.2.g.lo.val.toNat + r.2.g.hi.val.toNat * 2 ^ 64
    let keep := (upTo 128).foldl (fun n j =>
      let young := (r.1.capsAt ((upTo 32).map (fun x => g.s.segVA g.b i + (128 * k + j) * 512 + 16 * x))).2.any (fun c =>
        match g.s.segOf g.b (16 * (Cap.ofGran c).base) with
        | some sg => g.s.heapCap g.b c && segYoung (siState (g.info sg))
        | none => false)
      if young then n + 2 ^ j else n) 0
    if keep = bits then r.1 else r.1.put (blk + 16 * k) (fun m => m.setGran (rawGran (w64 keep) (w64 (keep / 2 ^ 64))))) g

/-- UPDATE: the roots and every object of the heap are rebased. -/
def Gc.update (g : Gc) : Gc :=
  let m := g.readInfos.rebaseMap (g.s.regRoots g.b ++ (g.s.berth g.b).log)
  let g := m.1.go (fun g => { g with s := (g.s.mapRegRoots g.b m.2).updBerth g.b (fun x => { x with log := x.log.map m.2 }) })
  let g := g.rebaseAt (g.s.frameVAs g.b ++ g.s.rootVAs g.b)
  let segs := g.inState (fun v => (segYoung (siState v) || segOld (siState v)) && !(siFrom v && !siPin v))
  segs.foldl (fun g i =>
    let o := g.objs i
    (o.2.1.filter (fun ob => !ob.noscan)).foldl (fun g ob => g.rebaseAt (g.granVAs ob)) o.1) g

/-- The end of a cycle's from-set: evacuated segments are freed; pinned nursery segments become old in place; a minor cycle leaves the card bits
right. -/
def Gc.freeFrom (g : Gc) (minor : Bool) : Gc :=
  let marking := g.s.oldPhase g.b == 2
  let pins := g.inState (fun v => siFrom v && siPin v && (if minor then segYoung (siState v) else segOld (siState v)))
  let g := (g.fromSet minor).foldl Gc.freeSeg g
  let g := pins.foldl (fun g i =>
    let v := g.info i
    if minor then
      let st := siState v + 2
      let mark := if marking then (g.s.berth g.b).oEpoch else 0
      (g.eachGran i (fun m => { m with mark := BitVec.ofNat 2 mark })).setInfo i (siWith v st (siVer v) true false (siLive v))
    else g.setInfo i (siWith v (siState v) (siVer v) true false (siLive v))) g
  if minor then (g.inState (fun v => segOld (siState v))).foldl Gc.cleanCards g else g

/-! ### The sweep (12 R287, 03 R57) -/

/-- Whether the berth's applied block registers map a physical address. -/
def State.maps (s : State) (b pa : Nat) : Bool :=
  (upTo 16).any (fun n =>
    let x := s.blk 0x100 b n
    x.valid &&
      (if x.walked then (upTo (2 ^ (x.size - 12))).any (fun i =>
          match (s.resolve (s.engUnit b 0) b (x.vbase + 4096 * i)).2 with
          | .ok m => decide (m.pa / 4096 = pa / 4096)
          | .error _ => false)
        else decide (x.target ≤ pa) && decide (pa < x.target + 2 ^ x.size)))

/-- The physical addresses of the listed granules of memory that the berth maps; an unlisted one holds no capability and VER 0. -/
def State.berthMem (s : State) (b : Nat) : List Nat :=
  ((s.mem.filterMap (fun e => s.pdaPA (e.1 / 2 ^ 40) (e.1 % 2 ^ 40 * 16))).dedup).filter (s.maps b)

/-- VER of a granule at a berth-virtual address. -/
def State.verVA (s : State) (b va : Nat) : Option Nat :=
  match (s.resolve (s.engUnit b va) b va).2 with
  | .ok m => s.verAt (m.pa / 16 * 16)
  | .error _ => none

/-- R57 step 1: whether a capability is stale: versioned, and its VER differs from that of the granule at its base or its bounds
touch a retired granule. DEDUCED (log entry 121): the sentence can also be read to clear an unversioned capability whose bounds touch a
retired granule; Table 12.6 logs versioned capabilities alone and Example 3.3's allocator keeps its unversioned region through a sweep, so the model
clears versioned ones only. DESIGN CHOICE (the same entry): a granule that does not translate, at the base or within the bounds, has no VER to
compare and is not retired: it clears nothing. -/
def State.stale (s : State) (b : Nat) (g : Gran) : Bool :=
  let c := Cap.ofGran g
  g.isCap && s.isLocal c.node && c.ver != 0 &&
    ((match s.verVA b (16 * c.base) with | some v => v != c.ver | none => false) ||
      (upTo (c.top - c.base)).any (fun k => s.verVA b (16 * (c.base + k)) == some 15))

/-- A capability granule cleared to RAW (02 R25). -/
def clearedGran (g : Gran) : Gran := ⟨TWord.raw g.lo.val, TWord.raw g.hi.val⟩

/-- What the scan of memory makes of a granule; malformed and uncorrectable ones are counted. -/
structure SweepAcc where
  s : State
  cleared : Nat := 0
  malformed : Nat := 0
  unc : Nat := 0

/-- Scan one granule of memory. -/
def SweepAcc.gran (b : Nat) (a : SweepAcc) (pa : Nat) : SweepAcc :=
  let u := a.s.engUnit b 0
  let r := a.s.readVia u b pa
  match r.2 with
  | .error _ => { a with s := r.1, unc := a.unc + 1 }
  | .ok m =>
    if m.g.isMalformed then { a with s := r.1, malformed := a.malformed + 1 }
    else if r.1.stale b m.g then { a with s := (r.1.touchWrite (unitShed u) noCore b (pa / 64) (pa / 16 % 4)).writePA pa (m.setGran (clearedGran m.g)), cleared := a.cleared + 1 }
    else { a with s := r.1 }

/-- The log after a sweep's start or end: what a minor cycle's marking still has to trace stays. -/
def State.sweptLog (s : State) (b : Nat) (log : List Gran) : List Gran := if s.minorPhase b = 1 then log else []

/-- SWEEP starts: the granules retired now are those it will reset. -/
def State.startSweep (s : State) (b : Nat) : State :=
  let rs := (s.berthMem b).filter (fun pa => (s.rawAt pa).ver == 15)
  (s.updBerth b (fun x => { x with retiredAt := rs, pendSweep := false, log := s.sweptLog b x.log })).setPhase b (s.minorPhase b) 5

/-- 12 R287: HELD segments reach SWEEP_TRIGGER while the old phase is IDLE: a sweep starts. -/
def State.trySweep (s : State) (b : Nat) : State :=
  let n := s.ent (berthIdx b) 0x51
  if s.heapOn b && !(s.berth b).halted && s.oldPhase b == 1 && n != 0 &&
      decide (n ≤ ((s.heapSegs b).filter (fun i => siState (s.seginfo b i) == 8)).length) then s.startSweep b
  else s

/-- The old phase outside a cycle or sweep (12 R278). -/
def State.restPhase (s : State) (b : Nat) : Nat := if s.heapOn b && !(s.berth b).halted then 1 else 0

/-- SWEEP: GC_CMD 3. -/
def doSweep (b : Nat) (s : State) : State :=
  match s.oldPhase b with
  | 0 | 1 => s.startSweep b
  | 5 => s
  | _ => s.updBerth b (fun x => { x with pendSweep := true })

/-- Whether a granule at a physical address lies within an object of the berth's export table (12 R289). -/
def State.exported (s : State) (b pa : Nat) : Bool :=
  (s.pinned b).any (fun e => (upTo (e.hi - e.lo)).any (fun k =>
    match (s.resolve (s.engUnit b (16 * (e.lo + k))) b (16 * (e.lo + k))).2 with
    | .ok m => decide (m.pa / 16 * 16 = pa)
    | .error _ => false))

/-- Start a pending major cycle where the phases allow one. -/
def State.tryMajor (s : State) (b : Nat) : State :=
  if (s.berth b).pendMajor && s.heapOn b && !(s.berth b).halted && s.minorPhase b == 0 && s.oldPhase b == 1 then
    ((Gc.mk (s.updBerth b (fun x => { x with pendMajor := false })) b none [] 0 0).startMark false).done
  else s

/-- Start a minor cycle that a trigger of R280 has made due, where the phases allow one (R278): NURSERY_SEGS segments taken since the last, or the free
ones fallen below it. -/
def State.tryMinor (s : State) (b : Nat) : State :=
  let x := s.berth b
  if (x.pendMinor || decide (s.nurserySegs b ≤ x.taken)) && s.heapOn b && !x.halted && s.minorPhase b == 0 && s.oldPhase b != 0 && s.oldPhase b != 3 &&
      s.oldPhase b != 4 then (({ s := s, b := b } : Gc).startMark true).done
  else s

/-- What may start where a cycle or sweep has ended: a sweep, a major cycle, a minor cycle (12 R280, R281, R287). -/
def State.tryCycles (s : State) (b : Nat) : State :=
  (((if (s.berth b).pendSweep && s.oldPhase b == 1 then s.startSweep b else s.trySweep b)).tryMajor b).tryMinor b

/-- 12 R281: at the end of a minor cycle, old segments beyond OLD_TRIGGER percent of those outside the metadata area make a major cycle due. -/
def State.oldTrigger (s : State) (b : Nat) : State :=
  let l := s.heapSegs b
  if s.ent (berthIdx b) 0x4F * l.length < 100 * (l.filter (fun i => segOld (siState (s.seginfo b i)))).length then
    s.updBerth b (fun x => { x with pendMajor := true })
  else s

/-- SWEEP_END: the scan is complete, retired granules return to VER 0, HELD segments become FREE (12 R287). -/
def doSweepEnd (b : Nat) (s : State) : State :=
  if s.oldPhase b != 5 then s
  else
    let a := (s.berthMem b).foldl (SweepAcc.gran b) { s := (({ s := s, b := b } : Gc).readInfos.readTables).done }
    let roots := a.s.regRoots b
    let n := (roots.filter (a.s.stale b)).length
    let s1 := a.s.mapRegRoots b (fun g => if a.s.stale b g then clearedGran g else g)
    let back := (s1.berth b).retiredAt.filter (fun k => !s1.exported b k)
    let s2 := back.foldl (fun s pa => let m := s.rawAt pa; if m.ver == 15 then s.writePA pa { m with ver := 0 } else s) s1
    let g : Gc := { s := s2, b := b }
    let held := if s2.heapOn b then (g.inState (fun v => siState v == 8)).filter (fun i =>
      (upTo 131072).all (fun k => s2.verVA b (s2.segVA b i + 16 * k) == some 0)) else []
    let g := held.foldl (fun g i => g.setInfo i (siWith (g.info i) 0 0 false false 0)) g
    let cleared := a.cleared + n
    let s3 := (g.done.anomaly b 48 a.malformed).anomaly b 16 a.unc
    let s4 := ((s3.bump (berthIdx b) 0x5F 64 cleared).bump (berthIdx b) 0x5B 32 1).setPhase b (s3.minorPhase b) (s3.restPhase b)
    let s5 := s4.updBerth b (fun x => { x with log := s4.sweptLog b x.log, retiredAt := [] })
    ((s5.berthEvent b 0x04 (w64 cleared) (w64 (s5.ent (berthIdx b) 0x5B))).tryMajor b).tryMinor b

/-! ### The cycles' commands -/

/-- Whether a store of the berth still waits in a merging buffer: the engines evacuate and update what has been performed. -/
def State.anyBuffered (s : State) (b : Nat) : Bool :=
  s.cores.any (fun e => e.2.buffer.any (fun x => x.stores.any (fun st => st.cids.any (fun c => s.berthOf c == b))))

/-- MINOR_CYCLE: GC_CMD 1 (12 R278, R280). -/
def doMinorCycle (b : Nat) (s : State) : State :=
  if !s.heapOn b || (s.berth b).halted || s.minorPhase b != 0 || s.oldPhase b == 0 || s.oldPhase b == 3 || s.oldPhase b == 4 then s
  else (({ s := s, b := b } : Gc).startMark true).done

/-- MAJOR_CYCLE: GC_CMD 2; it starts where no minor cycle and no sweep runs, at once or when they end. -/
def doMajorCycle (b : Nat) (s : State) : State :=
  if !s.heapOn b || (s.berth b).halted then s else (s.updBerth b (fun x => { x with pendMajor := true })).tryMajor b

/-- CLEAR_STATISTICS: GC_CMD 4. -/
def doClearStatistics (b : Nat) (s : State) : State := [0x59, 0x5A, 0x5B, 0x5C, 0x5D, 0x5E, 0x5F].foldl (fun s e => s.setEnt (berthIdx b) e 0) s

/-- 12 R291: import entries that marking did not reach are dropped, their COUNT sent home. -/
def State.dropImports (s : State) (b : Nat) (gone : XEntry → Bool) : State :=
  let x := s.berth b
  let out := x.imports.filter gone
  let s := s.setBerth b { x with imports := x.imports.filter (fun e => !gone e) }
  out.foldl (fun s e =>
    s.emit { pt := ptDROP, dst := e.home, src := 0, charter := s.app (berthIdx b) 0x04, key := e.home * 2 ^ 48 + e.gran, count := e.count }) s

/-- MARK_END (12 R280, R281): marking completes and evacuation's copies are made; a halted collector does nothing more (R269). -/
def doMarkEnd (b : Nat) (minor : Bool) (s : State) : State :=
  if s.anyBuffered b || (s.berth b).halted then s
  else if minor then
    if s.minorPhase b != 1 then s
    else
      let g := ({ s := s, b := b } : Gc).finishMark
      let g := g.go (fun g => { g with s := g.s.setPhase b 2 (g.s.oldPhase b) }.evac true)
      { g with s := g.s.bump (berthIdx b) 0x5C 64 g.copied }.done
  else if s.oldPhase b != 2 || s.minorPhase b != 0 then s
  else
    let g := ({ s := s, b := b } : Gc).finishMark
    let keys := (g.s.berth b).reached
    let g := (g.inState (fun v => segOld (siState v) && siState v != 6 && siLive v == 0 && !siPin v)).foldl (fun g i =>
      if siState (g.info i) == 5 then (upTo (1 + g.conts (g.s.segCount b) (i + 1))).foldl (fun g j => g.freeSeg (i + j)) g else g.freeSeg i) g
    let thr := g.s.ent (berthIdx b) 0x50
    let g := (g.inState (fun v => (siState v == 3 || siState v == 4) && !siPin v && decide (siLive v * 100 < thr * 131072))).foldl (fun g i =>
      let v := g.info i
      g.setInfo i (siWith v (siState v) (siVer v) false true (siLive v))) g
    let g := g.go (fun g => { g with s := g.s.dropImports b (fun e => e.hold == 0 && !e.pending && !keys.contains (e.home, e.gran)) })
    let g := g.go (fun g => { g with s := g.s.setPhase b (g.s.minorPhase b) 3 }.evac false)
    { g with s := g.s.bump (berthIdx b) 0x5C 64 g.copied }.done

/-- EVAC_END: update begins. -/
def doEvacEnd (b : Nat) (minor : Bool) (s : State) : State :=
  if (s.berth b).halted then s
  else if minor then (if s.minorPhase b == 2 then s.setPhase b 3 (s.oldPhase b) else s)
  else if s.oldPhase b == 3 then s.setPhase b (s.minorPhase b) 4 else s

/-- R373: OVER_QUOTA as things stand. -/
def State.overQuota (s : State) (b : Nat) : Bool :=
  (upTo 16).any (fun h => decide (s.ent (berthIdx b) 0x0A < s.resident h b)) || decide (s.ent (berthIdx b) 0x0B < s.recordsUse b) ||
    decide (s.ent (berthIdx b) 0x0C < s.memUse b)

/-- R373: QUOTA_CLEAR is queued when OVER_QUOTA returns to 0. -/
def State.quotaEdge (s : State) (b : Nat) : State :=
  let o := s.overQuota b
  let was := (s.berth b).overQ
  let s := if o = was then s else s.updBerth b (fun x => { x with overQ := o })
  if was && !o then s.berthEvent b 0x06 0 0 else s

/-- Every berth whose OVER_QUOTA may have changed. -/
def State.quotaEdges (s : State) : State := (s.berths.map (·.1)).foldl State.quotaEdge s

/-- UPDATE_END (12 R280–R282): rebasing completes, every context's roots are rescanned, and the from-set is freed. -/
def doUpdateEnd (b : Nat) (minor : Bool) (s : State) : State :=
  if s.anyBuffered b || (s.berth b).halted then s
  else if minor then
    if s.minorPhase b != 3 then s
    else
      let g := (({ s := s, b := b } : Gc).update).freeFrom true
      let g := g.go (fun g => { g with s := (g.s.setPhase b 0 (g.s.oldPhase b)).bump (berthIdx b) 0x59 32 1 })
      ((g.done.quotaEdge b).oldTrigger b).tryCycles b
  else if s.oldPhase b != 4 then s
  else
    let g := (({ s := s, b := b } : Gc).update).freeFrom false
    let g := g.go (fun g => { g with s := (g.s.setPhase b (g.s.minorPhase b) 1).bump (berthIdx b) 0x5A 32 1 })
    (g.done.quotaEdge b).tryCycles b

/-- OBJ_CLAIM: a write of the entry; ignored while OBJ_STATUS is BUSY (12 Table 12.7). -/
def doObjClaim (b n : Nat) (s : State) : State :=
  if s.ent (berthIdx b) 0x56 == 1 then s else (s.setEnt (berthIdx b) 0x56 1).updBerth b (fun x => { x with objReq := some n })

/-- OBJ_STATUS_DONE: the engine answers: the chunk capability in the mailbox, or the reason. The claim is the engine's of shed 0
for a claim that names no shed. -/
def doObjStatusDone (b : Nat) (s : State) : State :=
  match (s.berth b).objReq with
  | none => s
  | some n =>
    let s := s.updBerth b (fun x => { x with objReq := none })
    let fin (s : State) (v : Nat) : State := s.setEnt (berthIdx b) 0x56 v
    let mb := s.ent (berthIdx b) 0x54
    if !s.heapOn b || (s.berth b).halted then fin (s.anomaly b 0 1) 6
    else if mb % 16 != 0 || (s.segOf b mb).isSome || (s.verVA b mb).isNone then fin (s.anomaly b 0 1) 5
    else
      let r := if n = 0 then Gc.claimChunk { s := s, b := b } 2 0 else Gc.claimLarge { s := s, b := b } n 0
      match r.1.bad, r.2 with
      | some _, _ => fin (r.1.done.anomaly b 0 1) 6
      | none, .error e => fin (r.1.s.anomaly b 0 1) (match e with | .disabled => 6 | .noFree => 3 | .quota => 4)
      | none, .ok c => fin (((r.1.s.putVA (r.1.s.engUnit b mb) b mb (fun m => m.setGran c)).quotaEdge b).tryMinor b) 2

/-! ### Entries (12 R295, 16 R378) -/

/-- A commit that enables the heap initialises the metadata area afresh. -/
def State.initHeap (s : State) (b : Nat) : State :=
  let n := s.segCount b
  let k := s.metaSegs b
  let g : Gc := { s := s.updBerth b (fun x => { x with cursor := [], taken := 0, halted := false, metaOld := false, pendMajor := false, pendMinor := false, log := [], nEpoch := 1, oEpoch := 1 }), b := b }
  let g := (upTo n).foldl (fun g i =>
    let va := g.s.heapBase b + 8192 * i
    let g := (upTo 512).foldl (fun g j => g.put (va + 16 * j) (fun m => m.setGran Gran.zero)) g
    if i < k then g.setInfo i (mkSeginfo 7 0 0 false false 0) else g) g
  ({ g with s := g.s.setPhase b 0 (if g.s.oldPhase b == 5 then 5 else 1) } : Gc).done

/-- R295: the refusal of the collector group, 0 where it passes; `g e` is the staged value of subindex `e`. -/
def State.heapCheck (s : State) (b : Nat) : Nat :=
  let i := berthIdx b
  let g (e : Nat) : Nat := s.ent i e
  let on := g 0x40 == 1
  let regions : List (Nat × Nat) :=
    ((if on then [(g 0x41, g 0x42)] else []) ++ (if g 0x45 != 0 then [(g 0x46, 64 * g 0x45)] else []) ++
      [(g 0x47, g 0x48), (g 0x49, g 0x4A), (g 0x4B, g 0x4C)]).filter (fun r => r.2 != 0)
  let pow2 (n : Nat) : Bool := n != 0 && n == 2 ^ n.log2
  let changed := ([0x41, 0x42, 0x43, 0x44, 0x45, 0x46, 0x47, 0x48, 0x49, 0x4A, 0x4B, 0x4C].any (fun e => g e != s.app i e))
  if on && (g 0x41 % 2 ^ 21 != 0 || g 0x42 % 2 ^ 21 != 0 || decide (g 0x42 < 2 ^ 26) || decide (2 ^ 44 < g 0x42) ||
      decide (2 ^ 48 < g 0x41 + g 0x42)) then 0x41
  else if !(pow2 (g 0x43) && decide (4096 ≤ g 0x43) && decide (g 0x43 ≤ 65536)) then 0x42
  else if Nat.land (g 0x44) 0xD80 != 0xD80 || Nat.land (g 0x44) 0xFFFF != Nat.land (g 0x44) 0xDC4 then 0x43
  else if g 0x46 % 2 ^ 21 != 0 || !(g 0x45 == 0 || (pow2 (g 0x45) && decide (g 0x45 ≤ 1048576))) then 0x44
  else if anyPair (fun (x y : Nat × Nat) => decide (x.1 < y.1 + y.2) && decide (y.1 < x.1 + x.2)) regions then 0x45
  else if (on && s.app i 0x40 == 1 && changed) ||
      (!on && s.app i 0x40 == 1 && !(s.minorPhase b == 0 && s.oldPhase b == 1)) then 0x46
  else 0

/-- SEGS and XTAB_USE (12 Table 12.7). -/
def State.segsEntry (s : State) (b : Nat) : Nat :=
  if s.heapOn b then
    let l := (s.heapSegs b).map (fun i => siState (s.seginfo b i))
    (l.filter (· == 0)).length + (l.filter (· == 8)).length * 2 ^ 32
  else 0
def State.xtabUse (s : State) (b : Nat) : Nat := (s.berth b).exports.length + (s.berth b).imports.length * 2 ^ 32

end Sys2Proof.Machine
end

