-- ==== Sys2Proof/Machine/Ports.lean ====
section
/-!
DEFINITION. The memory ports (chapter 13): training, initialisation, the sidecar cache, failures and mirroring, and the map
commit's checks.
-/

namespace Sys2Proof.Machine

/-- PORT_STATE values and command results (13 Table 13.5). -/
abbrev psOFF : Nat := 0
abbrev psTRAINING : Nat := 1
abbrev psACTIVE : Nat := 2
abbrev psFAILED : Nat := 3
abbrev crSTATE : Nat := 0x23
abbrev crSIZE : Nat := 0x24
abbrev crFAILED : Nat := 0x25
abbrev crRUN : Nat := 0xFF

def State.setResult (s : State) (p v : Nat) : State := s.setEnt (portIdx p) 0x09 v

/-- The even port of a port's pair. -/
def evenPort (p : Nat) : Nat := p / 2 * 2

/-! ### Training (13 R298, R299) -/

/-- A port begins its own training: PERST# of its memory device is driven high (Table 13.2). -/
def State.beginTraining (s : State) (p : Nat) : State :=
  let s : State := { s with pins := { s.pins with mpPerst := s.pins.mpPerst ||| (1#16 <<< p) } }
  ((s.setEnt (portIdx p) 0x01 psTRAINING).setEnt (portIdx p) 0x02 0).updPort p (fun x => { x with trainWait := false })

/-- Whether some port trains. -/
def State.anyTraining (s : State) : Bool := (upTo nPorts).any (fun p => s.portState p == psTRAINING)

/-- TRAIN: accepted in OFF and FAILED; while another port trains it waits. -/
def doTrain (p : Nat) (s : State) : State :=
  if s.portState p != psOFF && s.portState p != psFAILED then s.setResult p crSTATE
  else
    let s := s.setResult p crRUN
    if s.anyTraining then s.updPort p (fun x => { x with trainWait := true }) else s.beginTraining p

/-- The next waiting TRAIN begins, the lowest port first. -/
def State.nextTraining (s : State) : State :=
  if s.anyTraining then s
  else match (upTo nPorts).find? (fun p => (s.port p).trainWait) with | some p => s.beginTraining p | none => s

/-- Bytes of a coded unit with its sidecar, and of its data (02 R34). -/
abbrev unitRaw : Nat := 2883584
abbrev unitData : Nat := 2 ^ 21

/-- 13 R298, in the order of Table 13.2: the link first, then the device. -/
def judgeTraining : TrainEnd → TrainEnd
  | .active cap lanes rate ser =>
    if lanes < 4 || rate < 32 then .link else if cap = 0 then .unsupported else .active cap lanes rate ser
  | x => x

/-- The outcome of a port's training, on its I/O chiplet as it is. -/
def State.portTraining (s : State) (p : Nat) (how : TrainEnd) : TrainEnd :=
  if maskBit s.isoIocs (p % 4) && how != .noDevice then .link else judgeTraining how

/-- PORT_TRAINING_END. On an isolated I/O chiplet no link trains (18 R428). -/
def doPortTrainingEnd (p : Nat) (how : TrainEnd) (s : State) : State :=
  if s.portState p != psTRAINING then s
  else
    let i := portIdx p
    let failed (r : Nat) : State := (((s.setEnt i 0x01 psFAILED).setEnt i 0x02 r).setResult p crFAILED).setEnt i 0x03 0
    let s := match s.portTraining p how with
      | .active cap lanes rate ser =>
        let r := min cap (2 ^ 40)
        let u := r / unitRaw
        ((((((((s.setEnt i 0x01 psACTIVE).setEnt i 0x02 0).setEnt i 0x03 (lanes % 256 * 256 + rate % 256)).setEnt i 0x04 r).setEnt i 0x05 u).setEnt i
          0x06 (u * unitData)).setEnt i 0x07 0).setEnt i 0x0B (leNat (ser.take 8))).setResult p 0 |>.updPort p (fun x => { x with sidecar := [], scOut := [], initRun := false })
      | .noDevice => failed 1
      | .unsupported => (failed 2).portReport p none 0
      | .link => (failed 3).portReport p none 0
    s.nextTraining

/-! ### Initialisation (13 R300, 02 R35) -/

/-- The last unit is done. -/
def State.initStep (s : State) (p : Nat) : State :=
  if s.ent (portIdx p) 0x07 ≥ s.ent (portIdx p) 0x05 then (s.updPort p (fun x => { x with initRun := false })).setResult p 0 else s

/-- INIT: of an ACTIVE port; ignored while it runs; it starts from unit 0. -/
def doInit (p : Nat) (s : State) : State :=
  if s.portState p != psACTIVE then s.setResult p crSTATE
  else if (s.port p).initRun then s
  else (((s.setEnt (portIdx p) 0x07 0).setResult p crRUN).updPort p (fun x => { x with initRun := true })).initStep p

/-- Whether a hayloft holds the line of a granule of a port (13 R310: it stays usable). -/
def State.keyHeld (s : State) (key : Nat) : Bool :=
  match s.pdaPA (key / 2 ^ 40) (key % 2 ^ 40 * 16) with | some pa => s.lineHeld (pa / 64) | none => false

/-- Every granule of a coded unit becomes RAW zero with VER 0 at the port; a line that a hayloft holds keeps its value there, and takes it back to
memory when it is written. -/
def State.zeroUnit (s : State) (p u : Nat) : State :=
  { s with mem := s.mem.filter (fun e => s.keyHeld e.1 || !(decide (mkey p (u * unitData) ≤ e.1) && decide (e.1 < mkey p ((u + 1) * unitData)))) }

/-- CODED_UNIT_INIT: the next unit is initialised and INIT_DONE advances. -/
def doCodedUnitInit (p : Nat) (s : State) : State :=
  if !(s.port p).initRun || s.portState p != psACTIVE then s
  else
    let u := s.ent (portIdx p) 0x07
    ((s.zeroUnit p u).setEnt (portIdx p) 0x07 (u + 1)).initStep p

/-! ### Leaving ACTIVE (13 R304, R309, R310) -/

/-- Whether a port belongs to a mirrored pair (13 R308). -/
def State.inPair (s : State) (p : Nat) : Bool := s.app (portIdx (evenPort p)) 0x16 == 1

/-- A pair loses one side; while it had already lost the other, no good copy is left. -/
def State.degrade (s : State) (p : Nat) : State :=
  let e := evenPort p
  if s.inPair p then
    let s := if (s.port e).badSide == 0 then s.updPort e (fun x => { x with badSide := if p == e then 1 else 2 }) else s
    s.setEnt (portIdx e) 0x18 2
  else s

/-- A port leaves ACTIVE: its units are no longer initialised, what ran on it ends. -/
def State.leaveActive (s : State) (p st reason : Nat) : State :=
  (((s.setEnt (portIdx p) 0x01 st).setEnt (portIdx p) 0x02 reason).setEnt (portIdx p) 0x07 0).updPort p
    (fun x => { x with initRun := false, sidecar := [], scOut := [], flushing := false, offAfter := false })

/-- A port fails: FAILED, its error line, and DEGRADED where it is one of a pair. -/
def State.failPort (s : State) (p reason : Nat) : State :=
  if s.portState p != psACTIVE && s.portState p != psTRAINING then s
  else
    let run := s.ent (portIdx p) 0x09 == crRUN
    let s := ((s.leaveActive p psFAILED reason).portReport p none 0).degrade p
    let s := if run then s.setResult p crFAILED else s
    let e := evenPort p
    let s := if s.ent (portIdx e) 0x09 == crRUN && s.ent (portIdx e) 0x18 == 2 && s.inPair p then s.setResult e crFAILED else s
    (s.setEnt (portIdx p) 0x03 0).nextTraining

/-- PORT_FAILURE: the CXL link went down. -/
def doPortFailure (p : Nat) (s : State) : State := s.failPort p 5

/-- PORT_TIMEOUT: a request stayed unanswered. -/
def doPortTimeout (p : Nat) (s : State) : State := if s.portState p == psACTIVE then s.failPort p 4 else s

/-! ### The sidecar cache (13 R304) -/

/-- A flush whose last write has been acknowledged, those of entries replaced before among them, ends; OFF then stops the port, and one of a pair that
is mapped counts as failed (13 R310). -/
def State.flushStep (s : State) (p : Nat) : State :=
  let x := s.port p
  if x.flushing && !x.sidecar.any (·.2.isSome) && x.scOut.isEmpty then
    if x.offAfter then
      let paired := s.inPair p && s.app (portIdx (evenPort p)) 0x10 == 1
      let s := (s.leaveActive p psOFF 0).setResult p 0
      if paired then s.degrade p else s
    else (s.updPort p (fun x => { x with flushing := false })).setResult p 0
  else s

/-- FLUSH. -/
def doFlush (p : Nat) (s : State) : State :=
  if s.portState p != psACTIVE then s.setResult p crSTATE
  else ((s.setResult p crRUN).updPort p (fun x => { x with flushing := true })).flushStep p

/-- OFF: a flush, then the port stops. A port that is not ACTIVE has nothing to flush. -/
def doOff (p : Nat) (s : State) : State :=
  if s.portState p == psTRAINING then s.setResult p crSTATE
  else if s.portState p != psACTIVE then ((s.setEnt (portIdx p) 0x01 psOFF).setEnt (portIdx p) 0x02 0).setResult p 0
  else ((s.setResult p crRUN).updPort p (fun x => { x with flushing := true, offAfter := true })).flushStep p

/-- Whether one of the six sidecar bytes of a granule lies in sidecar line `j` of its group (02 R34). -/
def inSidecarLine (j pda : Nat) : Bool := let a := sidecarAddr 0 pda % 192; a / 64 == j || (a + 5) / 64 == j

/-- The granules at port data addresses are marked poisoned at a port (13 R306); one whose line a hayloft holds has its value there. -/
def State.poisonAll (s : State) (p : Nat) (ds : List Nat) : State :=
  ds.foldl (fun s d => if s.keyHeld (mkey p d) then s else s.poisonAt p d false) s

/-- SIDECAR_FETCH: a miss fetches the group's three sidecar lines. The memory device returns those whose bit is set in `poison` with poison: every
granule with a sidecar byte in one is marked (13 R304, R306). -/
def doSidecarFetch (p g poison : Nat) (s : State) : State :=
  if s.portState p != psACTIVE || g * 512 ≥ s.ent (portIdx p) 0x06 || (s.port p).sidecar.any (fun e => e.1 == g) then s
  else
    (s.useSidecar p (512 * g) false).poisonAll p
      (((upTo 32).map (fun i => 512 * g + 16 * i)).filter (fun d => (upTo 3).any (fun j => nbit poison j && inSidecarLine j d)))

/-- LINE_READ (13 R305, R306, R308): a data line is read at its port, with poison where the memory device says so: every granule is decoded, corrected,
repaired from the partner or reported. -/
def doLineRead (line : Nat) (poison : Bool) (s : State) : State :=
  match s.locate (64 * line) with
  | none => s
  | some (p, pda) =>
    let q := (s.readPorts p pda).headD p
    if s.portState q != psACTIVE || s.lineHeld line then s
    else
      let s := (s.useSidecar q pda false).bump (portIdx q) 0x25 64 1
      let s := if poison then s.poisonAll q ((upTo 4).map (fun i => pda + 16 * i)) else s
      (upTo 4).foldl (fun s i => (s.readPA 0 (64 * line + 16 * i)).1) s

/-- WRITE_BACK_ACK: the home agent acknowledges a victim's write-back; one whose port cannot take it is discarded and reported
(10 R231, 13 R305, R307, R310). -/
def doWriteBackAck (shed line : Nat) (s : State) : State :=
  if !(s.shed shed).victims.contains line then s
  else (s.updShed shed (fun h => { h with victims := h.victims.erase line })).writeBack line

/-- S2M_NDR: the memory device acknowledges a sidecar group's write, that of a replaced entry before a flush's, or a data write, or reports that
it failed (13 R304, R307). -/
def doS2mNdr (p : Nat) (kind : NdrKind) (ok : Bool) (s : State) : State :=
  match kind with
  | .sidecar g =>
    let x := s.port p
    let told (s : State) (a : Nat) : State := (if ok then s else s.firstErr p a).flushStep p
    (match listFind (fun e : Nat × Nat => e.1 == g) x.scOut, x.sidecar.find? (fun e => e.1 == g) with
    | some i, _ => told (s.updPort p (fun x => { x with scOut := listDel x.scOut i })) ((listAt x.scOut i).elim 0 (·.2))
    | none, some (_, some a) =>
      if x.flushing then told (s.updPort p (fun x => { x with sidecar := x.sidecar.map (fun e => if e.1 = g then (g, none) else e) })) a else s
    | none, _ => s)
  | .dataWrite pda => if ok then s else s.firstErr p pda

/-- CXL_EVENT_RECORD: the port reads, counts and clears the device's event records (13 R307). -/
def doCxlEventRecord (p n : Nat) (s : State) : State := if s.portState p == psACTIVE then s.bump (portIdx p) 0x28 32 n else s

/-! ### Resynchronisation (13 R311) -/

/-- The side of a pair that holds the good copy, and its partner. -/
def State.survivor (s : State) (e : Nat) : Nat := if (s.port e).badSide == 1 then e + 1 else e
def State.partner (s : State) (e : Nat) : Nat := if (s.port e).badSide == 1 then e else e + 1

/-- Units a RESYNC copies. -/
def State.resyncUnits (s : State) (e : Nat) : Nat := min (s.ent (portIdx (s.survivor e)) 0x05) (s.ent (portIdx (s.partner e)) 0x05)

/-- The pair is whole again after the last unit. -/
def State.resyncStep (s : State) (e : Nat) : State :=
  if s.ent (portIdx e) 0x19 ≥ s.resyncUnits e then ((s.setEnt (portIdx e) 0x18 1).updPort e (fun x => { x with badSide := 0 })).setResult e 0 else s

/-- RESYNC, on an even port. -/
def doResync (p : Nat) (s : State) : State :=
  if p % 2 != 0 then s
  else if s.ent (portIdx p) 0x18 != 2 || s.portState (s.partner p) != psACTIVE then s.setResult p crSTATE
  else if s.ent (portIdx (s.partner p)) 0x06 < s.app (portIdx p) 0x12 then s.setResult p crSIZE
  else (((s.setEnt (portIdx p) 0x18 3).setEnt (portIdx p) 0x19 0).setResult p crRUN).resyncStep p

/-- Unit `u` of port `a`, data and sidecar, stands at port `b` in place of what stood there. -/
def State.copyUnit (s : State) (a b u : Nat) : State :=
  let unitOf (p key : Nat) : Bool := decide (mkey p (u * unitData) ≤ key) && decide (key < mkey p ((u + 1) * unitData))
  (s.mem.filter (fun e => unitOf a e.1)).foldl (fun s e => s.mset (b * 2 ^ 40 + e.1 % 2 ^ 40) e.2)
    { s with mem := s.mem.filter (fun e => !unitOf b e.1) }

/-- RESYNC_UNIT_COPIED: the next unit's data and sidecar stand at the partner. -/
def doResyncUnitCopied (p : Nat) (s : State) : State :=
  if s.ent (portIdx p) 0x18 != 3 then s
  else
    let u := s.ent (portIdx p) 0x19
    let a := s.survivor p
    let b := s.partner p
    let s1 := s.copyUnit a b u
    let ready := decide (u < s.ent (portIdx a) 0x07)
    let s2 := if ready then s1.setEnt (portIdx b) 0x07 (max (u + 1) (s1.ent (portIdx b) 0x07)) else s1
    (s2.setEnt (portIdx p) 0x19 (u + 1)).resyncStep p

/-! ### The map commit (13 R302, R303) -/

/-- The fields of the group, staged. -/
def State.mapSt (s : State) (p e : Nat) : Nat := s.ent (portIdx p) e

/-- A port's set: the enabled ports with the same base, size, ways and granule. -/
def State.mapSet (s : State) (p : Nat) : List Nat :=
  (upTo nPorts).filter (fun q => s.mapSt q 0x10 == 1 && s.mapSt q 0x11 == s.mapSt p 0x11 && s.mapSt q 0x12 == s.mapSt p 0x12 &&
    s.mapSt q 0x13 == s.mapSt p 0x13 && s.mapSt q 0x15 == s.mapSt p 0x15)

/-- The end of a port's set's range. -/
def State.mapTop (s : State) (p : Nat) : Nat := s.mapSt p 0x11 + s.mapSt p 0x13 * s.mapSt p 0x12

/-- D of a port, the smaller of a mirrored pair's. -/
def State.mapD (s : State) (p : Nat) : Nat :=
  if p % 2 == 0 && s.mapSt p 0x16 == 1 then min (s.ent (portIdx p) 0x06) (s.ent (portIdx (p + 1)) 0x06) else s.ent (portIdx p) 0x06

/-- 13 Table 13.3: the refusal of the staged map, 0 where it passes. -/
def State.mapCheck (s : State) : Nat :=
  let on := (upTo nPorts).filter (fun p => s.mapSt p 0x10 == 1)
  let setBad (p : Nat) : Bool :=
    let m := s.mapSet p
    m.length != s.mapSt p 0x13 || !(upTo (s.mapSt p 0x13)).all (fun i => m.any (fun q => s.mapSt q 0x14 == i)) ||
      (p % 2 == 1 && s.mapSt (p - 1) 0x16 == 1)
  let alignBad (p : Nat) : Bool := s.mapSt p 0x11 % 2 ^ 30 != 0 || s.mapSt p 0x12 % 2 ^ 21 != 0
  let sizeBad (p : Nat) : Bool := s.mapSt p 0x12 == 0 || decide (s.mapD p < s.mapSt p 0x12) || decide (2 ^ 46 < s.mapTop p)
  let clash (p q : Nat) : Bool :=
    !(s.mapSet p).contains q && decide (s.mapSt p 0x11 < s.mapTop q) && decide (s.mapSt q 0x11 < s.mapTop p)
  let stateBad (p : Nat) : Bool :=
    (s.mapSt p 0x10 == 1 && s.portState p != psACTIVE) ||
      (p % 2 == 0 && s.mapSt p 0x16 != s.app (portIdx p) 0x16 && s.app (portIdx p) 0x10 == 1) ||
      (p % 2 == 0 && s.mapSt p 0x16 == 1 && s.app (portIdx p) 0x16 != 1 &&
        (decide (s.ent (portIdx p) 0x07 < s.ent (portIdx p) 0x05) || decide (s.ent (portIdx (p + 1)) 0x07 < s.ent (portIdx (p + 1)) 0x05)))
  let busyBad (p : Nat) : Bool :=
    s.mapSt p 0x10 == 1 && s.app (portIdx p) 0x10 == 1 && [0x11, 0x12, 0x13, 0x14, 0x15].any (fun e => s.mapSt p e != s.app (portIdx p) e)
  if on.any setBad then 0x31
  else if on.any alignBad then 0x32
  else if on.any sizeBad then 0x33
  else if on.any (fun p => on.any (clash p)) then 0x34
  else if (upTo nPorts).any stateBad then 0x35
  else if (upTo nPorts).any busyBad then 0x36
  else 0

/-- The RWS entries of a port. -/
abbrev portRws : List Nat := [0x10, 0x11, 0x12, 0x13, 0x14, 0x15, 0x16]

/-- Every hayloft line that a port homes is invalidated as by a directory eviction (13 R303, 10 R229). -/
def State.dropHomed (s : State) (p : Nat) : State :=
  let homed (l : Nat) : Bool := s.homeOf l == some p
  (((s.sheds.flatMap (fun e => e.2.lines.map (·.1))).filter homed).dedup).foldl State.dropLine s

/-- The dirty entries of a port's sidecar cache are written back, their acknowledgements outstanding. -/
def Port.cleanSidecar (x : Port) : Port :=
  { x with sidecar := x.sidecar.map (fun e => (e.1, none)), scOut := x.scOut ++ x.sidecar.filterMap (fun e => e.2.map (fun a => (e.1, a))) }

/-- A map commit's quiescent point (13 R303, R308): the ports that leave the map are written back, every value applied, and the
mirrored pairs stand. -/
def State.applyMap (s : State) : State :=
  let off := (upTo nPorts).filter (fun p => s.app (portIdx p) 0x10 == 1 && s.ent (portIdx p) 0x10 == 0)
  let s := off.foldl (fun s p => (s.dropHomed p).updPort p Port.cleanSidecar) s
  let old := s
  let s := (upTo nPorts).foldl (fun s p => portRws.foldl (fun s e => s.setApp (portIdx p) e (s.ent (portIdx p) e)) s) s
  (upTo 8).foldl (fun s k =>
    let e := 2 * k
    if s.app (portIdx e) 0x16 = 1 ∧ old.app (portIdx e) 0x16 ≠ 1 then (s.setEnt (portIdx e) 0x18 1).updPort e (fun x => { x with badSide := 0 })
    else if s.app (portIdx e) 0x16 ≠ 1 ∧ old.app (portIdx e) 0x16 = 1 then (s.setEnt (portIdx e) 0x18 0).updPort e (fun x => { x with badSide := 0 })
    else s) s

end Sys2Proof.Machine
end

