-- ==== Sys2Proof/Machine/Wire.lean ====
section
/-!
DEFINITION. What the fabric carries, as bytes: flits with their header and CRC (14 R317, R318), packets (15 R348, R349) and the
sounding messages (14 Table 14.6).
-/

namespace Sys2Proof.Machine

/-! ### Codewords (14 R314, R315) -/

/-- The message bits of a data codeword: the header's 20, then each flit's bytes, least significant bit first. -/
def codewordBits (hdr : BitVec 20) (flits : List (List Byte)) : List Bool :=
  (upTo 20).map (fun i => hdr.getLsbD i) ++ flits.flatMap (fun f => f.flatMap (fun b => (upTo 8).map (fun i => b.getLsbD i)))

/-- The message symbols: ten bits each, the first the least significant. The 30 parity symbols behind them are those of IEEE 802.3 Clause 91, whose
generator the spec does not state. -/
def codewordSymbols (bits : List Bool) : Nat → List Nat
  | 0 => []
  | n + 1 => (bits.take 10).foldr (fun b v => b2n b + 2 * v) 0 :: codewordSymbols (bits.drop 10) n

/-- The active lane that carries symbol `n`. -/
def symbolLane (active : List Nat) (n : Nat) : Nat := (listAt active (n % active.length)).getD 0

/-! ### Flits -/

/-- One bit of the reflected CRC-32C. -/
def crc32cBit (c : BitVec 32) : BitVec 32 := (c >>> 1) ^^^ (if c.getLsbD 0 then 0x82F6_3B78#32 else 0)

/-- One byte of it. -/
def crc32cByte (c : BitVec 32) (b : Byte) : BitVec 32 :=
  let x := c ^^^ b.setWidth 32
  crc32cBit (crc32cBit (crc32cBit (crc32cBit (crc32cBit (crc32cBit (crc32cBit (crc32cBit x)))))))

/-- CRC-32C over bytes: reflected, from all ones, inverted at the end (14 R317). -/
def crc32c (bs : List Byte) : BitVec 32 := ~~~(bs.foldl crc32cByte 0xFFFF_FFFF#32)

/-- A list cut or filled with zeros to a length. -/
def padTo (n : Nat) (bs : List Byte) : List Byte := bs.take n ++ List.replicate (n - bs.length) 0

/-- Flit types (14 Table 14.4). -/
abbrev ftIDLE : Nat := 0
abbrev ftDATA : Nat := 1
abbrev ftSOUND : Nat := 2
abbrev ftRETRY : Nat := 3
abbrev ftRESUME : Nat := 4

/-- A flit of a packet: its type, channel, whether it is the first, and the payload bytes of the packet from here on. -/
def mkFlit (ft vc : Nat) (sop : Bool) (rest : List Byte) : List Byte :=
  let eop := decide (rest.length ≤ 122)
  let hdr := ft * 4096 + vc * 1024 + b2n sop * 512 + b2n eop * 256 + (if eop then rest.length * 2 else 0)
  let body := leBytes 2 hdr ++ padTo 122 rest
  body ++ leBytes 4 (crc32c body).toNat

/-- A RETRY or RESUME flit, with a sequence number in payload bytes 0 and 1 (14 R320). -/
def controlFlit (ft n : Nat) : List Byte :=
  let body := leBytes 2 (ft * 4096) ++ padTo 122 (leBytes 2 (n % 4096))
  body ++ leBytes 4 (crc32c body).toNat

/-- The flits of a packet's bytes, `n` at most. -/
def cutFlits (ft vc : Nat) : Nat → Bool → List Byte → List (List Byte)
  | 0, _, _ => []
  | n + 1, sop, bs => mkFlit ft vc sop bs :: (if bs.length ≤ 122 then [] else cutFlits ft vc n false (bs.drop 122))
def flitsOf (ft vc : Nat) (bs : List Byte) : List (List Byte) := cutFlits ft vc (bs.length / 122 + 1) true bs

/-- A received flit's header fields. -/
structure Flit where
  ft : Nat
  vc : Nat
  sop : Bool
  eop : Bool
  payload : List Byte
  deriving DecidableEq, Repr

/-- Whether a flit's CRC is right. -/
def flitCrcOk (bs : List Byte) : Bool := bs.length == 128 && (crc32c (bs.take 124)).toNat == leAt bs 124 4

/-- A flit that obeys Table 14.4 (14 R318); its payload is cut to VLEN. DESIGN CHOICE (log entry 122): the spec does not say whether a flit whose reserved
FHDR bit 0 is 1 obeys the table; the model treats it as one that does not, a flit error. -/
def readFlit (bs : List Byte) : Option Flit :=
  let h := leAt bs 0 2
  let ft := h / 4096
  let vc := h / 1024 % 4
  let eop := nbit h 8
  let len := h / 2 % 128
  if !flitCrcOk bs || decide (4 < ft) || (vc != 0 && ft != ftDATA) || nbit h 0 || (if eop then len == 0 || decide (122 < len) else len != 0) then none
  else some { ft := ft, vc := vc, sop := nbit h 9, eop := eop, payload := (bs.drop 2).take (if eop then len else 122) }

/-! ### Packets -/

/-- A coded granule's 24 bytes (15 R349). -/
def CG.bytes (c : CG) : List Byte :=
  leBytes 8 c.g.lo.val.toNat ++ leBytes 8 c.g.hi.val.toNat ++ [c.g.lo.tag, c.g.hi.tag] ++ leBytes 3 c.chk.toNat ++ [0, 0, 0]

/-- A coded granule at an offset of a packet. -/
def readCG (bs : List Byte) (o : Nat) : CG :=
  ⟨⟨⟨BitVec.ofNat 8 (leAt bs (o + 16) 1), w64 (leAt bs o 8)⟩, ⟨BitVec.ofNat 8 (leAt bs (o + 17) 1), w64 (leAt bs (o + 8) 8)⟩⟩,
   BitVec.ofNat 24 (leAt bs (o + 18) 3)⟩

/-- How many coded granules follow the header, and whether KEY and COUNT do (15 Table 15.3). -/
def pktCGs (pt : Nat) : Nat :=
  if pt == ptSTORE || pt == ptFADD || pt == ptFILL || pt == ptDATA then 1
  else if pt == ptCAS || pt == ptINVOKE then 2
  else if pt == ptLINE then 4
  else 0
def pktKeyed (pt : Nat) : Bool := pt == ptLIST || pt == ptDROP || pt == ptXACK

/-- The packet types of Table 15.3. -/
def pktTypes : List Nat :=
  [ptLOAD, ptSTORE, ptCAS, ptFADD, ptFILL, ptINVOKE, ptLIST, ptDROP, ptDATA, ptACK, ptLINE, ptREFUSE, ptRETRY, ptWAITING, ptXACK, ptTSREQ, ptTSRSP]

/-- A packet's bytes (15 Table 15.2). -/
def Pkt.bytes (p : Pkt) : List Byte :=
  [BitVec.ofNat 8 p.pt, BitVec.ofNat 8 (b2n p.xg + 2 * b2n p.nm + 4 * b2n p.esc + 8 * b2n p.resent)] ++ leBytes 2 p.age ++
    leBytes 2 p.dst ++ leBytes 2 p.src ++ leBytes 4 p.charter ++ leBytes 2 p.tag ++
    [BitVec.ofNat 8 p.tgen, BitVec.ofNat 8 (p.ver % 16 + 16 * b2n p.dev + 32 * b2n p.cap + 64 * b2n p.line + 128 * b2n p.list)] ++
    leBytes 6 p.addr ++ leBytes 2 p.issuer ++ leBytes 4 p.param ++ leBytes 2 p.agef ++ leBytes 2 p.vers ++
    p.cgs.flatMap CG.bytes ++ (if pktKeyed p.pt then leBytes 8 p.key ++ leBytes 4 p.count ++ leBytes 4 0 else []) ++ p.times.flatMap (leBytes 10)

/-- The packet that bytes hold; none for a reserved PT. -/
def readPkt (bs : List Byte) : Option Pkt :=
  let pt := leAt bs 0 1
  let fl := leAt bs 1 1
  let ox := leAt bs 15 1
  if !pktTypes.contains pt then none
  else some
    { pt := pt, xg := nbit fl 0, nm := nbit fl 1, esc := nbit fl 2, resent := nbit fl 3, age := leAt bs 2 2 % 1024, dst := leAt bs 4 2,
      src := leAt bs 6 2, charter := leAt bs 8 4, tag := leAt bs 12 2 % 32768, tgen := leAt bs 14 1, ver := ox % 16, dev := nbit ox 4,
      cap := nbit ox 5, line := nbit ox 6, list := nbit ox 7, addr := leAt bs 16 6, issuer := leAt bs 22 2 % 16384, param := leAt bs 24 4,
      agef := leAt bs 28 2 % 1024, vers := leAt bs 30 2, cgs := (upTo (pktCGs pt)).map (fun i => readCG bs (32 + 24 * i)),
      key := if pktKeyed pt then leAt bs 32 8 else 0, count := if pktKeyed pt then leAt bs 40 4 else 0,
      times := if pt == ptTSREQ || pt == ptTSRSP then [leAt bs 32 10, leAt bs 42 10, leAt bs 52 10] else [] }

/-- 15 R336: a request, by its type; its level; its channel. -/
def Pkt.isRequest (p : Pkt) : Bool := decide (p.pt < 0x80)
def Pkt.vc (p : Pkt) : Nat := (if p.isRequest then 0 else 2) + b2n p.xg

/-! ### Sounding messages (14 Table 14.6) -/

/-- A HELLO's bytes. -/
def helloMsg (flags link role node serial : Nat) : List Byte :=
  [1, BitVec.ofNat 8 flags, BitVec.ofNat 8 link, BitVec.ofNat 8 role] ++ leBytes 2 node ++ [1, 0] ++ leBytes 8 serial

/-- An LSA's bytes. -/
def lsaMsg (n : SNode) : List Byte :=
  [2, BitVec.ofNat 8 n.flags] ++ leBytes 2 n.seq ++ leBytes 2 n.node ++ [BitVec.ofNat 8 n.adj.length, 0] ++ leBytes 8 n.serial ++
    n.adj.flatMap (fun a => [BitVec.ofNat 8 (a.own % 16 + 16 * a.role), BitVec.ofNat 8 a.peerLink] ++ leBytes 8 a.peer)

/-- The node that an LSA tells of; none for a wrong length. -/
def readLsa (m : List Byte) : Option SNode :=
  let n := leAt m 6 1
  if m.length != 16 + 10 * n || decide (12 < n) then none
  else some
    { serial := leAt m 8 8, seq := leAt m 2 2, node := leAt m 4 2, flags := leAt m 1 1,
      adj := (upTo n).map (fun i => let o := 16 + 10 * i
        { own := leAt m o 1 % 16, role := leAt m o 1 / 16 % 2, peerLink := leAt m (o + 1) 1, peer := leAt m (o + 2) 8 }) }

/-- The ASSIGN messages of a list of serials and IDs, 48 entries each. -/
def assignMsgs (epoch master total : Nat) : Nat → Nat → List (Nat × Nat) → List (List Byte)
  | 0, _, _ => []
  | n + 1, first, l =>
    if l.isEmpty then []
    else
      let part := l.take 48
      ([3, 0] ++ leBytes 2 part.length ++ leBytes 4 epoch ++ leBytes 8 master ++ leBytes 4 first ++ leBytes 4 total ++
        part.flatMap (fun e => leBytes 8 e.1 ++ leBytes 2 e.2)) :: assignMsgs epoch master total n (first + part.length) (l.drop 48)

/-- A NODEDOWN's bytes. -/
def downMsg (reason node serial : Nat) : List Byte :=
  [4, BitVec.ofNat 8 reason] ++ leBytes 2 node ++ leBytes 4 0 ++ leBytes 8 serial

/-- Whether a message's MSG is defined and its length is the one its fields give (14 R326). -/
def soundOk (m : List Byte) : Bool :=
  match leAt m 0 1 with
  | 1 => m.length == 16
  | 2 => (readLsa m).isSome
  | 3 => let c := leAt m 2 2; decide (1 ≤ c) && decide (c ≤ 48) && m.length == 24 + 10 * c
  | 4 => m.length == 16
  | _ => false

end Sys2Proof.Machine
end

