-- ==== Sys2Proof/Machine/Sounding.lean ====
section
/-!
DEFINITION. Sounding (14 R326–R334) and the fabric tree (15 R339): the database, election, assignment, charts, and the sending of
flits on a link.
-/

namespace Sys2Proof.Machine

/-- Index of link k, and its states (14 Table 14.9). -/
abbrev lkIdx (k : Nat) : Nat := 0x5010 + k
abbrev lsDISABLED : Nat := 0
abbrev lsTRAINING : Nat := 1
abbrev lsUP : Nat := 2
abbrev lsDEGRADING : Nat := 3
abbrev lsDOWN : Nat := 4
abbrev lsMISMATCH : Nat := 5
def State.lkState (s : State) (k : Nat) : Nat := s.ent (lkIdx k) 0x03

/-! ### Sending on a link (14 R319–R322) -/

/-- A virtual channel of a link. -/
def Link.ch (l : Link) (v : Nat) : VChan := match v with | 0 => l.vc0 | 1 => l.vc1 | 2 => l.vc2 | _ => l.vc3
def Link.setCh (l : Link) (v : Nat) (c : VChan) : Link :=
  match v with | 0 => { l with vc0 := c } | 1 => { l with vc1 := c } | 2 => { l with vc2 := c } | _ => { l with vc3 := c }

/-- Send the flits of one packet: each takes a credit and a sequence number and enters the retry buffer. -/
def State.transmit (s : State) (k ft vc : Nat) (bytes : List Byte) (pkt : Option Pkt) : State :=
  let fl := flitsOf ft vc bytes
  let l := s.linkSt k
  let tx := (upTo fl.length).map (fun i =>
    ({ seq := (l.txSeq + i) % 4096, vc := vc, bytes := (listAt fl i).getD [], pkt := if i + 1 = fl.length then pkt else none } : TxFlit))
  let c := l.ch vc
  (s.setLink k ({ l with txSeq := (l.txSeq + fl.length) % 4096, retry := l.retry ++ tx }.setCh vc { c with credits := c.credits - fl.length })).bump
    (lkIdx k) 0x16 64 fl.length

/-- Whether a link takes `n` flits now: its retry buffer holds at most 1,024. -/
def Link.room (l : Link) (n : Nat) : Bool := decide (l.retry.length + n ≤ 1024)

/-- A SOUND packet starts only when the free VC0 credits less the reserve cover it; what must wait is kept in order. -/
def State.flushSounds (s : State) (k : Nat) : Nat → State
  | 0 => s
  | n + 1 =>
    let l := s.linkSt k
    match l.outSounds with
    | [] => s
    | m :: ms =>
      let need := (flitsOf ftSOUND 0 m).length
      if l.vc0.credits ≥ need + s.ent 0x5000 0x11 && l.room need then
        ((s.setLink k { l with outSounds := ms }).transmit k ftSOUND 0 m none).flushSounds k n
      else s

/-- Send a sounding message on a link whose partner is present. -/
def State.sendSound (s : State) (k : Nat) (m : List Byte) : State :=
  (s.updLink k (fun l => { l with outSounds := l.outSounds ++ [m] })).flushSounds k ((s.linkSt k).outSounds.length + 1)

/-- The links that are UP. -/
def State.upLinks (s : State) : List Nat := (upTo nLinks).filter (fun k => s.lkState k == lsUP)

/-- Flood a message on every UP link but one. -/
def State.flood (s : State) (but : Option Nat) (m : List Byte) : State :=
  (s.upLinks.filter (fun k => some k != but)).foldl (fun s k => s.sendSound k m) s

/-! ### The database (14 R327) -/

/-- The serial number of this part (17 Table 17.12). -/
def mySerial : Nat := Config.serial.toNat

/-- FLAGS of this node: ELIGIBLE, FIXED, HELD (14 R326). -/
def State.myFlags (s : State) : Nat := b2n (s.ent 0x5000 0x03 == 1) + 2 * b2n (s.ent 0x5000 0x02 != 0xFFFF) + 4 * b2n s.sound.held

/-- This node's own entry, as its links stand: one record for each UP link whose peer has said HELLO. -/
def State.ownNode (s : State) (seq : Nat) : SNode :=
  { serial := mySerial, seq := seq, node := if s.nodeId != 0xFFFF then s.nodeId else s.ent 0x5000 0x02, flags := s.myFlags,
    adj := (s.upLinks.filter (fun k => (s.linkSt k).greeted)).map (fun k =>
      { own := k, role := (s.linkSt k).role, peerLink := s.ent (lkIdx k) 0x09, peer := s.ent (lkIdx k) 0x08 }) }

/-- Nodes the database at SOUND_BUF has room for. -/
def State.dbRoom (s : State) : Nat := s.ent 0x5000 0x08 / 160

/-- Put a node into the database; none where it would overflow. -/
def State.storeNode (s : State) (n : SNode) : Option State :=
  let rest := s.sound.db.filter (fun x => x.serial != n.serial)
  if rest.length < s.dbRoom then
    some (({ s with sound := { s.sound with db := rest ++ [n] } } : State).setEnt 0x5000 0x0D (rest.length + 1))
  else none

/-- FAILED with reason BUFFER (14 R327). -/
def State.soundFail (s : State) : State := (s.setEnt 0x5000 0x05 6).setEnt 0x5000 0x06 5

/-- Sounding runs: neither IDLE nor FAILED. -/
def State.sounding (s : State) : Bool := s.ent 0x5000 0x05 != 0 && s.ent 0x5000 0x05 != 6

/-- A new LSA of this node, with SEQ one higher, on every UP link (14 R327). -/
def State.sendOwnLsa (s : State) : State :=
  if !s.sounding then s
  else
    let seq := (s.sound.ownSeq + 1) % 65536
    let n := s.ownNode seq
    match ({ s with sound := { s.sound with ownSeq := seq } } : State).storeNode n with
    | some s' => s'.flood none (lsaMsg n)
    | none => s.soundFail

/-! ### Graphs -/

/-- The assigned nodes of the database (14 R330): a FIXED node whose claim lost is none of them. -/
def State.assigned (s : State) : List SNode := s.sound.db.filter (fun n => n.node != 0xFFFF && !s.sound.lost.contains n.serial)

/-- The nodes of a list one of whose links, of a role the test admits, reaches a serial of another. -/
def reaching (ns : List SNode) (role : Nat → Bool) (to_ : List Nat) : List Nat :=
  (ns.filter (fun n => n.adj.any (fun a => role a.role && to_.contains a.peer))).map (·.serial)

/-- The fewest links from a serial to a set, by layers. -/
def distTo (ns : List SNode) (role : Nat → Bool) (x : Nat) : Nat → Nat → List Nat → List Nat → Option Nat
  | 0, _, _, _ => none
  | fuel + 1, d, layer, seen =>
    if layer.contains x then some d
    else if layer.isEmpty then none
    else
      let next := (reaching ns role layer).filter (fun y => !seen.contains y)
      distTo ns role x fuel (d + 1) next (seen ++ next)

/-- d(n, g) and dₗ(n, m) of 14 R331. -/
def State.groupDist (s : State) (x g : Nat) : Option Nat :=
  let t := (s.assigned.filter (fun n => n.node / 256 == g)).map (·.serial)
  distTo s.assigned (fun _ => true) x (s.assigned.length + 1) 0 t t
def State.memberDist (s : State) (x node : Nat) : Option Nat :=
  let t := (s.assigned.filter (fun n => n.node == node)).map (·.serial)
  distTo s.assigned (fun r => r == 0) x (s.assigned.length + 1) 0 t t

/-! ### Charts (14 R331–R334) -/

/-- The four charts: 0 staged group, 1 staged member, 2 applied group, 3 applied member. -/
def State.chart (s : State) (c i : Nat) : Nat := SMap.get (fun _ => 0) s.charts (c * 256 + i)
def State.setChart (s : State) (c i v : Nat) : State := { s with charts := SMap.set (fun _ => 0) s.charts (c * 256 + i) v }

/-- Fields of a chart entry (14 Table 14.7). -/
def chValid (e : Nat) : Bool := nbit e 31
def chNalt (e : Nat) : Nat := nbits e 30 28
def chAlt (e i : Nat) : Nat := e / 16 ^ i % 16
def chAlts (e : Nat) : List Nat := if chValid e then (upTo (chNalt e)).map (chAlt e) else []

/-- A chart entry from its alternatives, the first four kept; 0 where there is none. -/
def mkChart (alts : List Nat) (hops : Nat) : Nat :=
  let a := alts.take 4
  if a.isEmpty then 0
  else 2 ^ 31 + a.length * 2 ^ 28 + hops % 256 * 2 ^ 16 + (upTo a.length).foldl (fun n i => n + (listAt a i).getD 0 * 16 ^ i) 0

/-- The UP links with a known, assigned far node: link, role, far serial. -/
def State.farNodes (s : State) : List (Nat × Nat × Nat) :=
  ((s.upLinks.filter (fun k => (s.linkSt k).greeted)).map (fun k => (k, (s.linkSt k).role, s.ent (lkIdx k) 0x08))).filter
    (fun e => s.assigned.any (fun n => n.serial == e.2.2))

/-- The group chart's entry g. -/
def State.groupEntry (s : State) (g : Nat) : Nat :=
  match s.groupDist mySerial g with
  | some (d + 1) =>
    let ok := s.farNodes.filter (fun e => s.groupDist e.2.2 g == some d)
    mkChart ((ok.filter (fun e => e.2.1 == 1)).map (·.1) ++ (ok.filter (fun e => e.2.1 == 0)).map (·.1)) (d + 1)
  | _ => 0

/-- The member chart's entry m. -/
def State.memberEntry (s : State) (m : Nat) : Nat :=
  let node := s.nodeId / 256 * 256 + m
  match s.memberDist mySerial node with
  | some (d + 1) => mkChart ((s.farNodes.filter (fun e => e.2.1 == 0 && s.memberDist e.2.2 node == some d)).map (·.1)) (d + 1)
  | _ => 0

/-- Both applied charts take the staged ones. -/
def State.applyCharts (s : State) : State :=
  ((upTo 256).foldl (fun s i => (s.setChart 2 i (s.chart 0 i)).setChart 3 i (s.chart 1 i)) s).fabricEvent 8

/-- Build the charts and commit them. -/
def State.buildCharts (s : State) : State :=
  if s.nodeId = 0xFFFF then (((upTo 256).foldl (fun s i => (s.setChart 0 i 0).setChart 1 i 0) s).applyCharts).setEnt 0x5100 0x05 0
  else
    let g := s.nodeId / 256
    let m := s.nodeId % 256
    (((upTo 256).foldl (fun a i => (a.setChart 0 i (if i = g then 0 else s.groupEntry i)).setChart 1 i (if i = m then 0 else s.memberEntry i)) s).applyCharts).setEnt
      0x5100 0x05 0

/-- 14 R333: the refusal of the staged charts, 0 where they pass. -/
def State.chartCheck (s : State) (software : Bool) : Nat :=
  let bad (e : Nat) : Bool :=
    chValid e && (chNalt e == 0 || decide (4 < chNalt e) || (chAlts e).any (fun a => decide (11 < a)) || (chAlts e).dedup.length != chNalt e ||
      e % 65536 / 16 ^ chNalt e != 0 || nbits e 27 24 != 0)
  if (upTo 256).any (fun i => bad (s.chart 0 i) || bad (s.chart 1 i)) then 0x51
  else if s.nodeId != 0xFFFF && (chValid (s.chart 0 (s.nodeId / 256)) || chValid (s.chart 1 (s.nodeId % 256))) then 0x52
  else if software && (s.ent 0x5000 0x05 == 3 || s.ent 0x5000 0x05 == 4) then 0x53
  else 0

/-! ### The fabric tree (15 R339) -/

/-- A node's parent: its neighbour one link closer to the root with the lowest node ID, then over the lowest link number. -/
def State.treeParent (s : State) (root : Nat) (n : SNode) : Option (Nat × Nat × Nat) :=
  let fuel := s.assigned.length + 1
  let d (x : Nat) : Option Nat := distTo s.assigned (fun _ => true) x fuel 0 [root] [root]
  match d n.serial with
  | some (k + 1) =>
    let cands := n.adj.filterMap (fun a =>
      match s.assigned.find? (fun x => x.serial == a.peer) with
      | some p => if d a.peer = some k then some (p.node * 16 + a.own, n.serial, a.peer, a.own) else none
      | none => none)
    let best := cands.foldl (fun (b : Option (Nat × Nat × Nat × Nat)) c => match b with | none => some c | some x => if c.1 < x.1 then some c else some x) none
    best.map (fun x => (x.2.1, x.2.2.1, x.2.2.2))
  | _ => none

/-- Rebuild the tree, TREE_PARENT and TREE_DEPTH; a node that loses its parent holds its rate (15 R346). -/
def State.buildTree (s : State) : State :=
  let root := s.ent 0x5000 0x0B
  let tree := s.assigned.filterMap (s.treeParent root)
  let mine := tree.find? (fun e => e.1 == mySerial)
  let depth := (distTo s.assigned (fun _ => true) mySerial (s.assigned.length + 1) 0 [root] [root]).getD 0
  let s := { s with sound := { s.sound with tree := tree } }
  let lost := match mine with | none => decide (1 ≤ s.ent 0x5000 0x17) && decide (s.ent 0x5000 0x17 ≤ 2) && root != mySerial | some _ => false
  let s := (s.setEnt 0x5000 0x15 (match mine with | some e => e.2.2 | none => 0xFF)).setEnt 0x5000 0x16 depth
  if lost then ({ s with tsGood := 0 } : State).setEnt 0x5000 0x17 3 else s

/-- The chain of serials from a node up to the root. -/
def treeChain (tree : List (Nat × Nat × Nat)) : Nat → Nat → List (Nat × Nat)
  | 0, _ => []
  | n + 1, x => match tree.find? (fun e => e.1 == x) with | some e => (x, e.2.2) :: treeChain tree n e.2.1 | none => [(x, 0)]

/-- The tree link toward a destination: down to the child whose subtree holds it, else up to the parent. -/
def State.treeLink (s : State) (dst : Nat) : Option Nat :=
  match s.assigned.find? (fun n => n.node == dst) with
  | none => none
  | some n =>
    let ch := treeChain s.sound.tree (s.sound.db.length + 1) n.serial
    match ch.findIdx? (fun e => e.1 == mySerial) with
    | some (i + 1) =>
      (match listAt ch i with
      | some (c, cl) => s.upLinks.find? (fun k => s.ent (lkIdx k) 0x08 == c && s.ent (lkIdx k) 0x09 == cl)
      | none => none)
    | _ => let p := s.ent 0x5000 0x15; if p < nLinks && s.lkState p == lsUP then some p else none

/-! ### After a change -/

/-- A node that no chart reaches any more (15 R352). -/
def State.unreachable (s : State) (home : Nat) : Bool :=
  home != s.nodeId && (if home / 256 = s.nodeId / 256 then !chValid (s.chart 3 (home % 256)) else !chValid (s.chart 2 (home / 256)))

/-- Charts and tree are rebuilt while this node is assigned; slots aimed at what became unreachable are refused NODEDOWN. -/
def State.rebuild (s : State) (charts : Bool) : State :=
  if s.nodeId = 0xFFFF then s
  else
    let s1 := s.buildTree
    if charts then
      let s2 := s1.buildCharts
      s2.refuseNode (fun h => s2.unreachable h)
    else s1

/-- What follows a change of the database: charts where AUTO_CHART is 1, the tree always (14 R331, 15 R339). -/
def State.dbChanged (s : State) : State := if s.sounding then s.rebuild (s.ent 0x5000 0x0A == 1) else s

/-- This node's UP links or its NODE changed (14 R327). -/
def State.adjChanged (s : State) : State := (s.sendOwnLsa).dbChanged

/-! ### Assignment (14 R329) -/

/-- The component of a serial over LOCAL links, in rising serials. -/
def localComp (ns : List SNode) : Nat → List Nat → List Nat
  | 0, c => c
  | n + 1, c =>
    let grow := ns.filter (fun x => !c.contains x.serial &&
      (x.adj.any (fun a => a.role == 0 && c.contains a.peer) || ns.any (fun y => c.contains y.serial && y.adj.any (fun a => a.role == 0 && a.peer == x.serial))))
    if grow.isEmpty then c else localComp ns n (c ++ grow.map (·.serial))

/-- The least element of a list. -/
def minNat : List Nat → Option Nat
  | [] => none
  | x :: xs => match minNat xs with | none => some x | some m => some (min x m)

/-- A claim: kind (0 FIXED, 1 HELD, 2 kept by the master), serial, ID. -/
abbrev Claim := Nat × Nat × Nat
def claimBetter (a b : Claim) : Bool := decide (a.1 < b.1) || (a.1 == b.1 && decide (a.2.1 < b.2.1))
def bestClaim (l : List Claim) : Option Claim :=
  l.foldl (fun b c => match b with | none => some c | some x => if claimBetter c x then some c else some x) none

/-- A list in rising order of serials, `n` at most. -/
def sortNat : Nat → List Nat → List Nat
  | 0, _ => []
  | n + 1, l => match minNat l with | none => [] | some m => m :: sortNat n (l.filter (· != m))

/-- How assignment stands: IDs given, groups used, reasons of the nodes left unassigned. -/
structure Assigning where
  ids : List (Nat × Nat) := []
  groups : List Nat := []
  why : List (Nat × Nat) := []

/-- The ID assignment over the database: serials with IDs, and the reasons of the others. -/
def State.assignIds (s : State) : Assigning :=
  let ns := s.sound.db
  let claimOf (n : SNode) : Option Claim :=
    if nbit n.flags 1 && n.node != 0xFFFF then some (0, n.serial, n.node)
    else if nbit n.flags 2 && n.node != 0xFFFF then some (1, n.serial, n.node)
    else (s.sound.kept.find? (fun e => e.1 == n.serial)).map (fun e => (2, n.serial, e.2))
  let all := ns.filterMap claimOf
  let won := all.filter (fun c => !all.any (fun d => d.2.2 == c.2.2 && d.2.1 != c.2.1 && claimBetter d c))
  let serials := sortNat ns.length (ns.map (·.serial))
  let comps := serials.filterMap (fun x => let c := localComp ns ns.length [x]; if minNat c = some x then some c else none)
  let keep (c : List Nat) : List Claim :=
    let mine := won.filter (fun k => c.contains k.2.1)
    match bestClaim mine with | none => [] | some b => mine.filter (fun k => k.2.2 / 256 == b.2.2 / 256)
  let kept := comps.flatMap keep
  let absent := (s.sound.kept.filter (fun e => !ns.any (fun n => n.serial == e.1))).map (·.2)
  let lostFixed := (all.filter (fun c => c.1 == 0 && !kept.contains c)).map (fun c => (c.2.1, 2))
  let start : Assigning := { ids := kept.map (fun c => (c.2.1, c.2.2)), groups := (kept.map (fun c => c.2.2 / 256)).dedup, why := lostFixed }
  comps.foldl (fun a c =>
    let g? := match bestClaim (keep c) with
      | some b => some (b.2.2 / 256)
      | none => (upTo 256).find? (fun g => !a.groups.contains g)
    let rest := (sortNat c.length c).filter (fun x => !a.ids.any (fun e => e.1 == x) && !a.why.any (fun e => e.1 == x))
    match g? with
    | none => { a with why := a.why ++ rest.map (fun x => (x, 3)) }
    | some g =>
      rest.foldl (fun a x =>
        match (upTo (if g = 255 then 255 else 256)).find? (fun m => !a.ids.any (fun e => e.2 == g * 256 + m) && !absent.contains (g * 256 + m)) with
        | some m => { a with ids := a.ids ++ [(x, g * 256 + m)] }
        | none => { a with why := a.why ++ [(x, 4)] }) { a with groups := (a.groups ++ [g]).dedup }) start

/-- The ID an assignment gives a serial, 0xFFFF for none. -/
def idOf (ids : List (Nat × Nat)) (x : Nat) : Nat := match ids.find? (fun e => e.1 == x) with | some e => e.2 | none => 0xFFFF

/-- Apply an assignment: every node of the database takes its ID, this one too (14 R328); a FIXED node without one keeps its claim and is lost. -/
def State.applyIds (s : State) (epoch : Nat) (ids : List (Nat × Nat)) : State :=
  let mine : Nat := idOf ids mySerial
  let why : Nat := if mine == 0xFFFF then (match s.assignIds.why.find? (fun e => e.1 == mySerial) with | some e => e.2 | none => 0) else 0
  let out (n : SNode) : Bool := nbit n.flags 1 && idOf ids n.serial == 0xFFFF
  let db := s.sound.db.map (fun (n : SNode) => if out n then n else { n with node := idOf ids n.serial })
  let s : State := { s with sound := { s.sound with db := db, lost := (s.sound.db.filter out).map (·.serial), held := mine != 0xFFFF || s.sound.held, part := [], seen := max s.sound.seen epoch } }
  let changed := s.nodeId != mine
  let s := (((s.setEnt 0x5000 0x01 mine).setEnt 0x5000 0x0C epoch).setEnt 0x5000 0x06 why).setEnt 0x5000 0x05 5
  let s := if changed then s.sendOwnLsa else s
  s.dbChanged

/-! ### The commands -/

/-- START_SOUNDING: SOUND_CMD 1. -/
def doStartSounding (s : State) : State :=
  if s.ent 0x5000 0x08 = 0 then s
  else
    let s := (s.setEnt 0x5000 0x05 1).setEnt 0x5000 0x06 0
    (if s.dbRoom = 0 then s.soundFail else s.sendOwnLsa)

/-- REBUILD_CHARTS: SOUND_CMD 2. -/
def doRebuildCharts (s : State) : State := if s.sounding then s.rebuild true else s

/-- STOP_SOUNDING: SOUND_CMD 3; links stay up. -/
def doStopSounding (s : State) : State := s.setEnt 0x5000 0x05 0

/-- LSA_REFRESH: at least once every second. -/
def doLsaRefresh (s : State) : State := s.sendOwnLsa

/-- 16-bit serial-number order (14 R327). -/
def seqNewer (a b : Nat) : Bool := let d := (a + 65536 - b) % 65536; d != 0 && decide (d < 32768)

/-- A message leaves the sounding store to be acted on. -/
def State.takeSound (s : State) (k : Nat) (m : List Byte) : State := s.updLink k (fun l => { l with sounds := l.sounds.erase m })

/-- SOUND_BAD counts an ignored message. -/
def State.soundBad (s : State) : State := s.bump 0x5000 0x0E 32 1

/-- LSA: a newer one is stored and forwarded (14 R327); one of this device, sent before a reset, lifts the SEQ that its next one exceeds. -/
def doLsa (k : Nat) (m : List Byte) (s : State) : State :=
  let s := s.takeSound k m
  if leAt m 0 1 != 2 then s
  else
    match readLsa m with
    | none => s.soundBad
    | some n =>
      if !s.sounding then s
      else
        let old := s.sound.db.find? (fun x => x.serial == n.serial)
        let newer := match old with | none => true | some x => seqNewer n.seq x.seq
        if !newer then s
        else
          match s.storeNode n with
          | none => s.soundFail
          | some s' =>
            let s' : State := if n.serial = mySerial then { s' with sound := { s'.sound with ownSeq := n.seq } } else s'
            let same := match old with | some x => x.node == n.node && x.flags == n.flags && x.adj == n.adj | none => false
            let s1 := s'.flood (some k) m
            let s2 := (upTo nLinks).foldl (fun s j => if s.ent (lkIdx j) 0x08 = n.serial ∧ (s.linkSt j).greeted then s.setEnt (lkIdx j) 0x0A n.node else s) s1
            if same then s2 else (s2.setEnt 0x5000 0x05 (if s2.ent 0x5000 0x05 = 5 then 5 else 1)).dbChanged

/-- SOUND_QUIET: the master is the eligible node of lowest serial; if it is this one, it assigns and floods (14 R328). -/
def doSoundQuiet (s : State) : State :=
  if !s.sounding then s
  else
    match minNat ((s.sound.db.filter (fun n => nbit n.flags 0)).map (·.serial)) with
    | none =>
      let s := s.setEnt 0x5000 0x0B 0
      if s.ent 0x5000 0x02 != 0xFFFF then ((s.setEnt 0x5000 0x01 (s.ent 0x5000 0x02)).setEnt 0x5000 0x05 5).adjChanged
      else (s.setEnt 0x5000 0x05 2).setEnt 0x5000 0x06 1
    | some m =>
      let same := s.ent 0x5000 0x0B == m
      let s := s.setEnt 0x5000 0x0B m
      if m = mySerial then
        let a := s.assignIds
        let epoch := (max s.sound.seen (s.ent 0x5000 0x0C) + 1) % 2 ^ 32
        let gone := s.sound.kept.filter (fun e => !a.ids.any (fun x => x.1 == e.1))
        let s := { s with sound := { s.sound with kept := a.ids ++ gone } }
        let s := (assignMsgs epoch mySerial a.ids.length (a.ids.length + 1) 0 a.ids).foldl (fun s m => s.flood none m) s
        s.applyIds epoch a.ids
      else if same && s.ent 0x5000 0x05 == 5 then s
      else s.setEnt 0x5000 0x05 3

/-- ASSIGN: from the current master, with an EPOCH above the last applied: forwarded, and applied once all its parts are here. -/
def doAssign (k : Nat) (m : List Byte) (s : State) : State :=
  let s := s.takeSound k m
  if leAt m 0 1 != 3 then s
  else if !soundOk m then s.soundBad
  else
    let n := leAt m 2 2
    let epoch := leAt m 4 4
    let s := { s with sound := { s.sound with seen := max s.sound.seen epoch } }
    if !s.sounding || leAt m 8 8 != s.ent 0x5000 0x0B || decide (epoch ≤ s.ent 0x5000 0x0C) then s
    else
      let first := leAt m 16 4
      let total := leAt m 20 4
      let part := if s.sound.epoch = epoch then s.sound.part else []
      if part.any (fun e => e.1 == first) then s
      else
        let ids := part ++ (upTo n).map (fun i => (first + i, leAt m (24 + 10 * i) 8, leAt m (32 + 10 * i) 2))
        let s := ({ s with sound := { s.sound with epoch := epoch, part := ids } } : State).flood (some k) m
        if ids.length ≥ total then s.applyIds epoch (ids.map (fun e => (e.2.1, e.2.2))) else s

end Sys2Proof.Machine
end

