-- ==== Sys2Proof/Machine/Links.lean ====
section
/-!
DEFINITION. The fabric links (14 R313–R325): codewords, flits, retry, credits, lanes, link loss and training.
-/

namespace Sys2Proof.Machine

/-! ### Widths (14 R323) -/

/-- The widest of 4, 2 and 1 whose lanes are all good; 0 for none. -/
def bestWidth (good : BitVec 4) : Nat :=
  if good == 0xF then 4 else if good &&& 3 == 3 || good &&& 0xC == 0xC then 2 else if good != 0 then 1 else 0

/-- The width a direction takes: it never widens by itself; none below MIN_WIDTH. -/
def State.newWidth (s : State) (k : Nat) (old : Nat) (good : BitVec 4) : Option Nat :=
  let w := min old (bestWidth good)
  if w = 0 ∨ w < s.ent (lkIdx k) 0x06 then none else some w

/-- The lanes in use at a width (14 R323): lanes 0 and 1 where both are good, else 2 and 3; the lowest good lane for one. -/
def activeLanes (good : BitVec 4) (w : Nat) : List Nat :=
  if w = 4 then [0, 1, 2, 3]
  else if w = 2 then (if good &&& 3 == 3 then [0, 1] else [2, 3])
  else if w = 1 then ((upTo 4).filter (fun i => good.getLsbD i)).take 1
  else []

def State.txWidth (s : State) (k : Nat) : Nat := s.ent (lkIdx k) 0x04 % 16
def State.rxWidth (s : State) (k : Nat) : Nat := s.ent (lkIdx k) 0x04 / 16
def State.setWidths (s : State) (k tx rx : Nat) : State := s.setEnt (lkIdx k) 0x04 (tx + 16 * rx)

/-- The link's own report: CONTAINED, from its gate slot (18 Tables 18.1 and 18.5). -/
def State.linkReport (s : State) (k : Nat) : State := s.raise { bit := 32 + k, kind := .contained, source := 41 + k, master := 2 }

/-! ### DOWN (14 R324) -/

/-- Whether a link carries codewords. -/
def lkRuns (st : Nat) : Bool := st == lsUP || st == lsDEGRADING || st == lsMISMATCH

/-- A link stops carrying codewords and stands in state `st`: packets not wholly acknowledged go back to the compass, resent; parts received
are discarded; sounding learns of it. -/
def State.linkStop (s : State) (k st : Nat) : State :=
  if !lkRuns (s.lkState k) then s.setEnt (lkIdx k) 0x03 st
  else
    let l := s.linkSt k
    let back := l.retry.filterMap (fun f => f.pkt.map (fun p => ({ pkt := { p with resent := true }, since := s.time } : Transit)))
    let s := s.setLink k { txGood := l.txGood, rxGood := l.rxGood, role := l.role, sounds := l.sounds }
    let s := { s with compass := s.compass ++ back }
    (s.setEnt (lkIdx k) 0x03 st).adjChanged

/-- An enabled link goes DOWN: the entry is counted and is a fabric event (07 R159). A link that the watch isolates raises no report of its own
(18 Example 18.1). -/
def State.linkLost (s : State) (k : Nat) (told : Bool) : State :=
  if s.lkState k == lsDISABLED || s.lkState k == lsDOWN then s
  else
    let s := ((s.linkStop k lsDOWN).bump (lkIdx k) 0x15 32 1).fabricEvent 4
    if told then s.linkReport k else s
def State.linkDown (s : State) (k : Nat) : State := s.linkLost k true

/-! ### Retry (14 R319, R320) -/

/-- The transmitter sends RESUME and resends from its oldest flit: one more retry of it in a row, and DOWN at RETRY_LIMIT. -/
def State.resend (s : State) (k : Nat) : State :=
  let s := s.updLink k (fun l => { l with retries := l.retries + 1, control := controlFlit ftRESUME ((l.retry.map (·.seq)).headD l.txSeq) })
  if (s.linkSt k).retries ≥ s.ent (lkIdx k) 0x0C then s.linkDown k else s

/-- The header that the next data codeword carries (14 Table 14.1): the ACK of the last flit accepted in order, and up to 15 of the credits owed, of the
lowest channel that has any. -/
def Link.header (l : Link) : BitVec 20 :=
  let v := ([l.vc0, l.vc1, l.vc2, l.vc3].findIdx? (fun c => decide (0 < c.owed))).getD 0
  let n := match ([l.vc0, l.vc1, l.vc2, l.vc3].find? (fun c => decide (0 < c.owed))) with | some c => min 15 c.owed | none => 0
  BitVec.ofNat 20 ((l.rxSeq + 4095) % 4096 * 64 + v * 16 + n)

/-- The flits an ACK covers leave the retry buffer. -/
def Link.acked (l : Link) (ack : Nat) : Link :=
  match l.retry with
  | [] => l
  | f :: _ =>
    let n := (ack + 1 + 4096 - f.seq) % 4096
    if 1 ≤ n ∧ n ≤ l.retry.length then { l with retry := l.retry.drop n, retries := 0 } else l

/-- A flit error at the receiver: a RETRY is sent with the number expected, and sequenced flits are discarded until a RESUME. -/
def State.flitError (s : State) (k : Nat) : State :=
  if (s.linkSt k).discard then s
  else (s.updLink k (fun l => { l with discard := true, control := controlFlit ftRETRY l.rxSeq })).bump (lkIdx k) 0x13 64 1

/-- RETRY_TIMEOUT: ACK has not advanced while unacknowledged flits exist. -/
def doRetryTimeout (k : Nat) (s : State) : State :=
  if !lkRuns (s.lkState k) || (s.linkSt k).retry.isEmpty then s else s.resend k

/-! ### Codewords (14 R315–R318) -/

/-- A packet has wholly arrived on a link: it waits in its buffers for the compass (14 R322, 15 R336). A packet that crossed a
GLOBAL link is at level 1 from then on; a reserved PT is discarded and counted. -/
def State.pktArrived (s : State) (k vc n : Nat) (bytes : List Byte) : State :=
  match readPkt bytes with
  | none => (s.bump 0x5000 0x1E 64 1).updLink k (fun l => let c := l.ch vc; l.setCh vc { c with owed := c.owed + n })
  | some p =>
    let p := if (s.linkSt k).role = 1 then { p with xg := true } else p
    { s with compass := s.compass ++ [{ pkt := p, since := s.time, link := some k, vc := vc, flits := n }] }

/-- Whether the peer's HELLO has come on a link: acted on, or in the sounding store. -/
def Link.met (l : Link) : Bool := l.greeted || l.sounds.any (fun m => leAt m 0 1 == 1)

/-- One sequenced flit accepted in order. DESIGN CHOICE (log entry 126): a SOUND flit without SOP outside a packet, and a DATA flit before the peer's HELLO
or in MISMATCH, are flit errors. -/
def State.acceptFlit (s : State) (k : Nat) (f : Flit) : State :=
  let l := s.linkSt k
  let c := l.ch f.vc
  let sound := f.ft == ftSOUND
  let frameBad := if f.sop then c.part.isSome else c.part.isNone
  if frameBad || (!sound && (!l.met || s.lkState k == lsMISMATCH)) then s.flitError k
  else
    let all := c.part.getD [] ++ f.payload
    let owed := if sound then c.owed + 1 else c.owed
    let l := { l with rxSeq := (l.rxSeq + 1) % 4096 }.setCh f.vc { c with part := if f.eop then none else some all, owed := owed }
    let s := (s.setLink k l).bump (lkIdx k) 0x17 64 1
    if !f.eop then s
    else if sound then (if soundOk all then s.updLink k (fun l => { l with sounds := l.sounds ++ [all] }) else s.soundBad)
    else s.pktArrived k f.vc ((all.length + 121) / 122) all

/-- One received flit. -/
def State.rxFlit (s : State) (k : Nat) (bs : List Byte) : State :=
  let s := if flitCrcOk bs then s else s.bump (lkIdx k) 0x12 64 1
  match readFlit bs with
  | none => s.flitError k
  | some f =>
    let l := s.linkSt k
    let n := leAt f.payload 0 2 % 4096
    if f.ft == ftIDLE then s
    else if f.ft == ftRETRY then 
      (let s := s.updLink k (fun l => l.acked ((n + 4095) % 4096))
       if (s.linkSt k).retry.isEmpty then s.updLink k (fun l => { l with control := controlFlit ftRESUME n }) else s.resend k)
    else if f.ft == ftRESUME then
      (if n == l.rxSeq then s.updLink k (fun l => { l with discard := false }) else s.flitError k)
    else if l.discard then s
    else s.acceptFlit k f

/-- Credits that a codeword returns. -/
def Link.credit (l : Link) (v n : Nat) : Link := let c := l.ch v; l.setCh v { c with credits := min 256 (c.credits + n) }

/-- DATA_CODEWORD: an uncorrectable one, or one with a reserved CWT, is five flit errors; any other gives its ACK, its credits and
its flits. -/
def doDataCodeword (k : Nat) (fec : FecResult) (hdr : BitVec 20) (flits : List (List Byte)) (s : State) : State :=
  if !lkRuns (s.lkState k) then s
  else
    let h := hdr.toNat
    let cwt := h / 2 ^ 18
    if fec = .uncorrectable ∨ 2 ≤ cwt then (s.bump (lkIdx k) 0x11 64 1).flitError k
    else
      let s := if fec = .corrected then s.bump (lkIdx k) 0x10 64 1 else s
      if cwt = 1 then s
      else
        let s := s.updLink k (fun l => (l.acked (h / 64 % 4096)).credit (h / 16 % 4) (h % 16))
        let s := (flits.take 5).foldl (fun s f => if lkRuns (s.lkState k) then s.rxFlit k f else s) s
        if lkRuns (s.lkState k) then s.flushSounds k ((s.linkSt k).outSounds.length + 1) else s

/-- A direction whose good lanes went from `before` to `after` (14 R323): it takes the width they allow, and degrades where that or the lanes in use change;
DOWN where no width qualifies. -/
def State.narrow (s : State) (k : Nat) (tx : Bool) (before after : BitVec 4) : State :=
  let old := if tx then s.txWidth k else s.rxWidth k
  match s.newWidth k old after with
  | none => s.linkDown k
  | some w =>
    if w = old ∧ activeLanes before w = activeLanes after w then s
    else
      let s := if w = old then s else (s.setWidths k (if tx then w else s.txWidth k) (if tx then s.rxWidth k else w)).bump (lkIdx k) 0x14 32 1
      if s.lkState k == lsUP then (s.setEnt (lkIdx k) 0x03 lsDEGRADING).adjChanged else s

/-- ALIGNMENT_CODEWORD: the lanes the partner receives as good decide the transmit width; a link that was degrading is UP again
once an alignment codeword shows nothing new (14 R316, R323, Table 14.5). -/
def doAlignmentCodeword (k : Nat) (good : BitVec 4) (s : State) : State :=
  if !lkRuns (s.lkState k) then s
  else
    let l := s.linkSt k
    let g := l.txGood &&& good
    if g = l.txGood then (if s.lkState k == lsDEGRADING then (s.setEnt (lkIdx k) 0x03 lsUP).adjChanged else s)
    else (s.updLink k (fun l => { l with txGood := g })).narrow k true l.txGood g

/-- LANE_FAILURE: a receive lane fails; the direction degrades, or the link goes DOWN where no width is left. -/
def doLaneFailure (k lane : Nat) (s : State) : State :=
  if !lkRuns (s.lkState k) || lane ≥ 4 || !maskBit (s.linkSt k).rxGood lane then s
  else
    let g := maskClr (s.linkSt k).rxGood lane
    (((s.updLink k (fun l => { l with rxGood := g })).setEnt (lkIdx k) 0x05 g.toNat).linkReport k).narrow k false (s.linkSt k).rxGood g

/-! ### Training (14 R325) -/

/-- PMD training starts; LK_ROLE applies from here (14 Table 14.9). A link whose media strap reads 3 never trains and is DISABLED (20 R457).
An isolated link is back in service (18 R428). -/
def State.trainLink (s : State) (k : Nat) (full : Bool) : State :=
  let s : State := { s with isoLinks := maskClr s.isoLinks k }
  if Config.lkMedia k % 4 = 3 then s.setEnt (lkIdx k) 0x03 lsDISABLED
  else
    (s.setEnt (lkIdx k) 0x03 lsTRAINING).updLink k (fun l =>
      { l with role := s.ent (lkIdx k) 0x02, greeted := false, txGood := if full then 0xF else l.txGood, rxGood := if full then 0xF else l.rxGood })

/-- LK_RETRY_MS: an enabled link that is not UP or DEGRADING trains again; one that the watch isolated waits for LK_CMD (18 R428). -/
def doLkRetryMs (k : Nat) (s : State) : State :=
  if s.ent (lkIdx k) 0x01 != 1 || s.lkState k == lsUP || s.lkState k == lsDEGRADING || maskBit s.isoLinks k then s
  else (s.linkStop k lsTRAINING).trainLink k false

/-- LINK_UP: training succeeded: sequence numbers and credits start afresh, and HELLO is sent (14 R319, R321, R326).
No training succeeds on an isolated I/O chiplet (18 R428), or where the good lanes give less than MIN_WIDTH (R323). -/
def doLinkUp (k : Nat) (s : State) : State :=
  if s.lkState k != lsTRAINING || s.ent (lkIdx k) 0x01 != 1 || maskBit s.isoIocs (k % 4) || (s.newWidth k 4 (s.linkSt k).txGood).isNone ||
      (s.newWidth k 4 (s.linkSt k).rxGood).isNone then s
  else
    let l := s.linkSt k
    let wt := bestWidth l.txGood
    let wr := bestWidth l.rxGood
    let s := s.setLink k { txGood := l.txGood, rxGood := l.rxGood, role := l.role }
    let s := ((s.setEnt (lkIdx k) 0x03 lsUP).setWidths k wt wr).setEnt (lkIdx k) 0x05 l.rxGood.toNat
    s.sendSound k (helloMsg s.myFlags k l.role s.nodeId mySerial)

/-- LK_ENABLE: 1 trains and holds the link, 0 releases it. -/
def doLkEnable (k : Nat) (on : Bool) (s : State) : State :=
  if on then
    if s.ent (lkIdx k) 0x01 == 1 then s else (s.setEnt (lkIdx k) 0x01 1).trainLink k true
  else (s.linkStop k lsDISABLED).setEnt (lkIdx k) 0x01 0

/-- RETRAIN: LK_CMD 1, which does not take the link DOWN on its way. -/
def doRetrain (k : Nat) (s : State) : State := if s.ent (lkIdx k) 0x01 != 1 then s else (s.linkStop k lsTRAINING).trainLink k false

/-- RETRAIN_FULL_WIDTH: LK_CMD 3, which takes the link DOWN in the meantime. -/
def doRetrainFull (k : Nat) (s : State) : State := if s.ent (lkIdx k) 0x01 != 1 then s else (s.linkDown k).trainLink k true

/-- A NODEDOWN sent on one link that is UP and holds a VC0 credit (14 R324, R326). -/
def State.sendDown (s : State) (k reason : Nat) : State :=
  if s.lkState k == lsUP && decide (1 ≤ (s.linkSt k).vc0.credits) && (s.linkSt k).room 1 then
    s.transmit k ftSOUND 0 (downMsg reason s.nodeId mySerial) none
  else s

/-- TAKE_DOWN: LK_CMD 2. -/
def doTakeDown (k : Nat) (s : State) : State := if s.ent (lkIdx k) 0x01 != 1 then s else (s.sendDown k 3).linkDown k

/-! ### HELLO and NODEDOWN (14 R326) -/

/-- HELLO: the peer is recorded; differing roles or formats make a MISMATCH. -/
def doHello (k : Nat) (m : List Byte) (s : State) : State :=
  let s := s.takeSound k m
  if leAt m 0 1 != 1 then s
  else if m.length != 16 then s.soundBad
  else if !lkRuns (s.lkState k) then s
  else
    let i := lkIdx k
    let s := ((s.setEnt i 0x08 (leAt m 8 8)).setEnt i 0x09 (leAt m 2 1)).setEnt i 0x0A (leAt m 4 2)
    if leAt m 3 1 != (s.linkSt k).role || leAt m 6 1 != 1 then ((s.setEnt i 0x03 lsMISMATCH).linkReport k).adjChanged
    else (s.updLink k (fun l => { l with greeted := true })).adjChanged

/-- The relays of a key that a set of entries counts. -/
def relayCount (es : List XEntry) : Nat := es.foldl (fun n e => n + e.count) 0

/-- A berth's tables without a peer that is down: its export and relay entries go, and with a relay its HOLD (12 R288, R291). -/
def Berth.dropPeer (b : Berth) (me node : Nat) : Berth :=
  let gone := b.exports.filter (fun e => e.peer == node)
  { b with
    exports := b.exports.filter (fun e => e.peer != node)
    imports := b.imports.map (fun i =>
      { i with hold := i.hold - relayCount (gone.filter (fun e => e.home == i.home && e.gran == i.gran && e.home != me)) }) }

/-- What a compass does when it learns that a peer device is down (12 R291, 15 R352): its slots are refused, its export and relay
entries removed. -/
def State.peerDown (s : State) (node : Nat) : State :=
  let s := s.refuseNode (fun h => h == node)
  { s with berths := SMap.mapv (fun _ => {}) (fun _ b => b.dropPeer s.nodeId node) s.berths }

/-- NODEDOWN: its link goes DOWN; REASON 1 and 2 mean that the sender is down. -/
def doNodedown (k : Nat) (m : List Byte) (s : State) : State :=
  let s := s.takeSound k m
  if leAt m 0 1 != 4 then s
  else if m.length != 16 then s.soundBad
  else
    let s := (s.linkDown k).fabricEvent 32
    let r := leAt m 1 1
    if r = 1 ∨ r = 2 then
      let s := ({ s with sound := { s.sound with db := s.sound.db.filter (fun n => n.serial != leAt m 8 8) } } : State).peerDown (leAt m 2 2)
      (s.setEnt 0x5000 0x0D s.sound.db.length).dbChanged
    else s

end Sys2Proof.Machine
end

