-- ==== Sys2Proof/Machine/Remote.lean ====
section
/-!
DEFINITION. Remote operations at their home node (15 R354–R361, 12 R286–R292): the steps of Table 15.4, the answers, the references
that capabilities leave, and INVOKE's new context (15 R358, 16 R381).
-/

namespace Sys2Proof.Machine

/-! ### Answers -/

/-- R348: a response echoes CHARTER, TAG, TGEN, OPX, ADDR and ISSUER, and starts from age 0. -/
def State.respond (s : State) (p : Pkt) (pt param vers : Nat) (cgs : List CG) : State :=
  s.emit { pt := pt, dst := p.src, src := 0, charter := p.charter, tag := p.tag, tgen := p.tgen, ver := p.ver, dev := p.dev, cap := p.cap,
           line := p.line, list := p.list, addr := p.addr, issuer := p.issuer, param := param, vers := vers, cgs := cgs }

/-- A REFUSE with the exception's cause and subcode; of a FADD, the exceptions signalled or the tags read (15 R355, Table 15.2). -/
def State.refusePkt (s : State) (p : Pkt) (e : Exc) : State :=
  let s := s.bump 0x5000 0x1A 64 1
  let s := if e.cause = cREFUSED ∧ e.subcode = 0x08 then s.bump 0x5000 0x1B 64 1 else s
  s.respond p ptREFUSE (1 + e.cause % 256 * 2 ^ 8 + e.subcode % 256 * 2 ^ 16 + (if e.cause = cFPTRAP then e.info % 32 * 2 ^ 24 else 0))
    (if e.cause = cGENERIC then e.taga % 256 + e.tagb % 256 * 256 else 0) []

/-- A refusal reason of Table 15.5. -/
def reason (code : Nat) : Exc := { cause := cREFUSED, subcode := code }

/-- A granule as a response carries it: a capability names its home (03 R42). -/
def State.cgOut (s : State) (g : Gran) : CG := CG.of (s.capOut g)

/-- R349: what a coded granule from node `src` decodes to, or the subcode of its bus error (13 R306). The decode counts for the compass (18 R425), and an
uncorrectable one raises its error line (02 R33). -/
def State.decodeCG (s : State) (src : Nat) (c : CG) : State × Except Nat Gran :=
  let i := s.injected 44
  let d := rsDecode c.g (c.chk ^^^ i.2)
  let line (s : State) : State := s.raise { bit := 44, kind := .contained, source := src, access := 7, master := 3 }
  match d.1 with
  | .clean => (i.1, .ok d.2.1)
  | .corrected => (i.1.bump 0x6000 (0x80 + 44) 32 1, .ok d.2.1)
  | .poison => (line i.1, .error bePOISON)
  | .uncorrectable => (line i.1, .error beUNC)

/-- Decode every coded granule of a packet, as far as the first that is uncorrectable. -/
def State.decodeCGs (s : State) (src : Nat) : List CG → State × Except Nat (List Gran)
  | [] => (s, .ok [])
  | c :: cs =>
    match s.decodeCG src c with
    | (s, .error e) => (s, .error e)
    | (s, .ok g) => match s.decodeCGs src cs with | (s, .ok gs) => (s, .ok (g :: gs)) | (s, .error e) => (s, .error e)

/-! ### Reference listing (12 R288–R292) -/

/-- KEY of a capability (15 Table 15.3): its home and the granule index of its bounds' base. -/
def xkey (home gran : Nat) : Nat := home % 2 ^ 16 * 2 ^ 48 + gran % 2 ^ 44

/-- A LIST, DROP or XACK of a berth's charter. -/
def State.keyed (s : State) (pt dst charter home gran count : Nat) : State :=
  s.emit { pt := pt, dst := dst, src := 0, charter := charter, key := xkey home gran, count := count }

/-- R290: one capability that arrived for berth `b` from node `src`, as the packet carried it. -/
def State.importOne (s : State) (b src : Nat) (g : Gran) : State :=
  let c := Cap.ofGran g
  let ch := s.app (berthIdx b) 0x04
  let x := s.berth b
  let same (e : XEntry) : Bool := e.home == c.node && e.gran == c.base
  let fresh : XEntry := { home := c.node, gran := c.base, lo := c.base, hi := c.top }
  if !g.isCap then s
  else if c.node = s.nodeId then s.keyed ptXACK src ch c.node c.base 1
  else if c.node = src then
    if x.imports.any same then s.setBerth b { x with imports := x.imports.map (fun e => if same e then { e with count := e.count + 1 } else e) }
    else s.setBerth b { x with imports := x.imports ++ [{ fresh with count := 1 }] }
  else if x.imports.any same then s.keyed ptXACK src ch c.node c.base 1
  else (s.setBerth b { x with imports := x.imports ++ [{ fresh with pending := true, waitAck := some (src, ch) }] }).keyed ptLIST c.node ch c.node c.base 1

/-- The import entries that a list of granules would add. -/
def State.importsNeeded (s : State) (b : Nat) (gs : List Gran) : Nat :=
  let keys := (gs.filter (·.isCap)).map (fun g => ((Cap.ofGran g).node, (Cap.ofGran g).base))
  (keys.dedup.filter (fun k => k.1 != s.nodeId && !(s.berth b).imports.any (fun e => e.home == k.1 && e.gran == k.2))).length

/-- R290, R292: import every capability of a list; none where the table lacks room. -/
def State.importCaps (s : State) (b src : Nat) (gs : List Gran) : Option State :=
  if (s.berth b).imports.length + s.importsNeeded b gs ≤ s.xtabMax b ∨ s.importsNeeded b gs = 0 then
    some (gs.foldl (fun s g => s.importOne b src g) s)
  else none

/-- R292: an import refused after the home has counted the capability is undone by a DROP with COUNT 1. -/
def State.dropUncounted (s : State) (b src : Nat) (gs : List Gran) : State :=
  gs.foldl (fun s g =>
    let c := Cap.ofGran g
    if g.isCap && c.node == src && src != s.nodeId then s.keyed ptDROP src (s.app (berthIdx b) 0x04) c.node c.base 1 else s) s

/-- The export entry of a key and a peer, its COUNT changed by `f`; an entry of COUNT 0 goes. -/
def State.onExport (s : State) (b home gran peer : Nat) (f : Nat → Nat) : State :=
  s.updBerth b (fun x => { x with exports :=
    (x.exports.map (fun e => if e.home = home ∧ e.gran = gran ∧ e.peer = peer then { e with count := f e.count } else e)).filter (fun e => e.count != 0) })

/-- LIST (R290): the home counts the importer and answers with XACK. DEDUCED (log entry 124): the packet gives the key alone, so a new entry takes the
bounds that another entry of the key holds, else the one granule of the key; R292 refuses no LIST, so a full table takes the entry too. -/
def State.takeList (s : State) (p : Pkt) : State :=
  match s.charterBerth p.charter with
  | none => s
  | some b =>
    let gran := p.key % 2 ^ 44
    let home := p.key / 2 ^ 48
    let x := s.berth b
    let same := x.exports.filter (fun e => e.home == home && e.gran == gran)
    let lo := (same.map (·.lo)).foldl min gran
    let hi := (same.map (·.hi)).foldl max (gran + 1)
    let e : XEntry := { home := home, gran := gran, peer := p.src, count := p.count, lo := lo, hi := hi }
    let s := (s.countExport b home gran p.src lo hi p.count).getD (s.setBerth b { x with exports := x.exports ++ [e] })
    s.keyed ptXACK p.src p.charter home gran p.count

/-- DROP (R291): the home subtracts COUNT; a resent one is discarded and counted (15 R360). -/
def State.takeDrop (s : State) (p : Pkt) : State :=
  if p.resent then s.bump 0x5000 0x1E 64 1
  else
    match s.charterBerth p.charter with
    | none => s
    | some b => s.onExport b (p.key / 2 ^ 48) (p.key % 2 ^ 44) p.src (· - p.count)

/-- XACK: from the home of a pending import, the import is counted and its sender acknowledged; from a receiver, the relay entry goes and
HOLD falls (R290). -/
def State.takeXack (s : State) (p : Pkt) : State :=
  if p.resent then s.bump 0x5000 0x1E 64 1
  else
    match s.charterBerth p.charter with
    | none => s
    | some b =>
      let home := p.key / 2 ^ 48
      let gran := p.key % 2 ^ 44
      let x := s.berth b
      let mine (e : XEntry) : Bool := e.home == home && e.gran == gran
      match x.imports.find? (fun e => mine e && e.pending && p.src == home) with
      | some e =>
        let s := s.setBerth b { x with imports := x.imports.map (fun i =>
          if mine i then { i with count := i.count + p.count, pending := false, waitAck := none } else i) }
        (match e.waitAck with | some (n, ch) => s.keyed ptXACK n ch home gran 1 | none => s)
      | none =>
        if x.exports.any (fun e => mine e && e.peer == p.src) && home != s.nodeId then
          (s.onExport b home gran p.src (· - p.count)).updBerth b (fun y =>
            { y with imports := y.imports.map (fun i => if mine i then { i with hold := i.hold - p.count } else i) })
        else s

/-! ### The target (Table 15.4 steps 5 and 6) -/

/-- A target granule at the home: physical and berth-virtual address, the granule, whether a forward was followed. -/
structure Target where
  pa : Nat
  va : Nat
  m : MGran
  moved : Bool := false

/-- Step 5: translation in the bound berth through the compass translation cache. -/
def State.homeTranslate (s : State) (b va : Nat) : State × Except Exc Nat :=
  let t := s.translate .compass b va
  match t.2 with
  | .ok pa => (t.1, .ok pa)
  | .error f => (t.1, .error { cause := f.cause, subcode := f.subcode, info := f.level })

/-- A granule read with its check code, then the comparison of 03 R54. -/
def State.homeRead (s : State) (ver pa : Nat) : State × Except Exc MGran :=
  let r := s.readVia .compass 0 pa
  match r.2 with
  | .error e => (r.1, .error { cause := cBUS, subcode := e })
  | .ok m => (r.1, if verOk ver (some m.ver.toNat) then .ok m else .error { cause := cCAP, subcode := cfVERSION })

/-- Steps 5 and 6 for the granule that holds byte `addr`; a forwarding granule is followed (12 R284). -/
def State.homeTarget (s : State) (b ver addr : Nat) : State × Except Exc Target :=
  let va := addr / 16 * 16
  match s.homeTranslate b va with
  | (s, .error e) => (s, .error e)
  | (s, .ok pa) =>
    match s.homeRead ver pa with
    | (s, .error e) => (s, .error e)
    | (s, .ok m) =>
      if m.g.isFwd then
        let f := Cap.ofGran m.g
        let va2 := f.addr / 16 * 16
        match s.homeTranslate b va2 with
        | (s, .error e) => (s, .error e)
        | (s, .ok pa2) =>
          match s.homeRead f.ver pa2 with
          | (s, .error e) => (s, .error e)
          | (s, .ok m2) => (s, .ok ⟨pa2, va2, m2, true⟩)
      else (s, .ok ⟨pa, va, m, false⟩)

/-! ### The operations (step 7 to 9) -/

/-- A store that the home performs: a victim's write-back comes first, every hayloft's copy of the line goes, the line is written at its port, and the
word's waiters are filled (10 R229, R231, 05 R107). -/
def State.homeStore (s : State) (t : Target) (g : Gran) : State :=
  let line := t.pa / 64
  let s := (upTo nSheds).foldl (fun s h => s.settleVictim h line) s
  (((s.dropOthers nSheds line).writePA t.pa (t.m.setGran g)).writeBack line).fillWaiters t.pa t.m.g g

/-- How the home answers. -/
inductive Answer where
  | data (v : Gran) (flags : Nat)
  | line (gs : List MGran)
  | ack
  | waits
  | refuse (e : Exc)

/-- What kind of read a request that may wait makes (R355, R469). FADD carries RM and TE in PARAM (Table 15.2). -/
def Pkt.readKind (p : Pkt) (addend : TWord) : WaitKind :=
  if p.pt == ptFADD then .fadd addend (p.param % 8 * 2 ^ 12 + p.param / 8 % 32 * 2 ^ 5)
  else if p.list then .pair
  else if p.cap then .ldc
  else .ldw

/-- The physical address of the word that a request waits on. -/
def Pkt.wordPa (p : Pkt) (t : Target) : Nat := t.pa + (if (p.cap || p.list) || p.addr % 16 < 8 then 0 else 8)

/-- The granules of a target's line as LDC would return them (12 R284), each with its check code good; none where one is bad or holds a capability
without GLOBAL. -/
def State.homeLine (s : State) (b pa : Nat) : Nat → State × Option (List MGran)
  | 0 => (s, some [])
  | n + 1 =>
    let i := 3 - n
    match s.readPA 0 (pa / 64 * 64 + 16 * i) with
    | (s, .error _) => (s, none)
    | (s, .ok m) =>
      if m.g.isCap && !(Cap.ofGran m.g).has pGLOBAL then (s, none)
      else
        let x := s.rebased b m.g
        match x.1.homeLine b pa n with | (s, some gs) => (s, some (m.setGran x.2 :: gs)) | (s, none) => (s, none)

/-- LOAD (R355, R356, R469). A capability into the from-set is returned rebased, as LDC returns it. -/
def State.homeLoad (s : State) (p : Pkt) (b : Nat) (t : Target) : State × Answer :=
  let g := t.m.g
  let hi := decide (p.addr % 16 ≥ 8)
  let right := if g.isCap then nbit p.param 1 else nbit p.param 0
  if p.list && !right then (s, .refuse { cause := cCAP, subcode := cfPERM, info := if g.isCap then pLDC else pLD })
  else
    match (if p.list then readPair g else if p.cap then readGran g true else readWord g hi true) with
    | .bad sub => (s, .refuse { cause := cTAG, subcode := sub })
    | .wait => (s, .waits)
    | .value v =>
      let x := s.rebased b v
      let s := x.1
      let v := x.2
      if v.isCap && !(Cap.ofGran v).has pGLOBAL then (s, .refuse { cause := cCAP, subcode := cfLOCAL })
      else if p.line && !p.list && !t.moved then
        match s.homeLine b t.pa 4 with
        | (s, some gs) => (s, .line gs)
        | (s, none) => (s, .data v 0)
      else (s, .data v 0)

/-- The value of a STORE or FILL as it is written: a granule, or a word (05 R105, R111). -/
def Pkt.whole (p : Pkt) : Bool := p.cap || p.list
def plainGran (g : Gran) : Gran := if g.isCap then g else ⟨g.lo.noCap, g.hi.noCap⟩

/-- STORE, and FILL's write, with the barriers (R286). -/
def State.homeWrite (s : State) (p : Pkt) (b : Nat) (t : Target) (v : Gran) : State :=
  if p.cap && v.isCap then
    let r := s.storeBarrier b t.va t.m.g v false true
    r.1.homeStore t r.2
  else if p.whole then (s.wordBarrier b t.m.g).homeStore t (if p.cap then plainGran v else Gran.ofWord v.lo.noCap)
  else (s.wordBarrier b t.m.g).homeStore t (t.m.g.writeWord (decide (p.addr % 16 ≥ 8)) v.lo.noCap)

/-- FILL (05 R108). -/
def State.homeFill (s : State) (p : Pkt) (b : Nat) (t : Target) (v : Gran) : State × Answer :=
  let p : Pkt := { p with cap := p.cap && v.isCap }
  let w := t.m.g.word (!p.cap && decide (p.addr % 16 ≥ 8))
  if !p.cap && v.lo.isSync then (s, .refuse { cause := cTAG, subcode := 0x03 })
  else if !tagDefined w.tag then (s, .refuse { cause := cTAG, subcode := 0x01 })
  else if !w.isSync then (s, .refuse { cause := cTAG, subcode := 0x04 })
  else (s.homeWrite p b t v, .ack)

/-- CAS and CAS.C (05 R108). -/
def State.homeCas (s : State) (p : Pkt) (b : Nat) (t : Target) (exp new : Gran) : State × Answer :=
  let g := t.m.g
  let hi := decide (p.addr % 16 ≥ 8)
  match (if p.cap then readGran g false else readWord g hi false) with
  | .value old =>
    let x := s.rebased b old
    let s := x.1
    let out := x.2
    let same := if p.cap then out == exp else old.lo == exp.lo
    if out.isCap && !(Cap.ofGran out).has pGLOBAL then (s, .refuse { cause := cCAP, subcode := cfLOCAL })
    else (if same then s.homeWrite p b t new else if out = old then s else s.homeStore t out, .data out 0)
  | _ => (s, .refuse { cause := cTAG, subcode := 0x01 })

/-- FADD (06 R124): under the requester's RM and TE. -/
def State.homeFadd (s : State) (p : Pkt) (b : Nat) (t : Target) (x : TWord) : State × Answer :=
  let hi := decide (p.addr % 16 ≥ 8)
  match readWord t.m.g hi true with
  | .bad sub => (s, .refuse { cause := cTAG, subcode := sub })
  | .wait => (s, .waits)
  | .value old =>
    match gOp .add (p.readKind x).fstatus old.lo x with
    | .error e => (s, .refuse (opFail e old.lo.tag x.tag).exc)
    | .ok o => ((s.wordBarrier b t.m.g).homeStore t (t.m.g.writeWord hi o.w), .data old o.fflags)

/-- Whether an operand that a packet brings holds a word with a reserved tag where the request reads it (02 R22): both words of a granule, or
the low one of a word in slot form. -/
def Pkt.badOperand (p : Pkt) (x : Gran) : Bool := !tagDefined x.lo.tag || (p.cap && !tagDefined x.hi.tag)

/-- The operation of a request on its target, with the operands as they are on this node. -/
def State.homeOp (s : State) (p : Pkt) (b : Nat) (t : Target) (xs : List Gran) : State × Answer :=
  let x := xs.headD Gran.zero
  let y := (xs.drop 1).headD Gran.zero
  if xs.any p.badOperand then (s, .refuse { cause := cTAG, subcode := 0x01 })
  else if p.pt == ptLOAD then s.homeLoad p b t
  else if p.pt == ptSTORE then (s.homeWrite p b t x, .ack)
  else if p.pt == ptCAS then s.homeCas p b t x y
  else if p.pt == ptFADD then s.homeFadd p b t x.lo
  else s.homeFill p b t x

/-! ### INVOKE's new context (15 R358, 16 R381) -/

/-- The highest VER of the `n` granules from `va`; the fault of the first that cannot be reached. -/
def State.regionVer (s : State) (u : TlbUnit) (b : Nat) : Nat → Nat → Nat → State × Except Exc Nat
  | 0, _, m => (s, .ok m)
  | n + 1, va, m =>
    let t := s.translate u b va
    match t.2 with
    | .error f => (t.1, .error { cause := f.cause, subcode := f.subcode, info := f.level, faddr := faddrOf 0xFFFF va })
    | .ok pa =>
      match t.1.verAt pa with
      | none => (t.1, .error { cause := cBUS, subcode := if (t.1.locate pa).isNone then beNOTARGET else beUNC, faddr := faddrOf 0xFFFF va })
      | some v => State.regionVer t.1 u b n (va + 16) (max m v)

/-- Withdraw a region of the invoke pool for good. -/
def State.withdraw (s : State) (b i : Nat) : State := (s.updBerth b (fun x => { x with poolGone := x.poolGone ++ [i] })).bump (berthIdx b) 0x1A 32 1

/-- The lowest free region of `n` from number `i`, with its base and the highest VER in it. -/
def State.takeRegion (s : State) (u : TlbUnit) (b : Nat) : Nat → Nat → State × Except Exc (Nat × Nat × Nat)
  | 0, _ => (s, .error (reason 0x07))
  | n + 1, i =>
    let x := s.berth b
    let base := s.app (berthIdx b) 0x17 + 4096 * i
    if x.poolGone.contains i || x.pool.any (fun e => e.1 == i) then s.takeRegion u b n (i + 1)
    else if base + 4096 ≥ 2 ^ 48 then (s.withdraw b i).takeRegion u b n (i + 1)
    else
      match s.regionVer u b 256 base 0 with
      | (s, .error e) => (s, .error e)
      | (s, .ok v) => if v ≥ 13 then (s.withdraw b i).takeRegion u b n (i + 1) else (s, .ok (i, base, v))

/-- A capability register of a context, in its stall or in its frame. -/
def State.ctxReg (s : State) (cid sr : Nat) : Gran :=
  let frame : Gran := match srSlot sr with
    | some (off, _) => (match (s.frameAt (cidShed cid) cid off).2 with | .ok (_, m) => m.g | .error _ => Gran.zero)
    | none => Gran.zero
  match s.liveStall cid with
  | some k => if maskBit (s.stall k).inframe (32 + sr) then frame else (s.stall k).readSR 0 sr
  | none => frame

/-- 15 R358: the home side of INVOKE in berth `b`, which fails with the bus error where memory fails as the child is built (log entry 115): a context from a sealed ENTRY capability, with the argument in G1 and the caller's
node in G2. -/
def State.invokeHome (s : State) (u : TlbUnit) (b src : Nat) (entry arg : Gran) : State × Except Exc Unit :=
  let c := Cap.ofGran entry
  let capEx (sub info : Nat) : Exc := { cause := cCAP, subcode := sub, info := info, fcap := entry, faddr := faddrOf c.node c.addr }
  if !tagDefined entry.lo.tag || !tagDefined entry.hi.tag || !tagDefined arg.lo.tag || !tagDefined arg.hi.tag then
    (s, .error { cause := cTAG, subcode := 0x01 })
  else if !(entry.isCap && c.otype != 0 && c.kind == kENTRY) then (s, .error (capEx cfKIND 0))
  else if !c.has pINVOKE then (s, .error (capEx cfPERM pINVOKE))
  else if !c.has pEX then (s, .error (capEx cfPERM pEX))
  else
    match jumpTarget true true entry with
    | .error f => (s, .error f.exc)
    | .ok pcc =>
      match s.takeRegion u b (s.app (berthIdx b) 0x18) 0 with
      | (s, .error e) => (s, .error e)
      | (s, .ok (i, base, v)) =>
        let quota : Exc := { cause := cQUOTA, subcode := 0x02 }
        match (s.farShed b).bind s.freeRecord with
        | none => (s, .error quota)
        | some rn =>
          if s.recordsUse b ≥ s.ent (berthIdx b) 0x0B then (s, .error quota)
          else
            let tm := s.ent (berthIdx b) 0x19
            let ev := s.ent (berthIdx b) 0x14
            let reg (sr : Nat) : Gran := if s.living ev then s.ctxReg ev sr else Gran.zero
            let child : NewCtx :=
              { base := base, ver := v + 1, pcc := pcc,
                status := mkStatus (b * 2 ^ 14 + tm % 2 ^ 14) (s.app (berthIdx b) 0x05) 0 (nbit tm 16) (nbit tm 17),
                regs := [(1, arg), (2, Gran.ofWord (TWord.raw (w64 (src % 2 ^ 16))))], stackPerms := 0xDC4,
                entries := (upTo 8).map (fun n => reg (0x10 + n)), vbaseS := reg srVBASE_S,
                vbaseY := if b = 0 then reg srVBASE_Y else Gran.zero }
            let cid := mkCid (s.record rn).gen rn
            let q := s.create u rn child
            if q.2 then (q.1.updBerth b (fun x => { x with pool := x.pool ++ [(i, cid)] }), .ok ())
            else ((q.1.destroy cid).withdraw b i, .error { cause := cBUS, subcode := beUNC, faddr := faddrOf 0xFFFF base })

/-- INVOKE of a bundle on this node (15 R353). -/
def invokeLocal (s : State) (k : Nat) (entry arg : Gran) : State × Except Exc Unit :=
  s.invokeHome (.core (coreOf k)) (stBerth (s.stall k).status) s.nodeId entry arg

/-! ### Performing a request -/

/-- Answer DATA or LINE once the capabilities it carries are in the export table (R288), else EXPORT_FULL. -/
def State.sendData (s : State) (p : Pkt) (b : Nat) (v : Gran) (flags : Nat) : State :=
  match s.exportCaps b p.src [v] with
  | none => s.refusePkt p (reason 0x06)
  | some s => s.respond p ptDATA (flags % 32 * 2 ^ 24) 0 [s.cgOut v]
def State.sendLine (s : State) (p : Pkt) (b : Nat) (gs : List MGran) : State :=
  match s.exportCaps b p.src (gs.map (·.g)) with
  | none => s.refusePkt p (reason 0x06)
  | some s => s.respond p ptLINE 0 (gs.foldr (fun m v => m.ver.toNat + 16 * v) 0) (gs.map (fun m => s.cgOut m.g))

/-- Room in the export table for one granule sent to a peer. -/
def State.exportRoom (s : State) (b peer : Nat) (g : Gran) : Bool := (s.exportCap b peer g).isSome

/-- The answer of an operation as packets. The DATA of a CAS whose old value finds no export entry refuses the operation. -/
def State.answer (s0 s : State) (p : Pkt) (b : Nat) : Answer → State
  | .data v fl => if s.exportRoom b p.src v then s.sendData p b v fl else (s0.refusePkt p (reason 0x06))
  | .line gs => s.sendLine p b gs
  | .ack => s.respond p ptACK 0 0 []
  | .waits => s
  | .refuse e => s.refusePkt p e

/-- A waiting LOAD or FADD takes a waiter entry, or is answered RETRY (R355, 08 R181, R182). -/
def State.homeRegister (s : State) (p : Pkt) (t : Target) : State :=
  let pa := p.wordPa t
  match s.locate pa with
  | none => s
  | some (a, _) =>
    if (s.waiters.filter (fun w => w.agent == a)).length < waiterMax then
      let n := s.seqNo
      let s := ({ s with waiters := s.waiters ++ [{ agent := a, pa := pa, cid := 2 ^ 32, reg := 0, kind := .remote n, seqNo := n }],
                         homeWait := s.homeWait ++ [(n, p)], seqNo := n + 1 } : State).respond p ptWAITING 0 0 []
      let w := t.m.g.word (pa % 16 ≥ 8)
      let v := w.val.toNat
      let rn := v % 2 ^ 18
      if w.tag == tagFUTURE && nbits v 63 48 == s.nodeId && nbits v 31 18 != 0x3FFF && (s.record rn).gen == nbits v 31 18 &&
          (s.record rn).rstate == .ready then s.boost rn
      else s
    else s.respond p ptRETRY 0 0 []

/-- Steps 5 to 9 for a request of berth `b` whose coded granules are `gs`, as they came. -/
def State.performReq (s : State) (p : Pkt) (b : Nat) (gs : List Gran) : State :=
  match s.homeTarget b p.ver p.addr with
  | (s, .error e) => s.refusePkt p e
  | (s, .ok t) =>
    let xs := gs.map s.capIn
    if p.pt == ptINVOKE then
      match s.importCaps b p.src gs with
      | none => (s.refusePkt p (reason 0x05)).dropUncounted b p.src gs
      | some s1 =>
        match s1.invokeHome .compass b p.src (xs.headD Gran.zero) ((xs.drop 1).headD Gran.zero) with
        | (s2, .error e) => s2.refusePkt p e
        | (s2, .ok _) => s2.respond p ptACK 0 0 []
    else
      match s.homeOp p b t xs with
      | (s1, .refuse e) => (if p.pt == ptLOAD then s1 else s).refusePkt p e
      | (s1, .waits) => s1.homeRegister { p with cgs := gs.map CG.of } t
      | (_, a) =>
        match s.importCaps b p.src gs with
        | none => (s.refusePkt p (reason 0x05)).dropUncounted b p.src gs
        | some s1 => s.answer (s1.homeOp p b t xs).1 p b a

/-- The current age of a packet in microseconds (R342). -/
def Transit.age (t : Transit) (time : Nat) : Nat := min 1023 ((t.pkt.age * 1000 + t.pkt.agef + (time - t.since) * 10) / 1000)

/-- Step 3: the berth that serves a request. -/
def State.servingBerth (s : State) (t : Transit) : Except Exc Nat :=
  match s.charterBerth t.pkt.charter with
  | none => .error (reason 0x01)
  | some b =>
    let st := s.ent (berthIdx b) 0x01
    if st = 3 then (if t.late then .error (reason 0x02) else .ok b)
    else if st = 2 then .ok b
    else .error (reason 0x01)

/-- R354: perform a request that has arrived, through a gate to control space for DEV (none: the access waits). -/
def State.homeRequest (dev : State → Nat → Nat → Option Word64 → Option (State × Except Exc Word64)) (s : State) (t : Transit) : State :=
  let p := t.pkt
  let key (e : Nat × Nat × Nat × Nat) : Bool := e.1 == p.src && e.2.1 == p.tag && e.2.2.1 == p.tgen
  let rest (s : State) : State := { s with inbox := s.inbox.erase t }
  if t.age s.time ≥ 1023 then (rest s).refusePkt p (reason 0x08)
  else if p.resent then
    let s := rest s
    let s := if s.resent.length < 4096 then { s with resent := s.resent ++ [(p.src, p.tag, p.tgen, s.time)] } else s.bump 0x5000 0x1F 32 1
    s.refusePkt p (reason 0x08)
  else if s.resent.any key then { rest s with resent := s.resent.eraseP key }.bump 0x5000 0x1E 64 1
  else
    let who : Except Exc Nat := if p.dev && p.charter == 0 then .ok 0 else s.servingBerth t
    match who with
    | .error e => (rest s).refusePkt p e
    | .ok b =>
      match s.decodeCGs p.src p.cgs with
      | (s, .error e) => (rest s).refusePkt p { cause := cBUS, subcode := e }
      | (s1, .ok gs) =>
        if p.dev then
          if !(p.pt == ptLOAD || p.pt == ptSTORE) || p.cap then (rest s1).refusePkt p { cause := cBUS, subcode := beNOTARGET }
          else
            match dev s1 p.src p.addr (if p.pt == ptSTORE then some (gs.headD Gran.zero).lo.val else none) with
            | none => s
            | some (s2, .error e) => (rest s2).refusePkt p e
            | some (s2, .ok v) =>
              if p.pt == ptSTORE then (rest s2).respond p ptACK 0 0 [] else (rest s2).respond p ptDATA 0 0 [CG.of (Gran.ofWord (TWord.raw v))]
        else (rest s1).performReq p b gs

/-- A home node's next request, where it is of the type given: requests are performed in the order they were accepted. -/
def State.nextRequest (s : State) (pt : Nat) : Option Transit :=
  match s.inbox.find? (fun t => decide (1 ≤ t.pkt.pt) && decide (t.pkt.pt ≤ ptINVOKE)) with
  | some t => if t.pkt.pt = pt then some t else none
  | none => none

/-- LOAD, STORE, CAS, FADD, FILL and INVOKE at the home. -/
def homeWith (dev : State → Nat → Nat → Option Word64 → Option (State × Except Exc Word64)) (pt : Nat) (s : State) : State :=
  match s.nextRequest pt with
  | some t => s.homeRequest dev t
  | none => s

/-! ### Waiters filled (05 R107, 08 R181) -/

/-- A remote waiter whose word was filled: DATA follows, or for FADD the repeat's answer. A repeat that waits again keeps its entry. -/
def State.wakeRemote (s : State) (w : Waiter) (n : Nat) (g : Gran) : State :=
  match s.homeWait.find? (fun e => e.1 == n) with
  | none => { s with waiters := s.waiters.erase w }
  | some (_, p) =>
    let drop (s : State) : State := { s with waiters := s.waiters.erase w, homeWait := s.homeWait.filter (fun e => e.1 != n) }
    let b := (s.charterBerth p.charter).getD 0
    if p.pt == ptFADD then
      let x := (match p.cgs with | c :: _ => c.g | [] => Gran.zero).lo
      match s.readVia .compass b (w.pa / 16 * 16) with
      | (s, .error e) => (drop s).refusePkt p { cause := cBUS, subcode := e }
      | (s, .ok m) =>
        match s.homeFadd p b ⟨w.pa / 16 * 16, p.addr / 16 * 16, m, false⟩ x with
        | (s, .waits) => { s with waiters := s.waiters.map (fun y => if y = w then { y with got := none } else y) }
        | (s, .refuse e) => (drop s).refusePkt p e
        | (s1, a) => (drop s).answer (drop s1) p b a
    else
      let x := s.rebased b ((p.readKind ⟨0, 0⟩).result (decide (w.pa % 16 ≥ 8)) g)
      let s := x.1
      let v := x.2
      if v.isCap && !(Cap.ofGran v).has pGLOBAL then (drop s).refusePkt p { cause := cCAP, subcode := cfLOCAL }
      else (drop s).sendData p b v 0

/-- WAITER_WAKE: the index-th waiter of a home agent whose word was filled completes. -/
def doWaiterWake (agent index : Nat) (s : State) : State :=
  match listAt (s.waiters.filter (fun w => w.agent == agent && w.got.isSome)) index with
  | none => s
  | some w =>
    match w.kind, w.got with
    | .remote n, some g => s.wakeRemote w n g
    | _, some g => s.wakeLocal w g
    | _, none => s

/-- RESENT_ENTRY_EXPIRY: an entry of R360's table has lived for 1,024 µs. -/
def doResentEntryExpiry (index : Nat) (s : State) : State :=
  match listAt s.resent index with
  | some e => if e.2.2.2 + 102400 ≤ s.time then { s with resent := listDel s.resent index } else s
  | none => s

end Sys2Proof.Machine
end

