-- ==== Sys2Proof/Machine/Compass.lean ====
section
/-!
DEFINITION. The compass as the requesting node sees it, and its routing (15 R336–R353, R357): responses and their slots, injection,
routes, the time base's exchanges.
-/

namespace Sys2Proof.Machine

/-! ### Responses (R349–R352) -/

/-- The first packet of a type that has arrived. -/
def State.nextOf (s : State) (pt : Nat) : Option (Pkt × State) :=
  match s.inbox.find? (fun t => t.pkt.pt == pt) with
  | some t => some (t.pkt, { s with inbox := s.inbox.erase t })
  | none => none

/-- The live slot that a response's TAG and TGEN match. -/
def State.liveSlot (s : State) (p : Pkt) : Option Slot :=
  match s.slot p.tag with
  | some x => if x.pkt.tgen = p.tgen ∧ (x.st = .sent ∨ x.st = .exempt) then some x else none
  | none => none

/-- Release a slot with a granule for its register. -/
def State.slotGives (s : State) (n : Nat) (x : Slot) (v : Gran) : State :=
  let s := s.setSlot n none
  match x.reg with
  | some r => if r = 0 then s else s.deliverReg x.cid r v none
  | none => s

/-- A capability that a response carries needs an import entry (R290, R292); the operation is refused where there is none. -/
def State.slotImports (s : State) (p : Pkt) (x : Slot) (gs : List Gran) : Except State State :=
  match s.importCaps x.berth p.src gs with
  | some s => .ok s
  | none => .error ((s.dropUncounted x.berth p.src gs).refuseSlot p.tag (reason 0x05))

/-- A register slot from a DATA response: a capability, or for CAP zero, for anything else the low word (02 R24; 15 R469). -/
def Slot.value (x : Slot) (g : Gran) : Gran :=
  if (x.pkt.list || x.pkt.cap) && g.isCap then g else if x.pkt.cap then Gran.zero else Gran.ofWord g.lo.noCap

/-- Whether what a DATA response brings holds a word with a reserved tag that the operation reads (02 R22). -/
def Slot.badValue (x : Slot) (g : Gran) : Bool := !tagDefined g.lo.tag || (x.pkt.cap && !tagDefined g.hi.tag)

/-- DATA: the result is delivered; of FADD the flags are ORed into FSTATUS (06 R124). -/
def doData (s : State) : State :=
  match s.nextOf ptDATA with
  | none => s
  | some (p, s) =>
    match s.liveSlot p with
    | none => s
    | some x =>
      match s.decodeCGs p.src (p.cgs.take 1) with
      | (s, .error e) => s.refuseSlot p.tag { cause := cBUS, subcode := e }
      | (s, .ok gs) =>
        if gs.any x.badValue then s.refuseSlot p.tag { cause := cTAG, subcode := 0x01 }
        else
        match s.slotImports p x gs with
        | .error s => s
        | .ok s =>
          let s := s.slotGives p.tag x (x.value (s.capIn (gs.headD Gran.zero)))
          if x.pkt.pt = ptFADD then s.orFstatus x.cid (nbits p.param 28 24) else s

/-- 10 R233: the line of a LINE response is kept as an immutable copy, in a way that the issuer's berth may fill; a TTL of 0 makes no copies
(Table 10.5). -/
def State.keepCopy (s : State) (x : Slot) (p : Pkt) (gs : List Gran) : State :=
  let vline := x.pkt.addr / 64
  match (if (s.shed x.shed).immutTtl = 0 then none else s.fillWay x.shed x.berth (haySet vline)) with
  | none => s
  | some w =>
    let h := (s.shed x.shed).makeRoom (haySet vline) w
    let c : ImmutCopy := { node := x.home, charter := x.pkt.charter, vline := vline, grans := gs, vers := (upTo 4).map (fun i => p.vers / 16 ^ i % 16),
                           made := s.time, berth := x.berth, way := w }
    let old (y : ImmutCopy) : Bool := y.node == c.node && y.charter == c.charter && y.vline == c.vline
    { s.setShed x.shed { h with copies := h.copies.filter (fun y => !old y) ++ [c] } with fresh := s.fresh + 1 }

/-- LINE: the word or granule asked for is delivered, and the line is kept. -/
def doLine (s : State) : State :=
  match s.nextOf ptLINE with
  | none => s
  | some (p, s) =>
    match s.liveSlot p with
    | none => s
    | some x =>
      let i := x.pkt.addr / 16 % 4
      match s.decodeCGs p.src p.cgs with
      | (s, .error e) => s.refuseSlot p.tag { cause := cBUS, subcode := e }
      | (s, .ok gs) =>
        match s.slotImports p x gs with
        | .error s => s
        | .ok s =>
          let gs := gs.map s.capIn
          let s := if x.pkt.line then s.keepCopy x p gs else s
          let g := (listAt gs i).getD Gran.zero
          match (if x.pkt.cap then readGran g false else readWord g (x.pkt.addr % 16 ≥ 8) false) with
          | .value v => s.slotGives p.tag x v
          | .bad sub => s.refuseSlot p.tag { cause := cTAG, subcode := sub }
          | .wait => s

/-- ACK: the slot is released. FILL's register, which its bundle has read and not written, takes its own value again. -/
def doAck (s : State) : State :=
  match s.nextOf ptACK with
  | none => s
  | some (p, s) =>
    match s.liveSlot p with
    | none => s
    | some x => s.slotGives p.tag x (match x.pkt.cgs with | c :: _ => x.value (s.capIn c.g) | [] => Gran.zero)

/-- The exception that a REFUSE stands for (07 R151): a reserved cause is REMOTE_REFUSED UNCERTAIN. -/
def Pkt.refusal (p : Pkt) : Exc :=
  let cause := nbits p.param 15 8
  if (18 ≤ cause ∧ cause ≤ 23) ∨ (27 ≤ cause ∧ cause ≤ 31) ∨ (33 ≤ cause ∧ cause ≤ 39) ∨ 44 ≤ cause then reason 0x08
  else if cause = cFPTRAP then { cause := cause, subcode := nbits p.param 23 16, info := nbits p.param 28 24 }
  else if cause = cGENERIC then { cause := cause, subcode := nbits p.param 23 16, taga := p.vers % 256, tagb := p.vers / 256 % 256 }
  else { cause := cause, subcode := nbits p.param 23 16 }

/-- REFUSE: a refused register, or a late store error. -/
def doRefuse (s : State) : State :=
  match s.nextOf ptREFUSE with
  | none => s
  | some (p, s) => if (s.liveSlot p).isSome then s.refuseSlot p.tag p.refusal else s

/-- RETRY: the slot waits in WCOND POLL and is sent again (R352, 08 R181). -/
def doRetry (s : State) : State :=
  match s.nextOf ptRETRY with
  | none => s
  | some (p, s) =>
    match s.liveSlot p with
    | none => s
    | some x => s.setSlot p.tag (some { x with st := .poll, tick := s.time })

/-- WAITING: the slot is exempt from REMOTE_TIMEOUT from now on. -/
def doWaiting (s : State) : State :=
  match s.nextOf ptWAITING with
  | none => s
  | some (p, s) =>
    match s.liveSlot p with
    | none => s
    | some x => s.setSlot p.tag (some { x with st := .exempt })

/-- LIST, DROP and XACK, the reference-listing messages. -/
def doList (s : State) : State := match s.nextOf ptLIST with | some (p, s) => s.takeList p | none => s
def doDrop (s : State) : State := match s.nextOf ptDROP with | some (p, s) => s.takeDrop p | none => s
def doXack (s : State) : State := match s.nextOf ptXACK with | some (p, s) => s.takeXack p | none => s

/-- REMOTE_TIMEOUT: a slot sent REMOTE_TIMEOUT ms ago with no response and no WAITING is refused UNCERTAIN. -/
def doRemoteTimeout (n : Nat) (s : State) : State :=
  match s.slot n with
  | some x => if x.st = .sent ∧ x.tick + s.ent 0x5000 0x13 * 100000 ≤ s.time then s.refuseSlot n (reason 0x08) else s
  | none => s

/-! ### Injection (R350, R351, 16 R372) -/

/-- Whether a slot may be sent: its context has nothing in flight to that node, and no earlier operation waits for it. -/
def State.sendable (s : State) (n : Nat) (x : Slot) : Bool :=
  x.st == .unsent && !s.slots.any (fun e => match e.2 with
    | some y => e.1 != n && y.cid == x.cid && y.home == x.home && (y.st != .unsent || decide (y.seqNo < x.seqNo))
    | none => false)

/-- The oldest sendable slot of a berth. -/
def State.oldestSlot (s : State) (b : Nat) : Option (Nat × Slot) :=
  s.slots.foldl (fun best e =>
    match e.2 with
    | some x =>
      if x.berth == b && s.sendable e.1 x then
        (match best with | none => some (e.1, x) | some (m, y) => if x.seqNo < y.seqNo then some (e.1, x) else some (m, y))
      else best
    | none => best) none

/-- Weighted round-robin among the berths with a request to inject (16 R372): the berth under way while its share lasts, then the next
in number; a berth of share 0 only where no other waits. -/
def State.injectBerth (s : State) : Option (Nat × Nat) :=
  let share (b : Nat) : Nat := s.ent (berthIdx b) 0x0E
  let ready := (upTo nBerths).filter (fun b => (s.oldestSlot b).isSome)
  let paid := ready.filter (fun b => share b != 0)
  let from_ := if paid.isEmpty then ready else paid
  if s.injLeft > 0 && from_.contains s.injBerth then some (s.injBerth, s.injLeft - 1)
  else
    match from_.find? (fun b => decide (s.injBerth < b)) with
    | some b => some (b, share b - 1)
    | none => match from_ with | b :: _ => some (b, share b - 1) | [] => none

/-- REQUEST_INJECTION: the next request enters the compass; each new send advances TGEN (R350). -/
def doRequestInjection (s : State) : State :=
  match s.injectBerth with
  | none => s
  | some (b, left) =>
    match s.oldestSlot b with
    | none => s
    | some (n, x) =>
      let tg := (SMap.get (fun _ => 0) s.tgens n + 1) % 256
      let p := { x.pkt with tgen := tg }
      let s : State := { s with tgens := SMap.set (fun _ => 0) s.tgens n tg, injBerth := b, injLeft := left }
      (s.setSlot n (some { x with st := .sent, tick := s.time, pkt := p })).emit p

/-! ### Routing (R338–R342) -/

/-- The chart entry of a destination: the group chart's, or within the group the member chart's. -/
def State.entryFor (s : State) (dst : Nat) : Nat := if dst / 256 = s.nodeId / 256 then s.chart 3 (dst % 256) else s.chart 2 (dst / 256)

/-- The alternatives that 14 R334 leaves: links that are UP and whose peer has said HELLO. -/
def State.routes (s : State) (dst : Nat) : List Nat := (chAlts (s.entryFor dst)).filter (fun k => s.lkState k == lsUP && (s.linkSt k).greeted)

/-- The flits of a packet, its channel's free credits on a link, and whether a link may take it with so many in reserve. -/
def Pkt.flits (p : Pkt) : Nat := (p.bytes.length + 121) / 122
def State.freeOn (s : State) (k : Nat) (p : Pkt) : Nat := ((s.linkSt k).ch p.vc).credits
def State.takes (s : State) (k : Nat) (p : Pkt) (reserve : Nat) : Bool :=
  decide (reserve < s.freeOn k p) && decide (p.flits ≤ s.freeOn k p) && (s.linkSt k).room p.flits

/-- Step 1: the usable alternative with the most free credits, the lowest ALT index on a tie. -/
def State.minimalRoute (s : State) (p : Pkt) : Option Nat :=
  ((s.routes p.dst).filter (fun k => s.takes k p (s.ent 0x5000 0x11))).foldl (fun best k =>
    match best with | none => some k | some j => if s.freeOn j p < s.freeOn k p then some k else some j) none

/-- Flits queued on a channel of a link: those not acknowledged yet. -/
def State.queuedOn (s : State) (k vc : Nat) : Nat := ((s.linkSt k).retry.filter (fun f => f.vc == vc)).length

/-- Step 2: the lowest UP GLOBAL link to a group that is not the destination's. -/
def State.detour (s : State) (p : Pkt) : Option Nat :=
  let th := s.ent 0x5000 0x10
  let alts := s.routes p.dst
  if th = 0 || p.nm || alts.isEmpty || !alts.all (fun k => decide (th ≤ s.queuedOn k p.vc)) then none
  else
    (upTo nLinks).find? (fun k => s.lkState k == lsUP && (s.linkSt k).greeted && (s.linkSt k).role == 1 && s.farNodes.any (fun e => e.1 == k) &&
      s.ent (lkIdx k) 0x0A / 256 != p.dst / 256 &&
      s.takes k p (s.ent 0x5000 0x11))

/-- The link that a packet leaves by, and the packet with its flags; none where it waits. -/
def State.route (s : State) (t : Transit) : Option (Nat × Pkt) :=
  let tree := s.treeLink t.pkt.dst
  let p := if t.pkt.esc && tree.isNone then { t.pkt with esc := false } else t.pkt
  let byTree : Option (Nat × Pkt) :=
    match tree with
    | some k => if s.takes k p 0 then some (k, { p with esc := true }) else none
    | none => none
  if p.esc then byTree
  else
    match s.minimalRoute p with
    | some k => some (k, p)
    | none =>
      match (if t.link.isNone && p.src == s.nodeId then s.detour p else none) with
      | some k => some (k, { p with nm := true })
      | none => byTree

/-- The buffers that a packet held on the link it came by are free: their credits are owed to the peer (14 R322). -/
def State.freeBuffers (s : State) (t : Transit) : State :=
  match t.link with
  | some k => s.updLink k (fun l => let c := l.ch t.vc; l.setCh t.vc { c with owed := c.owed + t.flits })
  | none => s

/-- R342: AGE and AGEF at departure, with the link's flight time. -/
def Transit.depart (t : Transit) (time k : Nat) (p : Pkt) : Pkt :=
  let total := p.age * 1000 + p.agef + (time - t.since) * 10 + Config.flightTime k
  { p with age := min 1023 (total / 1000), agef := if total / 1000 ≥ 1023 then 0 else total % 1000 }

/-- R340: what becomes of a packet that cannot be routed. A request that came from this node is refused without a packet's journey. -/
def State.noRoute (s : State) (t : Transit) : State :=
  if t.pkt.isRequest && t.pkt.pt != ptLIST && t.pkt.pt != ptDROP then
    let s := (s.bump 0x5000 0x1A 64 1)
    s.emit { pt := ptREFUSE, dst := t.pkt.src, src := 0, charter := t.pkt.charter, tag := t.pkt.tag, tgen := t.pkt.tgen, ver := t.pkt.ver, dev := t.pkt.dev,
             cap := t.pkt.cap, line := t.pkt.line, list := t.pkt.list, addr := t.pkt.addr, issuer := t.pkt.issuer,
             param := 1 + cREFUSED * 2 ^ 8 + 0x04 * 2 ^ 16 }
  else s.bump 0x5000 0x1E 64 1

/-- A packet for this node arrives: requests note their age, and that their berth is being reset (15 R361, Table 15.6). The time-sync
packets' receipt is TSYNC_REQ's and TSYNC_RSP's. -/
def State.arrive (s : State) (t : Transit) : State :=
  let p := t.pkt
  if p.pt = ptTSREQ ∨ p.pt = ptTSRSP then s
  else
    let age := t.age s.time
    let s := if p.isRequest && decide (s.ent 0x5000 0x20 < age) then s.setEnt 0x5000 0x20 age else s
    let late := match s.charterBerth p.charter with | some b => s.ent (berthIdx b) 0x01 == 3 | none => false
    { s with inbox := s.inbox ++ [{ t with late := late }] }

/-- The arbiter that a packet waits at: the crossbar for this node, numbered behind the links, or the link it would leave by; none where it cannot go. -/
def State.outlet (s : State) (t : Transit) : Option Nat :=
  if t.pkt.dst = s.nodeId ∨ t.pkt.dst = 0xFFFF then some nLinks else (s.route t).map (·.1)

/-- Whether another packet of greater current age waits at the same arbiter, which grants that one first (15 R343). Among equals the command's index
takes the turn of the round-robin. -/
def State.outranked (s : State) (t : Transit) : Bool :=
  s.compass.any (fun u => decide (t.age s.time < u.age s.time) && s.outlet u == s.outlet t)

/-- PACKET_ROUTE: the index-th packet in the compass is delivered here, leaves by a link, cannot be routed, or waits. -/
def doPacketRoute (i : Nat) (s : State) : State :=
  match listAt s.compass i with
  | none => s
  | some t =>
    let gone : State := ({ s with compass := listDel s.compass i } : State).freeBuffers t
    if t.pkt.dst = s.nodeId ∨ t.pkt.dst = 0xFFFF then (if s.outranked t then s else gone.arrive t)
    else if !chValid (s.entryFor t.pkt.dst) && !(t.pkt.esc && (s.treeLink t.pkt.dst).isSome) then gone.noRoute t
    else
      match s.route t with
      | none => s
      | some (k, p) =>
        if s.outranked t then s
        else
        let s1 := if p.esc && !t.pkt.esc then gone.bump 0x5000 0x1C 64 1 else gone
        let s2 := if p.nm && !t.pkt.nm then s1.bump 0x5000 0x1D 64 1 else s1
        let q := t.depart s.time k p
        s2.transmit k ftDATA q.vc q.bytes (some q)

/-- ROUTE_HOLD: a packet that no alternative and no escape link can take has waited its time (R340). -/
def doRouteHold (i : Nat) (s : State) : State :=
  match listAt s.compass i with
  | none => s
  | some t =>
    if t.pkt.dst = s.nodeId ∨ t.pkt.dst = 0xFFFF then s
    else if t.since + s.ent 0x5000 0x12 * 100 ≤ s.time ∧ (s.routes t.pkt.dst).isEmpty ∧ (s.treeLink t.pkt.dst).isNone then
      (({ s with compass := listDel s.compass i } : State).freeBuffers t).noRoute t
    else s

/-! ### The time base (R345–R347) -/

/-- A time-sync packet on a link: DST 0xFFFF, on VC2; the stamps are ticks with a 16-bit fraction. -/
def State.sendTime (s : State) (k pt : Nat) (times : List Nat) : State :=
  if s.lkState k = lsUP ∧ 1 ≤ ((s.linkSt k).ch 2).credits ∧ (s.linkSt k).room 1 then
    s.transmit k ftDATA 2 ({ pt := pt, dst := 0xFFFF, src := s.nodeId, times := times } : Pkt).bytes none
  else s

/-- TSYNC_INTERVAL: a request to the parent, stamped T1. -/
def doTsyncInterval (s : State) : State :=
  let k := s.ent 0x5000 0x15
  if k < nLinks ∧ s.lkState k = lsUP then ({ s with tsOut := some (s.time * 2 ^ 16) } : State).sendTime k ptTSREQ [s.time * 2 ^ 16, 0, 0] else s

/-- TSYNC_REQ: the parent answers with its own stamps. -/
def doTsyncReq (k t1 t2 t3 : Nat) (s : State) : State := s.sendTime k ptTSRSP [t1, t2, t3]

/-- The offset to the parent in ps, from stamps in 2^-16 ticks of 10 ns. -/
def tsOffset (t1 t2 t3 t4 : Nat) : Int := (((t2 : Int) - t1) - ((t4 : Int) - t3)) * 10000 / (2 * 65536)

/-- TSYNC_RSP: the offset to the parent; one step forward before the first lock, LOCKED after 16 exchanges in a row under 5 ns. The trim of
the rate has no place in a time base of whole ticks. -/
def doTsyncRsp (t1 t2 t3 t4 : Nat) (s : State) : State :=
  match s.tsOut with
  | none => s
  | some sent =>
    if sent ≠ t1 then s
    else
      let off := tsOffset t1 t2 t3 t4
      let lim : Int := 2147483647
      let shown := if off > lim then lim else if off < -lim then -lim else off
      let s : State := ({ s with tsOut := none }).setEnt 0x5000 0x18 (shown % (2 ^ 32 : Int)).toNat
      if s.ent 0x5000 0x17 = 0 ∧ off > 10000000 then
        ({ s with time := s.time + (off / 10000).toNat, tsGood := 0 } : State).setEnt 0x5000 0x17 1
      else
        let good := if off.natAbs < 5000 then s.tsGood + 1 else 0
        let s : State := { s with tsGood := min 16 good }
        if good ≥ 16 then s.setEnt 0x5000 0x17 2 else s

end Sys2Proof.Machine
end

