-- ==== Sys2Proof/Machine/Berths.lean ====
section
/-!
DEFINITION. Berths (chapter 16): START, resets and removals, the berth commit group.
-/

namespace Sys2Proof.Machine

abbrev bsFREE : Nat := 0
abbrev bsCONFIGURED : Nat := 1
abbrev bsACTIVE : Nat := 2
abbrev bsRESETTING : Nat := 3

/-- BERTH_STATE and BERTH_RESULT. -/
def State.berthState (s : State) (b : Nat) : Nat := s.ent (berthIdx b) 0x01
def State.berthResult (s : State) (b v : Nat) : State := s.setEnt (berthIdx b) 0x03 v

/-! ### START (R367) -/

/-- The one VER that the `n` granules from `va` are all at; none where they differ or one is out of reach. -/
def State.regionAt (s : State) (u : TlbUnit) (b : Nat) : Nat → Nat → Option Nat → State × Option Nat
  | 0, _, v => (s, v)
  | n + 1, va, v =>
    let t := s.translate u b va
    match t.2 with
    | .error _ => (t.1, none)
    | .ok pa =>
      match t.1.verAt pa, v with
      | some x, none => State.regionAt t.1 u b n (va + 16) (some x)
      | some x, some y => if x = y then State.regionAt t.1 u b n (va + 16) v else (t.1, none)
      | none, _ => (t.1, none)

/-- The shed with the most free records, the lowest on a tie. -/
def State.freestShed (s : State) : Nat :=
  (upTo nSheds).foldl (fun best k =>
    let n (h : Nat) : Nat := if (s.shed h).isolated then 0 else s.freeCount h
    if n best < n k then k else best) 0

/-- The berth's first context (Table 16.4). -/
def firstContext (b base ver startPc ceil : Nat) : NewCtx :=
  { base := base, ver := ver, pcc := (Cap.ofGran rootCodeBerth).withAddr (startPc % 2 ^ 48),
    status := mkStatus (b * 2 ^ 14) ceil ceil false false,
    regs := [(1, rootMemory), (2, rootCodeBerth), (3, rootSealing)], stackPerms := 0xDC4 }

/-- The checks of R367 and the creation of a first context in the region at START_REGION: 0, or the code of Table 16.3 of the check
that failed, with nothing changed; memory that fails as the context is built makes the region one that START_REGION may not name. -/
def State.createFirst (s : State) (b : Nat) (mk : Nat → Nat → NewCtx) : State × Nat :=
  let i := berthIdx b
  let shed := s.freestShed
  let u : TlbUnit := .stable shed
  match s.freeRecord shed with
  | none => (s, 0x72)
  | some rn =>
    if s.ent i 0x0B = 0 then (s, 0x72)
    else
      let base := s.app i 0x07
      if base + 4096 ≥ 2 ^ 48 then (s, 0x73)
      else
        match s.regionAt u b 256 base none with
        | (_, none) => (s, 0x73)
        | (s1, some v) =>
          if v > 12 then (s, 0x73)
          else
            let cid := mkCid (s1.record rn).gen rn
            let q := s1.create u rn (mk base (v + 1))
            if q.2 then (q.1.setEnt i 0x14 cid, 0) else (q.1.destroy cid, 0x73)

/-- START of a CONFIGURED berth: its checks, then its first context. A check that fails changes nothing but the result. -/
def State.startBerth (s : State) (b : Nat) : State :=
  let i := berthIdx b
  let r := s.createFirst b (fun base v => firstContext b base v (s.app i 0x06) (s.app i 0x05))
  if r.2 = 0 then (r.1.setEnt i 0x01 bsACTIVE).berthResult b 0 else r.1.berthResult b r.2

/-! ### Reset and removal (R377–R379) -/

/-- Whether a packet is a request of the berth's charter that this node has accepted as home. -/
def State.ofBerth (s : State) (b : Nat) (p : Pkt) : Bool :=
  decide (1 ≤ p.pt) && decide (p.pt ≤ ptINVOKE) && p.charter != 0 && s.charterBerth p.charter == some b

/-- The outstanding transfers of a berth. A registered waiting read of its own is released in step 4. -/
def State.outstanding (s : State) (b : Nat) : Bool :=
  s.slots.any (fun e => match e.2 with | some x => x.berth == b | none => false) ||
    s.ops.any (fun o => o.poll.isNone && s.living o.cid && s.berthOf o.cid == b) ||
    s.cores.any (fun e => e.2.buffer.any (fun x => x.stores.any (fun st => st.cids.any (fun c => s.berthOf c == b)))) ||
    s.inbox.any (fun t => s.ofBerth b t.pkt) || s.homeWait.any (fun e => s.ofBerth b e.2) ||
    s.stalls.any (fun e => stBerth e.2.status == b && e.2.cid.isSome && (s.routine e.1).isSome)

/-- A merging buffer without a berth's words. -/
def Core.discard (c : Core) (mine : Nat → Bool) : Core :=
  let left (st : BufStore) : Option BufStore := if st.cids.all mine then none else some { st with cids := st.cids.filter (fun c => !mine c) }
  { c with buffer := (c.buffer.map (fun e => { e with stores := e.stores.filterMap left })).filter (fun e => !e.stores.isEmpty) }

/-- Step 3S: slots released without answer, words in merging buffers discarded, accepted and waiting home requests refused,
results of local operations discarded, routines abandoned (R361). -/
def State.squash (s : State) (b : Nat) : State :=
  let s : State := { s with slots := s.slots.filter (fun e => match e.2 with | some x => x.berth != b | none => false) }
  let s : State := { s with cores := SMap.mapv (fun _ => {}) (fun _ c => c.discard (fun cid => s.berthOf cid == b)) s.cores }
  let s : State := { s with ops := s.ops.filter (fun o => s.berthOf o.cid != b) }
  let mine := s.stalls.filter (fun e => stBerth e.2.status == b && e.2.cid.isSome)
  let s := mine.foldl (fun s e => s.dropRoutine e.1) s
  let queued := (s.inbox.filter (fun t => s.ofBerth b t.pkt)).map (·.pkt)
  let waits := s.homeWait.filter (fun e => s.ofBerth b e.2)
  let s : State :=
    { s with inbox := s.inbox.filter (fun t => !s.ofBerth b t.pkt), homeWait := s.homeWait.filter (fun e => !s.ofBerth b e.2),
             waiters := s.waiters.filter (fun w => match w.kind with | .remote n => !waits.any (fun e => e.1 == n) | _ => true) }
  (queued ++ waits.map (·.2)).foldl (fun s p => s.refusePkt p (reason 0x02)) s

/-- Step 4: every context of the berth is destroyed. -/
def State.destroyAll (s : State) (b : Nat) : State :=
  let rs := s.records.filter (fun e => e.2.rstate != .free && stBerth e.2.status == b)
  rs.foldl (fun s e => s.destroy (mkCid e.2.gen e.1)) s

/-- Step 5: translations, immutable copies, import entries, export and relay entries go; the collector stops. What the next commit
that enables the heap finds is initialised afresh (R378). -/
def State.clearBerth (s : State) (b : Nat) : State :=
  let ch := s.app (berthIdx b) 0x04
  let s := s.dropTranslations b none
  let s : State := { s with sheds := SMap.mapv (fun _ => {}) (fun _ h => { h with copies := h.copies.filter (fun c => c.charter != ch) }) s.sheds }
  let s := s.dropImports b (fun e => e.count != 0)
  let x := s.berth b
  let s := s.setBerth b { poolGone := x.poolGone, overQ := x.overQ, halted := true, metaOld := true, cmd := x.cmd, resetStep := x.resetStep, fellBack := x.fellBack }
  (s.setPhase b 0 0).setEnt (berthIdx b) 0x56 0

/-- R378: a removal's defaults: every entry, register and statistic of the berth. -/
def State.forget (s : State) (b : Nat) : State :=
  let keep (k : Nat) : Bool := k / 256 != berthIdx b
  { s with dict := s.dict.filter (fun e => keep e.1), applied := s.applied.filter (fun e => keep e.1), xl := s.xl.filter (fun e => e.1 / 1024 != b),
           xpages := s.xpages.filter (fun e => e.1 != b), berths := s.berths.filter (fun e => e.1 != b) }

/-- Steps 4 to 6. -/
def State.finishReset (s : State) (b : Nat) : State :=
  let x := s.berth b
  let res := if x.fellBack then 0x01 else 0x00
  let s := (s.destroyAll b).clearBerth b
  let i := berthIdx b
  if x.cmd ≥ 4 then ((s.forget b).setEnt i 0x1D 1).berthResult b res
  else (((s.updBerth b (fun y => { y with cmd := 0, resetStep := 0, fellBack := false })).setEnt i 0x01 bsCONFIGURED).bump i 0x1D 32 1).berthResult b res

/-- A DRAIN that ends as SQUASH. -/
def State.fallBack (s : State) (b : Nat) : State := ((s.updBerth b (fun x => { x with fellBack := true })).squash b).finishReset b

/-- A berth whose DRAIN has nothing outstanding any more goes on to steps 4 to 6. -/
def State.drainDone (s : State) (b : Nat) : State :=
  if s.berthState b = bsRESETTING ∧ (s.berth b).resetStep = 3 ∧ !s.outstanding b then s.finishReset b else s

/-- Steps 1 to 3 of a reset or removal; a SQUASH goes on at once. -/
def State.beginReset (s : State) (b cmd : Nat) : State :=
  let s := ((s.setEnt (berthIdx b) 0x01 bsRESETTING).berthResult b 0xFF).updBerth b (fun x => { x with cmd := cmd, resetStep := 3, fellBack := false })
  if cmd = 3 ∨ cmd = 5 then (s.squash b).finishReset b else s.drainDone b

/-- BERTH_CMD (R366): START 1, RESET_DRAIN 2, RESET_SQUASH 3, REMOVE_DRAIN 4, REMOVE_SQUASH 5. -/
def State.berthCmd (s : State) (b cmd : Nat) : State :=
  let st := s.berthState b
  if s.ent (berthIdx b) 0x03 = 0xFF then
    (if (s.berth b).resetStep = 3 ∧ (s.berth b).cmd + 1 = cmd ∧ (cmd = 3 ∨ cmd = 5) then s.fallBack b else s)
  else if cmd = 0 ∨ 5 < cmd then s
  else if b = 0 then s.berthResult b 0x74
  else if cmd = 1 then (if st = bsCONFIGURED then s.startBerth b else s.berthResult b 0x71)
  else if st = bsCONFIGURED ∨ st = bsACTIVE then s.beginReset b cmd
  else s.berthResult b 0x71

def doBerthStart (b : Nat) (s : State) : State := s.berthCmd b 1
def doResetDrain (b : Nat) (s : State) : State := s.berthCmd b 2
def doResetSquash (b : Nat) (s : State) : State := s.berthCmd b 3
def doRemoveDrain (b : Nat) (s : State) : State := s.berthCmd b 4
def doRemoveSquash (b : Nat) (s : State) : State := s.berthCmd b 5

/-- DRAIN_LIMIT: step 3D has lasted its limit. -/
def doDrainLimit (b : Nat) (s : State) : State :=
  if s.berthState b = bsRESETTING ∧ (s.berth b).resetStep = 3 then s.fallBack b else s

/-! ### The commit group (R382) -/

/-- The RWS entries of Tables 12.7 and 16.6. -/
def berthRws : List Nat := [0x04, 0x05, 0x06, 0x07, 0x17, 0x18, 0x40, 0x41, 0x42, 0x43, 0x44, 0x45, 0x46, 0x47, 0x48, 0x49, 0x4A, 0x4B, 0x4C]

/-- The refusal of a berth commit: the collector group, then Table 16.10 in order; 0 where it passes. -/
def State.berthCheck (s : State) (b : Nat) : Nat :=
  let i := berthIdx b
  let g (e : Nat) : Nat := s.ent i e
  let ch := g 0x04
  let st := s.berthState b
  if s.heapCheck b != 0 then s.heapCheck b
  else if ch != 0 && (upTo nBerths).any (fun o => o != b && s.app (berthIdx o) 0x04 == ch) then 0x61
  else if (g 0x05 == 2 && b != 0) || decide (3 ≤ g 0x05) then 0x62
  else if g 0x06 % 4 != 0 || g 0x07 % 4096 != 0 then 0x63
  else if g 0x17 % 4096 != 0 || decide (4096 < g 0x18) then 0x64
  else if st == bsRESETTING || (b != 0 && st == bsACTIVE && ch != s.app i 0x04) || (st == bsACTIVE && g 0x05 != s.app i 0x05) then 0x65
  else 0

/-- The group applies at its quiescent point: a berth leaves FREE at its first commit; a commit that enables the heap, or the first after a
reset, initialises its metadata; one that disables it leaves the collector OFF. -/
def State.berthApply (s : State) (b : Nat) : State :=
  let i := berthIdx b
  let was := s.heapOn b
  let s := berthRws.foldl (fun s e => s.setApp i e (s.ent i e)) s
  let s := if s.berthState b = bsFREE then s.setEnt i 0x01 bsCONFIGURED else s
  if s.heapOn b && (!was || (s.berth b).metaOld) then s.initHeap b
  else if !s.heapOn b && was then s.setPhase b 0 (if s.oldPhase b = 5 then 5 else 0)
  else s

end Sys2Proof.Machine
end

