-- ==== Sys2Proof/Machine/Patch.lean ====
section
/-!
DEFINITION. The microcode patch (09 R210–R215): the checks of a staged file, and its load.
-/

namespace Sys2Proof.Machine

/-- The current value of a tally (19 Table 19.11), and its changes left. -/
def State.tally (s : State) (t : Nat) : Nat := SMap.get tallyDefault s.tallies t
def State.setTally (s : State) (t v : Nat) : State := { s with tallies := SMap.set tallyDefault s.tallies t v }

/-- Bytes of the staging area. -/
def State.staged (s : State) (o n : Nat) : List Byte := (upTo n).map (fun i => SMap.get (fun _ => 0) s.stage (o + i))

/-- Checks 1 to 4 of Table 9.11 for a file: its layout, PART and STEPPING, KEY_EPOCH, the signature over every byte before it. `layout`
says check 1. While LIFECYCLE is RETIRED no key is left (19 R450). -/
def signedCheck (s : State) (layout : Bool) (bs : List Byte) (len : Nat) : Nat :=
  if !layout then 0x01
  else if leAt bs 6 2 != 0x5160 || leAt bs 8 1 != 0xB0 then 0x02
  else if leAt bs 9 1 != s.tally 2 then 0x03
  else if s.tally 5 == 2 || !Config.signatureValid (s.tally 2) (bs.take len) ((bs.drop len).take 96) then 0x04
  else 0

/-- Whether bytes are all 0. -/
def allZero (bs : List Byte) : Bool := bs.all (· == 0)

/-- Check 7 for one word: reserved bits 0, NEXT valid, WSEL and the BC codes defined. -/
def wordOk (nwords : Nat) (w : Nat) : Bool :=
  nbits w 80 64 == 0 && decide (mwNEXT w < 0x4000 + nwords) && decide (mwWSEL w ≤ 11) && bcsOk w

/-- Check 7 (Table 9.10). -/
def payloadOk (p : List Byte) : Bool :=
  let nm := leAt p 0 2
  let nw := leAt p 2 2
  let ms := (upTo 64).map (fun i => leAt p (8 + 4 * i) 4)
  let used := ms.take nm
  decide (nm ≤ 64) && decide (nw ≤ 512) && leAt p 4 4 == 0 && p.length == 0x108 + 24 * nw && (ms.drop nm).all (· == 0) &&
    used.all (fun m => nbit m 31 && nbits m 30 23 == 0 && decide (nbits m 8 0 < nw)) &&
    (used.map (fun m => nbits m 22 9)).dedup.length == used.length && (upTo nw).all (fun i => wordOk nw (leAt p (0x108 + 24 * i) 24))

/-- The device is in boot state: until the yard's initial context first issues (R214). -/
def State.inBoot (s : State) : Bool := s.ent 0x2200 0x03 != 2

/-- Table 9.11: the first check that a staged file fails, 0 where it passes, with the payload in clear. -/
def State.patchCheck (s : State) (load : Bool) : Nat × List Byte :=
  let hd := s.staged 0 64
  let plen := leAt hd 0x10 4
  let size := 64 + plen + 96
  let layout := decide (size ≤ 65536) && hd.take 4 == [0x56, 0x5A, 0x4D, 0x50] && leAt hd 4 2 == 1 && allZero ((hd.drop 0x0A).take 2) &&
    allZero ((hd.drop 0x14).take 4) && allZero ((hd.drop 0x24).take 12)
  if !layout then (0x01, [])
  else
    let bs := s.staged 0 size
    let c := signedCheck s layout bs (64 + plen)
    if c != 0 then (c, [])
    else
      match Config.gcmDecrypt (s.tally 2) (bs.take (64 + plen)) with
      | none => (0x05, [])
      | some p =>
        if leAt hd 0x0C 4 < s.tally 3 then (0x06, [])
        else if !payloadOk p || p.length != plen then (0x07, [])
        else if load && !s.inBoot then (0x08, [])
        else (0, p)

/-- R214: the words and the match registers enter every control store, then PATCH_LEVEL. -/
def State.loadPatch (s : State) (p : List Byte) : State :=
  let nm := leAt p 0 2
  let nw := leAt p 2 2
  let s := (upTo 64).foldl (fun s i => s.setEnt 0x8000 (0x40 + i) (leAt p (8 + 4 * i) 4)) s
  let s : State := { s with patchRam := (upTo nw).foldl (fun m i => SMap.set (fun _ => 0) m i (BitVec.ofNat 192 (leAt p (0x108 + 24 * i) 24))) [] }
  (((s.setEnt 0x8000 0x08 nm).setEnt 0x8000 0x09 nw)).setEnt 0x8000 0x02 (leAt (s.staged 0 64) 0x0C 4)

/-- A write of PATCH_CMD: 1 verifies and loads, 2 verifies; ignored while a check runs. -/
def State.patchCmd (s : State) (v : Nat) : State :=
  if s.patchRun.isSome || !(v == 1 || v == 2) then s
  else ({ s with patchRun := some (v == 1) } : State).setEnt 0x8000 0x07 0xFF

/-- PATCH_CHECK_END: the running check ends with its result. -/
def doPatchCheckEnd (s : State) : State :=
  match s.patchRun with
  | none => s
  | some load =>
    let r := s.patchCheck load
    let s : State := { s with patchRun := none }
    (if r.1 = 0 ∧ load then s.loadPatch r.2 else s).setEnt 0x8000 0x07 r.1

end Sys2Proof.Machine
end

