-- ==== Sys2Proof/Machine/Watch.lean ====
section
/-!
DEFINITION. The watch (chapter 18): reports and reactions, isolation, first-error capture, mooring, injection.
-/

namespace Sys2Proof.Machine

/-! ### EVENT frames and the trace (17 R403, 18 R418, 19 R452) -/

/-- A record enters the trace buffer: 16 bytes, a ring of TRACE_SIZE. -/
def State.traceRecord (s : State) (code bit detail : Nat) : State :=
  let head := s.ent 0xA000 0x07
  let v := s.time % 2 ^ 64 + code % 2 ^ 16 * 2 ^ 64 + bit % 256 * 2 ^ 80 + detail % 2 ^ 32 * 2 ^ 96
  ({ s with trace := SMap.set (fun _ => 0) s.trace (head / 16) v } : State).setEnt 0xA000 0x07 ((head + 16) % 65536)

/-- A frame that the helm sends; a device whose HELM_ADDR straps read 0 never transmits (17 R398). -/
def State.sendFrame (s : State) (f : CanFrame) : State := if Config.helmAddr % 128 = 0 then s else { s with helmTx := s.helmTx ++ [f] }

/-- An EVENT frame and its trace record. -/
def State.sendEvent (s : State) (code bit detail : Nat) : State :=
  (s.sendFrame { func := 1, dst := 0, payload := leBytes 2 code ++ [BitVec.ofNat 8 bit, 0] ++ leBytes 8 s.time ++ leBytes 4 detail }).traceRecord code bit detail

/-! ### Mooring (R420–R422) -/

/-- The steps of Table 18.6 that a moor and a device reset share: NODEDOWN on each link that is UP and holds a VC0 credit, then electrical
idle; LANTERN low; what runs and has no effect yet ends. -/
def State.quieten (s : State) (nodedown : Nat) : State :=
  let s := (upTo nLinks).foldl (fun s k =>
    if lkRuns (s.lkState k) then (s.sendDown k nodedown).setEnt (lkIdx k) 0x03 lsDOWN else s) s
  { s with commits := [], patchRun := none, pins := { s.pins with lantern := false, idle := true } }

/-- The device moors; a second trigger changes nothing more. -/
def State.moor (s : State) (source : Nat) : State :=
  if s.ent 0x6000 0x02 = 1 then s
  else
    let s := ((s.setEnt 0x6000 0x02 1).setEnt 0x6000 0x03 source).setEnt 0x6000 0x04 s.time
    let s := s.quieten 1
    ({ s with host := { s.host with errFatal := s.host.link } } : State).sendEvent 0x0004 (if source < 56 then source else Config.moorBit source) 0

/-! ### Isolation (Table 18.4, R417) -/

/-- BERTH_FATAL (16 R376): queued, counted, and told by an EVENT frame. -/
def State.berthFatal (s : State) (b bit lost : Nat) : State :=
  ((s.berthEvent b 0x05 (w64 bit) (w64 lost)).bump (berthIdx b) 0x1C 32 1).sendEvent 0x0003 bit b

/-- The host port's PCIe link goes down: its functions are gone until the host retrains it. -/
def State.hostDown (s : State) : State :=
  if s.host.link then
    let s : State := { s with host := { s.host with link := false } }
    (s.setEnt 0x1000 0x18 (Nat.lor (s.ent 0x1000 0x18) 2)).signalDev 23 42
  else s

/-- A shed's lines are lost: those held modified are poisoned in memory (step 4). -/
def State.loseLines (s : State) (h : Nat) : State :=
  let x := s.shed h
  let dirty := ((x.lines.filter (fun e => e.2.st == .M)).map (·.1)) ++ x.victims
  let s := dirty.foldl (fun s line => ((upTo 4).foldl (fun s i =>
    let pa := line * 64 + 16 * i
    s.writePA pa ((s.rawAt pa).poisoned)) s).writeBack line) s
  s.setShed h { x with lines := [], victims := [], copies := [], streams := [], ready := [] }

/-- The segments that a shed's engine owned pass to the lowest shed still in service (step 5). -/
def State.passSegments (s : State) (h : Nat) : State :=
  match (upTo nSheds).find? (fun x => !(s.shed x).isolated) with
  | none => s
  | some to_ =>
    (upTo nBerths).foldl (fun s b =>
      if s.heapOn b && !(s.berth b).halted then
        ((s.heapSegs b).foldl (fun (g : Gc) i =>
          let v := g.info i
          if siState v != 0 && siOwner v == h then g.setInfo i (mkSeginfo (siState v) (siVer v) to_ (siPin v) (siFrom v) (siLive v)) else g) { s := s, b := b }).done
      else s) s

/-- R417: a shed is isolated, by the source with bit `bit`. -/
def State.isolateShed (s : State) (h bit : Nat) : State :=
  if (s.shed h).isolated then s
  else
    let core (c : Nat) : Bool := shedOfCore c == h
    let lostRec := s.records.filter (fun e => e.1 / 2 ^ 14 == h && e.2.rstate != .free)
    let lostInt := s.stalls.filter (fun e => shedOf e.1 == h && isS63 e.1 && e.2.cid.isSome)
    let mine (cid : Nat) : Bool := if isIntCid cid then core (cid % 2 ^ 18) else cidShed cid == h
    let lost (b : Nat) : Nat := (lostRec.filter (fun e => stBerth e.2.status == b)).length + (lostInt.filter (fun e => stBerth e.2.status == b)).length
    let busy (b : Nat) : Bool := s.heapOn b && (s.minorPhase b != 0 || decide (2 ≤ s.oldPhase b)) || s.oldPhase b == 5
    let told := (upTo nBerths).filter (fun b => lost b != 0 || busy b)
    let s0 := s
    let evs := (s.cores.filter (fun e => core e.1)).flatMap (fun e => e.2.devPend)
    let s := s.loseLines h
    let s : State :=
      { s with stalls := s.stalls.filter (fun e => shedOf e.1 != h), cores := s.cores.filter (fun e => !core e.1),
               records := s.records.map (fun e => if e.1 / 2 ^ 14 = h then (e.1, ({ gen := nextGen e.2.gen } : Record)) else e),
               ops := s.ops.filter (fun o => !mine o.cid),
               waiters := s.waiters.filter (fun w => match w.kind with | .remote _ => true | _ => !mine w.cid),
               slots := s.slots.filter (fun e => match e.2 with | some x => !mine x.cid | none => false),
               berths := SMap.mapv (fun _ => {}) (fun _ b => { b with pool := b.pool.filter (fun e => !mine e.2) }) s.berths }
    let s := s.updShed h (fun x => { x with isolated := true })
    let s := s.passSegments h
    let s := evs.foldl (fun s e => s.signalDev e.2 e.1) s
    let s := told.foldl (fun s b => s.berthFatal b bit ((lostRec.filter (fun e => stBerth e.2.status == b)).length +
      (lostInt.filter (fun e => stBerth e.2.status == b)).length)) s
    if (upTo nSheds).all (fun x => (s.shed x).isolated) && s0.ent 0x6000 0x02 == 0 then s.moor 0x44 else s

/-- Isolate a port, a link: the CXL link is taken down; the fabric link is taken DOWN and stays so until LK_CMD (18 R428). -/
def State.isolatePort (s : State) (p : Nat) : State := doPortFailure p s
def State.isolateLink (s : State) (k : Nat) : State :=
  if s.lkState k == lsDISABLED then s else ({ s with isoLinks := maskSet s.isoLinks k } : State).linkLost k false

/-- The port that a TAGENG report names, and the shed that a STABLE report names. -/
def portNamed (r : Report) : Option Nat := if r.master = 2 ∧ 25 ≤ r.source ∧ r.source < 41 then some (r.source - 25) else none
def shedNamed (r : Report) : Option Nat := if r.master = 2 ∧ r.source < 16 then some r.source else none

/-- What isolating the source of a report does; none where the report names no unit that can be isolated. -/
def State.isolate (s : State) (r : Report) : Option State :=
  let n := r.bit
  if n < 16 then some (s.isolateShed n n)
  else if n < 32 then some (s.isolatePort (n - 16))
  else if n < 44 then some (s.isolateLink (n - 32))
  else if n = 46 then some s.hostDown
  else if n = 50 then (portNamed r).map s.isolatePort
  else if n = 51 then (shedNamed r).map (fun h => s.isolateShed h n)
  else if 52 ≤ n ∧ n < 56 then
    let i := n - 52
    let s : State := { s with isoIocs := maskSet s.isoIocs i }
    let s := ([0, 4, 8, 12].map (· + i)).foldl State.isolatePort s
    let s := ([0, 4, 8].map (· + i)).foldl State.isolateLink s
    some (if i = 0 then s.hostDown else s)
  else none

/-! ### Reports (R414–R419) -/

/-- FE_ADDR and FE_MASTER of a report (R419, Table 18.5). -/
def feAddr (r : Report) : Nat := match r.addr with | some a => 2 ^ 63 + r.space % 8 * 2 ^ 60 + a % 2 ^ 52 | none => 0
def feMaster (r : Report) : Nat :=
  r.source % 2 ^ 16 * 2 ^ 16 + (match r.berth with | some b => b % 64 * 2 ^ 10 + 2 ^ 9 | none => 0) + r.access % 16 * 16 + r.master % 16

/-- The first report while FE_SOURCE reads 0xFF is captured. -/
def State.capture (s : State) (r : Report) : State :=
  if s.ent 0x6000 0x06 = 0xFF then
    ((((s.setEnt 0x6000 0x06 r.bit).setEnt 0x6000 0x07 (if r.kind = .unit then 1 else 0)).setEnt 0x6000 0x08 (feAddr r)).setEnt 0x6000 0x09 (feMaster r)).setEnt
      0x6000 0x0A s.time
  else s

/-- The level a report is handled at (R415, R416, Table 18.4). -/
def State.level (s : State) (r : Report) : Nat :=
  let sev := s.ent 0x6000 (0x40 + r.bit)
  let l := if r.kind = .contained then min sev 1 else sev
  let none_ := (s.isolate r).isNone
  if (l = 2 ∨ l = 3) ∧ none_ then 4 else if l = 3 ∧ r.berth.isNone then 2 else l

/-- A REPORT frame, at most one per source in each 10 ms. -/
def State.reportFrame (s : State) (r : Report) : State :=
  let last := SMap.get (fun _ => 0) s.reportTick r.bit
  if last ≠ 0 ∧ s.time < last - 1 + 1000000 then s
  else
    ({ s with reportTick := SMap.set (fun _ => 0) s.reportTick r.bit (s.time + 1) } : State).sendEvent 0x0001 r.bit
      ((match r.addr with | some a => a | none => 0) % 2 ^ 32)

/-- 18 R418: WATCH_EVENT is no longer pending where no bit is left whose last report was handled at level 1 or higher. -/
def State.watchSettled (s : State) : State := if Nat.land (s.ent 0x6000 0x01) s.watchMask = 0 then s.unsignalDev 21 40 else s

/-- The watch latches one report and reacts at its level, with one EVENT frame for each reaction (18 Example 18.1). A level does what those
below it do (R415): one that moors queues BERTH_FATAL first, and the isolation that the moor meets is abandoned. Once moored the watch latches,
counts and tells, and isolates nothing (R422). -/
def State.latch (s : State) (r : Report) : State :=
  let l := s.level r
  let s := (s.setEnt 0x6000 0x01 (Nat.lor (s.ent 0x6000 0x01) (2 ^ r.bit))).bump 0x6000 (0xC0 + r.bit) 32 1
  let s := s.capture r
  let s : State := { s with watchMask := if l = 0 then s.watchMask &&& (2 ^ 64 - 1 - 2 ^ r.bit) else s.watchMask ||| 2 ^ r.bit }
  if l = 0 then s.watchSettled
  else
    let s := s.signalDev 21 40
    if s.ent 0x6000 0x02 = 1 then s.reportFrame r
    else if l = 4 then (match r.berth with | some b => s.berthFatal b r.bit 0 | none => s).moor r.bit
    else if l = 3 then (match r.berth with | some b => s.berthFatal b r.bit 0 | none => s)
    else if l = 2 then (match (s.sendEvent 0x0002 r.bit 0).isolate r with | some s' => s' | none => s)
    else s.reportFrame r

/-- Reports in ascending bit order. -/
def insertReport (r : Report) : List Report → List Report
  | [] => [r]
  | x :: xs => if r.bit < x.bit then r :: x :: xs else x :: insertReport r xs

/-- WATCH_REPORT: the watch samples the error lines; `hw` is a report of a checker or a supply that no command of the table raises. -/
def doWatchReport (hw : Option Report) (s : State) : State :=
  let rs := (s.errorLines ++ hw.toList).foldl (fun l r => insertReport r l) []
  (rs.filter (fun r => decide (r.bit < 56))).foldl State.latch { s with errorLines := [] }

/-- WATCH_DISAGREEMENT: the two halves of the watch disagree. -/
def doWatchDisagreement (s : State) : State := s.moor 0x43

/-- MOOR_CMD: 0x4D moors. -/
def State.moorCmd (s : State) (v : Nat) : State := if v = 0x4D then s.moor 0x41 else s

/-- A pulse of uncertain width: whether it acts is a free value, drawn anew each time (18 R420, 20 Table 20.7). -/
def State.shortPulse (s : State) (ns : Nat) (act : State → State) : State :=
  if Config.shortPulseActs ns s.fresh then act { s with fresh := s.fresh + 1 } else { s with fresh := s.fresh + 1 }

/-- MOOR_N held at a level for so many ns: low for 100 ns or longer moors, one below 20 ns is ignored, one between may
act (20 Table 20.7); RESET_N low overrides it (20 R462). -/
def doMoorN (level : Bool) (ns : Nat) (s : State) : State :=
  let s : State := { s with pins := { s.pins with moorN := level } }
  if level || s.inReset || decide (ns < 20) then s
  else if 100 ≤ ns then s.moor 0x40
  else s.shortPulse ns (fun s => s.moor 0x40)

/-- FE_CLEAR. -/
def State.feClear (s : State) (v : Nat) : State :=
  if v = 1 then ((((s.setEnt 0x6000 0x06 0xFF).setEnt 0x6000 0x07 0).setEnt 0x6000 0x08 0).setEnt 0x6000 0x09 0).setEnt 0x6000 0x0A 0 else s

/-- A W1C write of WATCH_STATUS. -/
def State.clearStatus (s : State) (v : Nat) : State :=
  let st := s.ent 0x6000 0x01
  (s.setEnt 0x6000 0x01 (st - Nat.land st v)).watchSettled

/-! ### Injection (R425) -/

/-- The gate slot that a UNIT report of an injection names as its source; none for a source without one. -/
def unitSlot (bit : Nat) : Option Nat :=
  if bit < 16 then some bit
  else if bit < 32 then some (25 + (bit - 16))
  else if bit < 44 then some (41 + (bit - 32))
  else match bit with | 44 => some 24 | 45 => some 54 | 46 => some 23 | 47 => some 22 | 48 => some 53 | 49 => some 53 | _ => none

/-- Whether INJECT takes a value: reserved modes, a COUNT of 0 and a SOURCE above 55 are out of range (17 R387); its reserved bits are
ignored (00 R12). -/
def injectRange (v : Nat) : Bool :=
  decide (1 ≤ nbits v 23 16) && decide (1 ≤ nbits v 11 8) && decide (nbits v 11 8 ≤ 4) &&
    decide (nbits v 5 0 ≤ 55)

/-- A write of INJECT; ignored while ARM is 1. MODE UNIT raises its report at once and ends. -/
def State.injectWrite (s : State) (v : Nat) : State :=
  if nbit (s.ent 0x6000 0x0C) 31 then s
  else if nbit v 31 && nbits v 11 8 == 4 then
    let bit := nbits v 5 0
    let r : Report := { bit := bit, kind := .unit, source := (unitSlot bit).getD 0, master := if (unitSlot bit).isSome then 2 else 0 }
    (s.setEnt 0x6000 0x0C (v % 2 ^ 31)).raise r
  else s.setEnt 0x6000 0x0C v

/-- LANTERN_TOGGLE: each half period, from the start of the helm ROM until the device moors. -/
def doLanternToggle (s : State) : State :=
  if s.inReset || s.bootStep == 0 || s.ent 0x6000 0x02 == 1 then s else { s with pins := { s.pins with lantern := !s.pins.lantern } }

end Sys2Proof.Machine
end

