-- ==== Sys2Proof/Machine/Board.lean ====
section
/-!
DEFINITION. Clocks, power, resets, boot and tallies (chapter 19), with the control pins of chapter 20.
-/

namespace Sys2Proof.Machine

/-! ### Service points (R441) -/

/-- Lowest divisor and guard band of each ceiling point (Table 19.7). -/
def lowestDiv (p : Nat) : Nat := (listAt [4, 4, 4, 4, 4, 5, 5, 6, 8] p).getD 8
def guardBand (p : Nat) : Nat := (listAt [0, 10, 20, 30, 50, 50, 80, 80, 80] p).getD 80

/-- VDD_CORE in mV for a divisor at a ceiling point. -/
def vddCore (p d : Nat) : Nat := min 800 ((if d ≤ 4 then 750 else if d = 5 then 720 else 700) + guardBand p)

/-- The ceiling point in force: the FREQ_CEILING tally. -/
def State.ceiling (s : State) : Nat := s.tally 4

def State.coreDiv (s : State) : Nat := s.ent 0x2000 0x03
def State.setVdd (s : State) (d : Nat) : State := s.setEnt 0x2100 0x04 (vddCore s.ceiling d)

/-! ### CORE_DIV_REQ (R431) -/

/-- A change starts. Faster: voltage first, and the divisor waits for it. Slower: the divisor, then the voltage. -/
def State.startDiv (s : State) (d : Nat) : State :=
  if d < s.coreDiv then (({ s with clkRun := some d } : State).setVdd d).setEnt 0x2000 0x04 0xFF
  else ((s.setEnt 0x2000 0x03 d).setVdd d).setEnt 0x2000 0x04 0

/-- Ask for a divisor: taken up when a running change ends. -/
def State.askDiv (s : State) (d : Nat) : State := if s.clkRun.isSome then { s with clkWant := some d } else s.startDiv d

/-- A write of CORE_DIV_REQ; a divisor below the minimum of the ceiling point in force is ignored. -/
def State.reqDiv (s : State) (v : Nat) : State :=
  if !(v == 4 || v == 5 || v == 6 || v == 8) || decide (v < lowestDiv s.ceiling) then s else (s.setEnt 0x2000 0x02 v).askDiv v

/-- A change has ended: the last request written meanwhile is taken up. -/
def State.nextDiv (s : State) : State :=
  match s.clkWant with
  | some d => ({ s with clkWant := none } : State).startDiv d
  | none => s

/-- VOUT_SETTLED. -/
def doVoutSettled (s : State) : State :=
  match s.clkRun with
  | none => s
  | some d => ((({ s with clkRun := none } : State).setEnt 0x2000 0x03 d).setVdd d |>.setEnt 0x2000 0x04 0).nextDiv

/-- VOUT_TIMEOUT: the change is abandoned, the old divisor and voltage stay. -/
def doVoutTimeout (s : State) : State :=
  match s.clkRun with
  | none => s
  | some _ => ((({ s with clkRun := none } : State).setVdd s.coreDiv).setEnt 0x2000 0x04 1).nextDiv

/-! ### Heat (R432, R433) -/

/-- An I32 as an entry holds it. -/
def i32 (x : Int) : Nat := (x % 2 ^ 32).toNat

/-- A sensor's reading: the sheds 0 to 15, the chiplets 16 to 19. -/
def State.setTemp (s : State) (sensor : Nat) (tenths : Int) : State := s.setEnt 0xA000 (0x10 + sensor) (i32 tenths)

/-- THROTTLE: a shed's sensor reads THROTTLE_TEMP or more. -/
def doThrottle (h : Nat) (tenths : Int) (s : State) : State :=
  let s := s.setTemp h tenths
  if (s.shed h).throttled || decide (tenths < 10 * (s.ent 0x2100 0x03 : Int)) then s
  else (s.updShed h (fun x => { x with throttled := true })).bump 0xA000 0x04 32 1

/-- THROTTLE_EXIT: it has read below THROTTLE_TEMP − 5 °C for 1 ms. -/
def doThrottleExit (h : Nat) (tenths : Int) (s : State) : State :=
  let s := s.setTemp h tenths
  if decide (tenths < 10 * (s.ent 0x2100 0x03 : Int) - 50) then s.updShed h (fun x => { x with throttled := false }) else s

/-- THERMAL_TRIP: a sensor reads 110 °C or more; THERMTRIP_N is held low until power-on. -/
def doThermalTrip (sensor : Nat) (tenths : Int) (s : State) : State :=
  let s := s.setTemp sensor tenths
  if 1100 ≤ tenths ∧ !s.inReset then ({ s with pins := { s.pins with thermOut := true } } : State).moor 0x42 else s

/-- THERMTRIP_N as the board drives it (20 Table 20.7). -/
def doThermtripN (level : Bool) (ns : Nat) (s : State) : State :=
  let s : State := { s with pins := { s.pins with thermIn := level } }
  if level || s.inReset then s
  else if 100 ≤ ns then s.moor 0x42
  else s.shortPulse ns (fun s => s.moor 0x42)

/-! ### Regulators (R435) -/

/-- The fault bits of STATUS_WORD: VOUT (bit 15, as VOUT_UV shows), OFF 6, VOUT_OV 5, IOUT_OC 4. PRESUMED (PMBus 1.3). -/
def pmbFault (w : BitVec 16) : Bool := (w &&& 0x8070) != 0

/-- The report of a rail's regulator: 0 VDD_CORE, 1 VDD_SRAM, 2–5 0.9 V and 6–9 1.2 V of IOC0–3, 10 VDD_IO. -/
def pmbReport (rail : Nat) : Report :=
  if 2 ≤ rail ∧ rail < 10 then { bit := 52 + (rail - 2) % 4, kind := .unit } else { bit := 49, kind := .unit, source := 53, master := 2 }

/-- PMBUS_POLL and PMB_ALERT_N: STATUS_WORD of every regulator under PMBus. -/
def doPmbusPoll (status : List (Nat × BitVec 16)) (s : State) : State :=
  (status.filter (fun e => decide (e.1 < 11) && s.ent 0x2100 (0x10 + e.1) != 0 && pmbFault e.2)).foldl (fun s e => s.raise (pmbReport e.1)) s

/-- AGE_ALARM: a shed's ageing monitor reports its margin, in 0.1 % of a cycle. -/
def doAgeAlarm (h : Nat) (margin : Int) (s : State) : State :=
  let s := s.setEnt 0xA000 (0x30 + h) (i32 margin)
  if margin < 30 then s.setEnt 0xA000 0x05 (Nat.lor (s.ent 0xA000 0x05) (2 ^ h)) else s

/-! ### Resets (R438, R439) -/

/-- The entries that a device reset does not reach (R438; 18 R429). -/
def keptEntry (k : Nat) : Bool :=
  let i := k / 256
  let n := k % 256
  i == 0xA000 || (i == 0x1000 && (n == 0x07 || n == 0x10 || n == 0x11 || n == 0x12)) ||
    (i == 0x6000 && (n == 1 || n == 3 || n == 4 || (decide (6 ≤ n) && decide (n ≤ 0x0A)) || (decide (0x80 ≤ n) && decide (n < 0xB8)) ||
      (decide (0xC0 ≤ n) && decide (n < 0xF8))))

/-- Every unit's fields take their Reset values; FIXED_ID is the NODE_ID tally (R450). -/
def State.enterReset (s : State) : State :=
  ({ pending := s.pending, time := s.time, seqNo := s.seqNo, fresh := s.fresh, mem := s.mem, dict := s.dict.filter (fun e => keptEntry e.1),
     watchMask := s.watchMask, trace := s.trace, tallies := s.tallies, tallyRun := s.tallyRun, logbook := s.logbook, helmTx := s.helmTx,
     inReset := true, tap := s.tap,
     pins := { s.pins with lantern := false, mpPerst := 0, idle := true } } : State).setEnt 0x5000 0x02 (s.tally 1)

/-- A device reset, by cause: the steps of Table 18.6 with NODEDOWN REASON 2, then the reset. -/
def State.deviceReset (s : State) (cause : Nat) : State :=
  let s := (s.quieten 2).enterReset
  (s.setEnt 0x1000 0x07 ((s.ent 0x1000 0x07 + 1) % 65536)).setEnt 0x2200 0x02 cause

/-- RESET_N held at a level for so many ns: low for 1 µs resets, below 100 ns is ignored, between may act (20 Table 20.7). -/
def doResetN (level : Bool) (ns : Nat) (s : State) : State :=
  let s : State := { s with pins := { s.pins with resetN := level } }
  if level || s.inReset || decide (ns < 100) then s
  else if 1000 ≤ ns then s.deviceReset 1
  else s.shortPulse ns (fun s => s.deviceReset 1)

/-- A write of RESET_CMD. -/
def State.resetCmd (s : State) (v : Nat) : State := if v = 0xA5 then s.deviceReset 2 else s

/-- RESET_EXIT: with RESET_N high the device leaves reset; a low MOOR_N or THERMTRIP_N moors it before a core runs (18 R423, 20 R462). -/
def doResetExit (s : State) : State :=
  if !s.inReset || !s.pins.resetN || !s.pins.pwrgood then s
  else
    let s : State := { s with inReset := false }
    if !s.pins.moorN then s.moor 0x40 else if !s.pins.thermIn then s.moor 0x42 else s

/-- PWRGOOD_FALL: into reset, without the steps of Table 18.6. -/
def doPwrgoodFall (s : State) : State :=
  let s := s.enterReset
  { s with pins := { s.pins with pwrgood := false } }

/-! ### Tallies and the logbook (R447–R451) -/

/-- The path an arm belongs to: the dictionary window is one path whoever uses it. -/
def armPath : Path → Path
  | .dictWin _ => .dictWin none
  | p => p

/-- AUTH and SOURCE of a path (Table 19.12). -/
def pathAuth : Path → Nat × Nat
  | .helm n => (1, n)
  | .pf => (2, 0)
  | .dictWin (some k) => (3, k)
  | .dictWin none => (3, 0)
  | .jtag => (4, 0)
  | _ => (0, 0)

/-- A logbook entry (Table 19.12). -/
def logEntry (tally auth source time old new : Nat) : Nat :=
  tally % 16 * 2 ^ 124 + auth % 16 * 2 ^ 120 + source % 2 ^ 16 * 2 ^ 104 + time % 2 ^ 64 / 2 ^ 24 * 2 ^ 64 + old % 2 ^ 32 * 2 ^ 32 + new % 2 ^ 32

/-- A write of TALLY_ARM. -/
def State.armTally (s : State) (p : Path) (v : Nat) : State :=
  if 1 ≤ v ∧ v ≤ 5 then { s with arms := s.arms.filter (fun a => a.path != armPath p) ++ [{ path := armPath p, tally := v, tick := s.time }] } else s

/-- Whether a tally may take a value: in its values and in its direction, with a change left (Table 19.11). -/
def State.tallyOk (s : State) (t v : Nat) : Bool :=
  let old := s.tally t
  decide (1 ≤ s.tally (0x10 + t)) &&
    match t with
    | 1 => decide (v ≤ 0xFFFF) && v != old
    | 2 => decide (v ≤ 32) && v == old + 1
    | 3 => decide (v < 2 ^ 32) && decide (old < v)
    | 4 => decide (v ≤ 8) && decide (old < v)
    | 5 => decide (v ≤ 2) && decide (old < v)
    | _ => false

/-- Whether the path's arm admits a write of tally `t` now: armed within the previous second. -/
def State.armed (s : State) (p : Path) (t : Nat) : Bool :=
  s.arms.any (fun a => a.path == armPath p && a.tally == t && decide (s.time ≤ a.tick + 100000000))

/-- A write of a tally: it consumes the path's arm; accepted, its logbook entry is programmed first. -/
def State.writeTally (s : State) (p : Path) (t v : Nat) : State :=
  let ok := s.armed p t && s.tally 5 != 2 && s.tallyRun.isNone && s.tallyOk t v && (p != .jtag || s.tally 5 == 0)
  let s : State := { s with arms := s.arms.filter (fun a => a.path != armPath p) }
  if ok then
    let au := pathAuth p
    { s with logbook := s.logbook ++ [logEntry t au.1 au.2 s.time (s.tally t) v], tallyRun := some { tally := t, value := v } }
  else s

/-- FREQ_CEILING takes effect: a divisor below the new lowest moves there; in every case the set point is the new one. -/
def State.newCeiling (s : State) : State :=
  let low := lowestDiv s.ceiling
  let s : State := { s with clkRun := s.clkRun.map (max low), clkWant := s.clkWant.map (max low) }
  if s.coreDiv < low then s.askDiv low
  else match s.clkRun with | some d => s.setVdd d | none => s.setVdd s.coreDiv

/-- TALLY_PROGRAMMED: the tally takes its value and a change is spent. -/
def doTallyProgrammed (s : State) : State :=
  match s.tallyRun with
  | none => s
  | some r =>
    let s := (({ s with tallyRun := none } : State).setTally r.tally r.value).setTally (0x10 + r.tally) (s.tally (0x10 + r.tally) - 1)
    if r.tally = 4 ∧ !s.inReset then s.newCeiling else s

/-- POWER_ON_RESET: PWRGOOD rises. A tally whose logbook entry was programmed is completed (R449). -/
def doPowerOnReset (thermtripLow : Bool) (s : State) : State :=
  let s := match s.tallyRun with
    | none => s
    | some r => (({ s with tallyRun := none } : State).setTally r.tally r.value).setTally (0x10 + r.tally) (s.tally (0x10 + r.tally) - 1)
  ({ pending := s.pending, seqNo := s.seqNo, fresh := s.fresh, mem := s.mem, tallies := s.tallies, logbook := s.logbook, helmTx := s.helmTx,
     inReset := true,
     pins := { s.pins with pwrgood := true, thermIn := !thermtripLow, thermOut := false, lantern := false, mpPerst := 0, idle := true } } : State).setEnt
    0x5000 0x02 (s.tally 1)

/-! ### Boot (R443–R446) -/

/-- A boot step's trace record (R452). -/
def State.traceBoot (s : State) (n : Nat) : State := s.traceRecord (Config.bootTrace n).1 n (Config.bootTrace n).2

/-- A step that fails: HALTED with its code. -/
def State.haltBoot (s : State) (code : Nat) : State := (s.setEnt 0x2200 0x03 3).setEnt 0x2200 0x04 code

/-- Boot has halted in the helm ROM (R444): before the firmware started. -/
def State.romHalted (s : State) : Bool := s.ent 0x2200 0x03 == 3 && decide (s.bootStep ≤ 2)

/-- The check of one copy (R444): 0, or the code of Table 9.11. -/
def State.imageCheck (s : State) (bs : List Byte) : Nat :=
  let len := leAt bs 0x10 4
  let layout := bs.take 4 == [0x56, 0x5A, 0x42, 0x46] && leAt bs 4 2 == 1 && allZero ((bs.drop 0x0A).take 2) && allZero ((bs.drop 0x18).take 40) &&
    decide (4096 ≤ len) && decide (len ≤ 2031616) && len % 4 == 0 && decide (64 + len + 96 ≤ bs.length)
  let c := signedCheck s layout bs (64 + len)
  if c != 0 then c else if leAt bs 0x14 4 < len then 0 else 0x01

/-- The image that boots: its copy and VERSION, or the code of the last copy checked (NOIMAGE where the flash holds none). -/
def State.chooseImage (s : State) (f : FlashImages) : Except Nat (Nat × Nat) :=
  let a := s.imageCheck f.copyA
  let b := s.imageCheck f.copyB
  let okA := !f.copyA.isEmpty && a == 0
  let okB := !f.copyB.isEmpty && b == 0
  let va := leAt f.copyA 0x0C 4
  let vb := leAt f.copyB 0x0C 4
  if okA && (!okB || decide (vb ≤ va)) then .ok (0, va)
  else if okB then .ok (1, vb)
  else .error (if !f.copyB.isEmpty then b else if !f.copyA.isEmpty then a else 0x09)

/-- Step 2: the image is chosen and started. -/
def State.bootImage (s : State) (f : FlashImages) : State :=
  if s.tally 5 = 2 then s.haltBoot 0x0A
  else match s.chooseImage f with
    | .error c => s.haltBoot c
    | .ok (k, v) => (s.setEnt 0x2200 0x05 k).setEnt 0x2200 0x06 v

/-- Step 3: CORE_DIV and VDD_CORE for the ceiling point. -/
def State.bootClocks (s : State) : State := ((s.setEnt 0x2200 0x03 1).setEnt 0x2000 0x03 (lowestDiv s.ceiling)).setVdd (lowestDiv s.ceiling)

/-- Step 5 fails only when no port is ACTIVE: the lowest port whose reason is not NODEV, or NOMEMORY. -/
def State.bootPorts (s : State) : Option Nat :=
  if (upTo nPorts).any (fun p => s.portState p == psACTIVE) then none
  else match (upTo nPorts).find? (fun p => s.ent (portIdx p) 0x02 != 1) with
    | some p => some (0x10 + p)
    | none => some 0x20

/-- A port that reaches ACTIVE in step 5 is given INIT. -/
def State.bootInit (s : State) (p : Nat) : State :=
  if s.bootStep == 5 && s.ent 0x2200 0x03 == 1 && s.portState p == psACTIVE then doInit p s else s

/-- Step 6: a patch in the flash is staged, and its load starts. -/
def State.bootPatch (s : State) (f : FlashImages) : State :=
  match f.patch with
  | none => s
  | some bs =>
    let s : State := { s with stage := (upTo (min bs.length 65536)).foldl (fun m i => SMap.set (fun _ => 0) m i ((listAt bs i).getD 0)) s.stage }
    s.patchCmd 1

/-- Step 7: the links of pair `n` are started. -/
def State.bootPair (s : State) (n : Nat) : State :=
  let s : State := { s with pins := { s.pins with idle := false } }
  doLkEnable (2 * n + 1) true (doLkEnable (2 * n) true s)

/-- The yard's initial context (R446, 03 R61). -/
def yardContext (base ver startPc : Nat) : NewCtx :=
  { base := base, ver := ver, pcc := (Cap.ofGran rootCodeYard).withAddr (startPc % 2 ^ 48), status := mkStatus 0 2 2 false false,
    regs := [(1, rootMemory), (2, rootCodeYard), (3, rootSealing), (4, rootDevice)], stackPerms := 0xDC4 }

/-- A write of YARD_GO: accepted in FIRMWARE, while the yard's initial context does not exist. -/
def State.yardGo (s : State) (v : Nat) : State :=
  if v != 1 || s.ent 0x2200 0x03 != 1 || s.living (s.ent (berthIdx 0) 0x14) then s
  else
    let r := s.createFirst 0 (fun base ver => yardContext base ver (s.app (berthIdx 0) 0x06))
    if r.2 = 0 then r.1 else r.1.haltBoot r.2

/-- Steps 7 and 8: SOUND_BUF is placed and sounding starts; START_PC and START_REGION of B0 are committed; YARD_GO is written. -/
def State.bootYard (s : State) : State :=
  let s := (s.setEnt 0x5000 0x07 (Config.soundBuf.1 % 2 ^ 64 / 4096 * 4096)).setEnt 0x5000 0x08 (Config.soundBuf.2 % 2 ^ 32)
  let s := doStartSounding s
  let s := (s.setEnt (berthIdx 0) 0x06 (Config.yardStart.1 % 2 ^ 64)).setEnt (berthIdx 0) 0x07 (Config.yardStart.2 % 2 ^ 64)
  let s := if s.berthCheck 0 = 0 then s.berthApply 0 else s
  s.yardGo 1

/-- BOOT: the next step of Table 19.9. A step that waits for ports in training or for a patch's checks leaves the state. -/
def doBoot (f : FlashImages) (s : State) : State :=
  if s.inReset || s.ent 0x6000 0x02 == 1 || decide (2 ≤ s.ent 0x2200 0x03) then s
  else
    let done (n : Nat) (s : State) : State := { s with bootStep := n }
    match s.bootStep with
    | 0 => done 1 ((s.setEnt 0x2000 0x01 1).traceBoot 1)
    | 1 => done 2 ((s.bootImage f).traceBoot 2)
    | 2 => done 3 (s.bootClocks.traceBoot 3)
    | 3 => done 4 (s.traceBoot 4)
    | 4 => done 5 (((upTo nPorts).foldl (fun s p => doTrain p s) s).traceBoot 5)
    | 5 =>
      if s.anyTraining || (upTo nPorts).any (fun p => (s.port p).trainWait) then s
      else match s.bootPorts with
        | some c => s.haltBoot c
        | none => done 6 ((s.bootPatch f).traceBoot 6)
    | 6 => if s.patchRun.isSome then s else done 7 ((s.bootPair 0).traceBoot 7)
    | 12 => done 13 (s.bootYard.traceBoot 8)
    | n => if 7 ≤ n ∧ n < 12 then done (n + 1) (s.bootPair (n - 6)) else s

end Sys2Proof.Machine
end

