-- ==== Sys2Proof/Machine/Dict.lean ====
section
/-!
DEFINITION. The dictionary (17 R386–R393): values, rights by path, writes applied whole or not at all, commit groups.
-/

namespace Sys2Proof.Machine

/-! ### Status codes of a write (17 Table 17.10) -/

abbrev wsOK : Nat := 0x00
abbrev wsNOENTRY : Nat := 0x01
abbrev wsACCESS : Nat := 0x02
abbrev wsRANGE : Nat := 0x03
abbrev wsTYPE : Nat := 0x04
abbrev wsOVERLAP : Nat := 0x0C

/-! ### Gate states (17 R409, Table 17.14) -/

def State.winSize (s : State) (g : Nat) : Nat := s.ent (0x7000 + g) 0x02
def State.winBase (s : State) (g : Nat) : Nat := s.ent (0x7000 + g) 0x03

/-- Whether two slots' windows share a byte. -/
def State.gatesOverlap (s : State) (g h : Nat) : Bool :=
  g != h && s.winSize g != 0 && s.winSize h != 0 && decide (s.winBase g < s.winBase h + s.winSize h) &&
    decide (s.winBase h < s.winBase g + s.winSize g)

/-- OVERLAP_WITH: the lowest slot whose window this one overlaps. -/
def State.overlapWith (s : State) (g : Nat) : Nat := ((upTo 64).find? (s.gatesOverlap g)).getD 0xFF

/-- GATE_STATE. -/
def State.gateState (s : State) (g : Nat) : Nat :=
  if 56 ≤ g then 3 else if s.winSize g = 0 then 2 else if s.overlapWith g = 0xFF then 0 else 1

/-! ### Reads (R391) -/

/-- The entries of a berth that are read from the state. -/
def State.berthEntry (s : State) (b sub : Nat) : Nat :=
  match sub with
  | 0x10 => b2n (s.overQuota b)
  | 0x11 => (upTo nSheds).foldl (fun n h => n + s.resident h b) 0
  | 0x12 => s.recordsUse b
  | 0x13 => s.memUse b
  | 0x15 => (s.berth b).events.length
  | 0x57 => s.segsEntry b
  | 0x58 => s.xtabUse b
  | _ => s.ent (berthIdx b) sub

/-- The number that an entry holds, before its access code. -/
def State.entryNum (s : State) (idx sub : Nat) : Nat :=
  if 0x3100 ≤ idx ∧ idx < 0x3140 then s.berthEntry (idx - 0x3100) sub
  else if 0x5010 ≤ idx ∧ idx < 0x501C ∧ sub = 0x07 then Config.lkMedia (idx - 0x5010) % 4
  else if 0x7000 ≤ idx ∧ idx < 0x7040 ∧ sub = 0x07 then s.gateState (idx - 0x7000)
  else if 0x7000 ≤ idx ∧ idx < 0x7040 ∧ sub = 0x08 then s.overlapWith (idx - 0x7000)
  else
    match idx, sub with
    | 0x1000, 0x03 => Config.serial.toNat
    | 0x1000, 0x06 => Config.helmAddr % 128
    | 0x1000, 0x13 => s.sessions.length
    | 0x1100, 0x20 => s.logbook.length
    | 0x1100, n => s.tally n
    | 0x5000, 0x19 => (s.slots.filter (fun e => e.2.isSome)).length
    | 0x8000, 0x03 => s.tally 3
    | 0xA000, 0x01 => if s.time = 0 then 0 else Config.powerIn s.time % 2 ^ 32
    | 0xA000, 0x02 => if s.time = 0 then 0 else Config.tjAvg s.time % 2 ^ 32
    | 0xA000, 0x03 => s.time / 100000000
    | _, _ => s.ent idx sub

/-- The bytes of a STR or OCT entry. -/
def State.entryBytes (s : State) (idx sub : Nat) : List Byte :=
  if idx = 0x1000 ∧ sub = 0x04 then strBytes "Igneur"
  else if idx = 0x1000 ∧ sub = 0x05 then strBytes "VZ-5160-AF"
  else if 0x7000 ≤ idx ∧ idx < 0x7040 then gateUnit (idx - 0x7000)
  else leBytes 8 (s.ent idx sub)

/-- What a read of an entry returns: WO reads 0. -/
def State.entryValue (s : State) (idx sub : Nat) : Option EVal :=
  match entryInfo idx sub with
  | none => none
  | some (_, .wo) => some (.num 0)
  | some (.str, _) | some (.oct, _) => some (.bytes (s.entryBytes idx sub))
  | some (.dom, _) => some (.num 0)
  | some _ => some (.num (s.entryNum idx sub))

/-- What a window or BAR register shows of an entry: 8 bytes, sign-extended for I32; a DOM and an undefined entry read 0. -/
def State.entryReg (s : State) (idx sub : Nat) : Word64 :=
  match entryInfo idx sub, s.entryValue idx sub with
  | some (.dom, _), _ => 0
  | some (.i32, _), some (.num n) => (BitVec.ofNat 32 n).signExtend 64
  | _, some (.num n) => w64 n
  | _, some (.bytes b) => w64 (leNat (b.take 8))
  | _, none => 0

/-! ### Rights (Tables 17.2 and 17.3, 12 R296, 16 R383) -/

/-- Host software and debug in band, and Y contexts. -/
def inBand : Path → Bool
  | .pf | .dictWin _ | .jtag => true
  | _ => false

/-- The entries that a VF and an S context may write in their own berth's index (12 R296, 16 R383). -/
def berthSupEntry (sub : Nat) : Bool :=
  [0x08, 0x09, 0x14, 0x16, 0x19, 0x4D, 0x4E, 0x4F, 0x50, 0x51, 0x52].contains sub

/-- Whether a path reaches an index at all. -/
def pathReaches (p : Path) (idx : Nat) : Bool := match p with | .vf n => decide (1 ≤ n) && decide (n < 64) && idx == 0x3100 + n | _ => true

/-- Whether a path may write an entry, beyond its access code. -/
def pathWrites (p : Path) (idx sub : Nat) : Bool :=
  match p with
  | .helm _ => true
  | .vf _ => berthSupEntry sub
  | .fabric _ => decide (0x3100 ≤ idx) && idx / 0x1000 != 6 && idx / 0x1000 != 7 && idx / 0x1000 != 0xA
  | _ => if idx = 0x1000 then sub == 0x19 || (match helmInfo sub with | some (_, .w1c) => true | _ => false) else true

/-- Whether a door still works: a halted boot serves the Helm bus and the PF BAR alone (19 R444); while moored the host port answers with
Completer Abort and no core issues (18 R421); the host needs its link. -/
def State.pathWorks (s : State) (p : Path) : Bool :=
  let moored := s.ent 0x6000 0x02 == 1
  match p with
  | .helm _ => true
  | .jtag => !s.romHalted
  | .pf => s.host.link && !moored
  | .vf _ | .dictWin none => s.host.link && !moored && !s.romHalted
  | .dictWin (some _) | .fabric _ => !moored && !s.romHalted

/-- The ranges that a boot halted in the ROM serves (19 R444). -/
def State.served (s : State) (idx : Nat) : Bool := !s.romHalted || idx == 0x1000 || idx == 0x1100 || idx == 0x2200 || idx == 0x9000

/-- Whether an entry takes writes while the device is moored (18 R422). -/
def mooredWrites (idx sub : Nat) : Bool :=
  (idx == 0x6000 && sub != 0x05 && sub != 0x0C) || idx == 0x2200 || idx == 0x9000 || (idx == 0x1000 && decide (0x10 ≤ sub) && decide (sub ≤ 0x17))

/-- A read on a path: the value, or the status. -/
def State.dictRead (s : State) (p : Path) (idx sub : Nat) : Except Nat EVal :=
  if !s.pathWorks p || !s.served idx || !pathReaches p idx then .error wsNOENTRY
  else
    match entryInfo idx sub, s.entryValue idx sub with
    | some (.dom, _), _ => .error wsTYPE
    | _, some v => .ok v
    | _, none => .error wsNOENTRY

/-! ### Commit groups (R392, R393) -/

/-- The group an entry belongs to, by the index of its commit entry. -/
def groupOf (idx : Nat) : Option Nat :=
  if 0x3100 ≤ idx ∧ idx < 0x3140 then some idx
  else if 0x4000 ≤ idx ∧ idx < 0x4010 then some 0x4000
  else if idx = 0x5100 then some 0x5100
  else none

/-- Whether a group's commit runs. -/
def State.committing (s : State) (idx : Nat) : Bool := match groupOf idx with | some g => s.commits.any (fun c => c.index == g) | none => false

/-- A group's own result entry, and LAST_RESULT where the group was committed last. -/
def State.commitResult (s : State) (g code : Nat) : State :=
  let s := if 0x3100 ≤ g ∧ g < 0x3140 then s.setEnt g 0x1E code else if g = 0x5100 then s.setEnt 0x5100 0x05 code else s
  if s.ent 0xF000 0x01 = g then s.setEnt 0xF000 0x02 code else s

/-- The group's checks: 0, or its code. -/
def State.commitCheck (s : State) (g : Nat) : Nat :=
  if g = 0x4000 then s.mapCheck else if g = 0x5100 then s.chartCheck true else s.berthCheck (g - 0x3100)

/-- The staged values take effect. -/
def State.commitApply (s : State) (g : Nat) : State :=
  if g = 0x4000 then s.applyMap else if g = 0x5100 then s.applyCharts else s.berthApply (g - 0x3100)

/-- A write of a commit entry: refused at once by its checks, or running until its quiescent point. -/
def State.startCommit (s : State) (p : Path) (g : Nat) : State :=
  let s := s.setEnt 0xF000 0x01 g
  let c := s.commitCheck g
  let s := if c = 0 then (({ s with commits := s.commits ++ [{ index := g, path := p }] } : State).commitResult g 0xFF)
    else (s.bump 0xF000 0x04 32 1).commitResult g c
  match p with
  | .helm _ => (s.setEnt 0x1000 0x17 (Nat.lor (s.ent 0x1000 0x17) 4)).signalDev 22 41
  | _ => s

/-- QUIESCENT_POINT: a running commit applies. -/
def doQuiescentPoint (g : Nat) (s : State) : State :=
  if s.commits.any (fun c => c.index == g) then
    (((({ s with commits := s.commits.filter (fun c => c.index != g) } : State).commitApply g).bump 0xF000 0x03 32 1)).commitResult g 0
  else s

/-- QUIESCE_LIMIT: a running commit is refused QUIESCE. -/
def doQuiesceLimit (g : Nat) (s : State) : State :=
  if s.commits.any (fun c => c.index == g) then
    ((({ s with commits := s.commits.filter (fun c => c.index != g) } : State).bump 0xF000 0x04 32 1)).commitResult g 0x01
  else s

/-- DISCARD: the applied values of a group become its staged ones. -/
def State.discardGroup (s : State) (g : Nat) : State :=
  if g = 0x4000 then (upTo nPorts).foldl (fun s p => portRws.foldl (fun s e => s.setEnt (portIdx p) e (s.app (portIdx p) e)) s) s
  else if g = 0x5100 then (upTo 256).foldl (fun s i => (s.setChart 0 i (s.chart 2 i)).setChart 1 i (s.chart 3 i)) s
  else berthRws.foldl (fun s e => s.setEnt g e (s.app g e)) s

/-! ### Writes (R387) -/

/-- A write that the path may not make: ignored, and counted. -/
def State.refuseWrite (s : State) : State × Nat := (s.bump 0x1000 0x16 32 1, wsACCESS)

/-- The values that the WO entries act on; other values are reserved (R13). -/
def commandRange (idx sub v : Nat) : Bool :=
  if 0x3100 ≤ idx ∧ idx < 0x3140 then
    match sub with
    | 0x02 => within v 1 5
    | 0x52 => within v 1 4
    | _ => true
  else if 0x4000 ≤ idx ∧ idx < 0x4010 then (if sub = 0x08 then within v 1 5 && (v != 4 || idx % 2 == 0) else true)
  else if 0x5010 ≤ idx ∧ idx < 0x501C then (if sub = 0x0F then within v 1 3 else true)
  else if 0x7000 ≤ idx ∧ idx < 0x7040 then (if sub = 0x13 then v == 1 else true)
  else
    match idx, sub with
    | 0x1100, 0x10 => within v 1 5
    | 0x2200, 0x01 => v == 0xA5
    | 0x2200, 0x07 => v == 1
    | 0x5000, 0x04 => within v 1 3
    | 0x6000, 0x05 => v == 0x4D
    | 0x6000, 0x0B => v == 1
    | 0x6000, 0x0C => injectRange v
    | 0x8000, 0x06 => within v 1 2
    | 0xF000, 0x06 => groupOf v == some v
    | _, _ => true

/-- LOCK keeps an entry (R410): while LOCK is 1, but for a write of 0 to LOCK while LIFECYCLE is MANUFACTURE. -/
def State.lockedEntry (s : State) (idx sub v : Nat) : Bool :=
  decide (0x7000 ≤ idx) && decide (idx < 0x7040) && s.ent idx 0x06 == 1 &&
    (sub == 0x03 || sub == 0x04 || sub == 0x05 || sub == 0x09 || (sub == 0x06 && !(v == 0 && s.tally 5 == 0)))

/-- A write of WIN_BASE: applied; two windows that newly overlap are a Gate Overlap fault (R409). -/
def State.writeBase (s : State) (g v : Nat) : State × Nat :=
  let before := (upTo 64).filter (s.gatesOverlap g)
  let s := s.setEnt (0x7000 + g) 0x03 v
  if (upTo 64).any (fun h => s.gatesOverlap g h && !before.contains h) then
    (s.raise { bit := 47, kind := .contained, source := 55, master := 2 }, wsOVERLAP)
  else (s, wsOK)

/-- A write of EVENT_CORE: what is pending there moves with it (07 R158, R159). -/
def State.writeEventCore (s : State) (g v : Nat) : State :=
  let old := s.eventCore g
  let moved := (s.core old).devPend.filter (fun e => e.2 == g)
  let s := (s.setEnt (0x7000 + g) 0x09 v).updCore old (fun c => { c with devPend := c.devPend.filter (fun e => e.2 != g) })
  moved.foldl (fun s e => s.signalDev e.2 e.1) s

/-- A W1C write: each 1 bit clears. -/
def State.clearBits (s : State) (idx sub v : Nat) : State := let o := s.ent idx sub; s.setEnt idx sub (o - Nat.land o v)

/-- A W1C write of a cause entry: its event ends when no cause is left (07 R159). -/
def State.clearCause (s : State) (idx sub v slot cause : Nat) : State :=
  let s := s.clearBits idx sub v
  if s.ent idx sub = 0 then s.unsignalDev slot cause else s

/-- A write of a berth's entry. -/
def State.applyBerth (s : State) (p : Path) (b sub v : Nat) : State :=
  match sub with
  | 0x02 => s.berthCmd b v
  | 0x52 =>
    (match v with
     | 1 => doMinorCycle b s
     | 2 => doMajorCycle b s
     | 3 => doSweep b s
     | _ => doClearStatistics b s)
  | 0x4D => (s.setEnt (berthIdx b) sub v).tryMinor b
  | 0x51 => (s.setEnt (berthIdx b) sub v).trySweep b
  | 0x55 => doObjClaim b v s
  | 0xFF => s.startCommit p (berthIdx b)
  | _ => s.setEnt (berthIdx b) sub v

/-- A write of a port's entry. -/
def State.applyPort (s : State) (pa : Path) (p sub v : Nat) : State :=
  match sub with
  | 0x08 =>
    (match v with
     | 1 => doTrain p s
     | 2 => doInit p s
     | 3 => doOff p s
     | 4 => doResync p s
     | _ => doFlush p s)
  | 0x16 => if p % 2 = 1 then s else s.setEnt (portIdx p) sub v
  | 0xFF => s.startCommit pa 0x4000
  | _ => s.setEnt (portIdx p) sub v

/-- A write of a link's entry. -/
def State.applyLink (s : State) (k sub v : Nat) : State :=
  match sub with
  | 0x01 => doLkEnable k (v == 1) s
  | 0x0F =>
    (match v with
     | 1 => doRetrain k s
     | 2 => doTakeDown k s
     | _ => doRetrainFull k s)
  | _ => s.setEnt (lkIdx k) sub v

/-- A write of a gate slot's entry. -/
def State.applyGate (s : State) (g sub v : Nat) : State × Nat :=
  let i := 0x7000 + g
  match sub with
  | 0x03 => s.writeBase g v
  | 0x09 => (s.writeEventCore g v, wsOK)
  | 0x13 => (((s.setEnt i 0x10 0).setEnt i 0x11 0).setEnt i 0x12 0, wsOK)
  | 0xF0 => (s.setEnt 0x7000 0xF1 1, wsOK)
  | _ => (s.setEnt i sub v, wsOK)

/-- A write of HOST_DOORBELL. -/
def State.doorbell (s : State) (v : Nat) : State := ((s.setEnt 0x1000 0x19 v).setEnt 0x1000 0x18 (Nat.lor (s.ent 0x1000 0x18) 1)).signalDev 23 42

/-- A write of PATCH_CMD, which the Helm bus tells of in HELM_EVENT_CAUSE. -/
def State.applyPatch (s : State) (p : Path) (v : Nat) : State :=
  let s := s.patchCmd v
  match p with
  | .helm _ => (s.setEnt 0x1000 0x17 (Nat.lor (s.ent 0x1000 0x17) 16)).signalDev 22 41
  | _ => s

/-- A write of an entry of the single indexes. -/
def State.applyOne (s : State) (p : Path) (idx sub v : Nat) : State :=
  match idx, sub with
  | 0x1000, 0x17 => s.clearCause 0x1000 0x17 v 22 41
  | 0x1000, 0x18 => s.clearCause 0x1000 0x18 v 23 42
  | 0x1000, 0x19 => s.doorbell v
  | 0x1100, 0x10 => s.armTally p v
  | 0x1100, t => s.writeTally p t v
  | 0x2000, 0x02 => s.reqDiv v
  | 0x2200, 0x01 => s.resetCmd v
  | 0x2200, 0x07 => s.yardGo v
  | 0x5000, 0x04 => (match v with | 1 => doStartSounding s | 2 => doRebuildCharts s | _ => doStopSounding s)
  | 0x5000, 0x21 => s.clearCause 0x5000 0x21 v 24 43
  | 0x5100, 0xFF => s.startCommit p 0x5100
  | 0x6000, 0x01 => s.clearStatus v
  | 0x6000, 0x05 => s.moorCmd v
  | 0x6000, 0x0B => s.feClear v
  | 0x6000, 0x0C => s.injectWrite v
  | 0x8000, 0x06 => s.applyPatch p v
  | 0xF000, 0x06 => s.discardGroup v
  | _, _ => s.setEnt idx sub v

/-- A write that nothing stands against. -/
def State.applyEntry (s : State) (p : Path) (idx sub v : Nat) : State × Nat :=
  let v := entryMask idx sub v
  if 0x7000 ≤ idx ∧ idx < 0x7040 ∧ sub ≠ 0x14 then s.applyGate (idx - 0x7000) sub v
  else if (match entryInfo idx sub with | some (_, .w1c) => true | _ => false) && (idx != 0x1000 || (sub != 0x17 && sub != 0x18)) &&
      (idx != 0x5000 || sub != 0x21) && (idx != 0x6000 || sub != 0x01) then (s.clearBits idx sub v, wsOK)
  else if 0x3100 ≤ idx ∧ idx < 0x3140 then (s.applyBerth p (idx - 0x3100) sub v, wsOK)
  else if 0x4000 ≤ idx ∧ idx < 0x4010 then (s.applyPort p (idx - 0x4000) sub v, wsOK)
  else if 0x5010 ≤ idx ∧ idx < 0x501C then (s.applyLink (idx - 0x5010) sub v, wsOK)
  else (s.applyOne p idx sub v, wsOK)

/-- Whether a tally write is ignored, and counted, whatever its value. -/
def State.tallyBarred (s : State) (p : Path) (a : EAcc) : Bool := a == .tal && p == .jtag && s.tally 5 != 0

/-- A write by a path with the rights to it. -/
def State.setEntry (s : State) (p : Path) (idx sub v : Nat) : State × Nat :=
  match entryInfo idx sub with
  | none => (s, wsNOENTRY)
  | some (t, a) =>
    if t = .dom then (s, wsTYPE)
    else if a = .ro ∨ s.tallyBarred p a ∨ (s.ent 0x6000 0x02 = 1 ∧ !mooredWrites idx sub) then s.refuseWrite
    else if !typeOk t v || !entryRange idx sub v || !commandRange idx sub v then
      (if a = .tal then s.writeTally p sub v else s, wsRANGE)
    else if s.lockedEntry idx sub v || ((a = .rws ∨ (sub = 0xFF ∧ a = .wo)) ∧ s.committing idx) ||
        (idx = 0xF000 ∧ sub = 0x06 ∧ s.committing v) then s.refuseWrite
    else if a = .tal ∧ !(s.armed p sub && s.tally 5 != 2 && s.tallyRun.isNone && s.tallyOk sub v) then (s.writeTally p sub v, wsRANGE)
    else if idx = 0x2000 ∧ sub = 0x02 ∧ v < lowestDiv s.ceiling then (s, wsRANGE)
    else s.applyEntry p idx sub v

/-- A write on a path, of every index but the data port's. -/
def State.dictSet (s : State) (p : Path) (idx sub : Nat) (v : EVal) : State × Nat :=
  if !s.pathWorks p || !s.served idx || !pathReaches p idx then (s, wsNOENTRY)
  else
    match entryInfo idx sub with
    | none => (s, wsNOENTRY)
    | some _ =>
      if !pathWrites p idx sub then s.refuseWrite
      else match v with
        | .num n => s.setEntry p idx sub n
        | .bytes _ => (s, wsTYPE)

end Sys2Proof.Machine
end

