-- ==== Sys2Proof/Machine/DataPort.lean ====
section
/-!
DEFINITION. The data port (17 R394–R397): instances, bursts, spaces.
-/

namespace Sys2Proof.Machine

abbrev dpABORTED : Nat := 0x0E
abbrev dpNOTARGET : Nat := 0x09
abbrev dpFAULT : Nat := 0x0B
abbrev dpDIRECTION : Nat := 0x0F
abbrev dpBUSY : Nat := 0x07
abbrev dpRUNS : Nat := 0xFF

/-- The number of an instance: the shared one, the PF BAR's, a VF BAR's, a session's. -/
def dpKey : DpInst → Nat
  | .win => 0
  | .pf => 1
  | .vf n => 2 + n
  | .helm n => 128 + n

/-- The instance that a path uses (R394). -/
def pathInst : Path → DpInst
  | .helm n => .helm n
  | .pf => .pf
  | .vf n => .vf n
  | _ => .win

def State.dport (s : State) (i : DpInst) : DPort := SMap.get (fun _ => {}) s.dports (dpKey i)
def State.setDport (s : State) (i : DpInst) (d : DPort) : State := { s with dports := SMap.set (fun _ => {}) s.dports (dpKey i) d }

/-- Whether the door of an instance works (19 R444, 18 R421). -/
def State.instWorks (s : State) (i : DpInst) : Bool :=
  let moored := s.ent 0x6000 0x02 == 1
  match i with
  | .helm _ => true
  | .pf => s.host.link && !moored
  | .vf n => decide (1 ≤ n) && decide (n < 64) && s.host.link && !moored && !s.romHalted
  | .win => !s.romHalted

/-- A burst ends with a status. -/
def DPort.ends (d : DPort) (status : Nat) : DPort := { d with status := status, burst := none }

/-! ### DP_ADDR and DP_LEN (R395, R396) -/

/-- A write of DP_ADDR; a running burst ends with ABORTED. -/
def State.dpSetAddr (s : State) (i : DpInst) (v : Nat) : State × Nat :=
  if 2 ^ 64 ≤ v ∨ 4 < v / 2 ^ 56 ∨ v % 8 ≠ 0 then (s, wsRANGE)
  else
    let d := s.dport i
    let d := if d.burst.isSome then d.ends dpABORTED else d
    (s.setDport i { d with addr := v }, wsOK)

/-- Whether an instance may use a space (Table 17.6; 19 R444). -/
def State.spaceOk (s : State) (i : DpInst) (space : Nat) : Bool :=
  (!s.romHalted || space == 4) && (match i with | .vf _ => space == 0 | _ => true)

/-- A write of DP_LEN: it arms a burst, or ends the one that runs. -/
def State.dpSetLen (s : State) (i : DpInst) (v : Nat) : State × Nat :=
  if 2 ^ 32 ≤ v ∨ v % 8 ≠ 0 then (s, wsRANGE)
  else
    let d := s.dport i
    if d.burst.isSome then (s.setDport i { d.ends dpABORTED with len := v }, wsOK)
    else
      let d : DPort := { d with len := v, remain := v }
      if v = 0 then (s.setDport i (d.ends wsOK), wsOK)
      else if !s.spaceOk i (d.addr / 2 ^ 56) then (s.setDport i (d.ends wsACCESS), wsOK)
      else (s.setDport i { d with status := dpRUNS, burst := some { left := v } }, wsOK)

/-! ### Spaces (Table 17.6, R397) -/

/-- The status that a failed access of memory ends a burst with. -/
def dpStatus (e : Exc) : Nat := if e.cause = cBUS ∧ e.subcode = beNOTARGET then dpNOTARGET else dpFAULT

/-- The granule of a MEMORY access: at its physical address, or in a VF's berth with forwards followed. -/
def State.dpTarget (s : State) (i : DpInst) (off : Nat) : State × Except Nat Target :=
  if s.ent 0x6000 0x02 = 1 then (s, .error dpNOTARGET)
  else
    match i with
    | .vf n =>
      if 2 ^ 48 ≤ off then (s, .error dpNOTARGET)
      else match s.homeTarget n 0 off with
        | (s, .ok t) => (s, .ok t)
        | (s, .error e) => (s, .error (dpStatus e))
    | _ =>
      if 2 ^ 52 ≤ off then (s, .error dpNOTARGET)
      else match s.homeRead 0 (off / 16 * 16) with
        | (s, .ok m) => (s, .ok ⟨off / 16 * 16, off / 16 * 16, m, false⟩)
        | (s, .error e) => (s, .error (dpStatus e))

/-- One record of a MEMORY read: the payload, then the tag. It never waits. -/
def State.dpReadMem (s : State) (i : DpInst) (off : Nat) : State × Except Nat (List Byte) :=
  match s.dpTarget i off with
  | (s, .error e) => (s, .error e)
  | (s, .ok t) =>
    match readWord t.m.g (decide (off % 16 ≥ 8)) false with
    | .value v => (s, .ok (leBytes 8 v.lo.val.toNat ++ [v.lo.tag.setWidth 8]))
    | _ => (s, .error dpFAULT)

/-- One word of a MEMORY write, stored RAW as a word store; a VF's runs the barriers of a STW. -/
def State.dpWriteMem (s : State) (i : DpInst) (off v : Nat) : State × Except Nat Unit :=
  match s.dpTarget i off with
  | (s, .error e) => (s, .error e)
  | (s, .ok t) =>
    let g := t.m.g.writeWord (decide (off % 16 ≥ 8)) (TWord.raw (w64 v))
    match i with
    | .vf n => ((s.wordBarrier n t.m.g).homeStore t g, .ok ())
    | _ => (s.homeStore t g, .ok ())

/-- The bytes of an entry as a stream; the charts are 1,024 bytes (14 R332). The data port's own entries are no stream of entries. -/
def State.entryStream (s : State) (idx sub : Nat) : Except Nat (List Byte) :=
  match entryInfo idx sub with
  | none => .error wsNOENTRY
  | some (t, _) =>
    if idx = 0x9000 then .error wsACCESS
    else if t = .dom then .ok ((upTo 256).flatMap (fun i => leBytes 4 (s.chart (sub - 1) i)))
    else
      match s.entryValue idx sub with
      | some (.num n) => .ok (leBytes t.bytes n)
      | some (.bytes b) => .ok b
      | none => .error wsNOENTRY

/-- Eight bytes of a stream, zeros beyond its end; none where all of them lie beyond. -/
def eightBytes (bs : List Byte) (o : Nat) : Option (List Byte) :=
  if bs.length ≤ o then none else let x := (bs.drop o).take 8; some (x ++ List.replicate (8 - x.length) 0)

/-- The fields of an ENTRY offset. -/
def dpIndex (off : Nat) : Nat := nbits off 47 32
def dpSub (off : Nat) : Nat := nbits off 31 24
def dpByte (off : Nat) : Nat := nbits off 23 0

/-- The next bytes of a read. -/
def State.dpFetch (s : State) (i : DpInst) (addr : Nat) : State × Except Nat (List Byte) :=
  let off := addr % 2 ^ 56
  match addr / 2 ^ 56 with
  | 0 => s.dpReadMem i off
  | 1 =>
    if 2 ^ 48 ≤ off then (s, .error dpNOTARGET)
    else match s.entryStream (dpIndex off) (dpSub off) with
      | .error e => (s, .error e)
      | .ok bs => (s, match eightBytes bs (dpByte off) with | some x => .ok x | none => .error dpNOTARGET)
  | 2 => (s, if 65536 < off + 8 then .error dpNOTARGET else .ok (s.staged off 8))
  | 3 => (s, if 65536 < off + 8 then .error dpNOTARGET else .ok (leBytes 8 (SMap.get (fun _ => 0) s.trace (off / 16) / 2 ^ (8 * (off % 16)))))
  | _ => (s, if 4096 < off + 8 then .error dpNOTARGET else .ok (leBytes 8 ((listAt s.logbook (off / 16)).getD 0 / 2 ^ (8 * (off % 16)))))

/-- Eight bytes into an entry. -/
def State.dpWriteEntry (s : State) (p : Path) (off v : Nat) : State × Except Nat Unit :=
  let idx := dpIndex off
  let sub := dpSub off
  match entryInfo idx sub with
  | none => (s, .error wsNOENTRY)
  | some (t, a) =>
    if idx = 0x9000 then (s, .error wsACCESS)
    else if !pathWrites p idx sub || (t = .dom ∧ (a = .ro ∨ s.committing idx ∨ s.ent 0x6000 0x02 = 1)) then (s.refuseWrite.1, .error wsACCESS)
    else if t = .dom then
      let j := dpByte off / 4
      if 256 ≤ j then (s, .error dpNOTARGET)
      else ((s.setChart (sub - 1) j (v % 2 ^ 32)).setChart (sub - 1) (j + 1) (v / 2 ^ 32 % 2 ^ 32), .ok ())
    else if dpByte off ≠ 0 then (s, .error dpNOTARGET)
    else
      let r := s.setEntry p idx sub v
      (r.1, if r.2 = wsOK ∨ r.2 = wsOVERLAP then .ok () else .error r.2)

/-- Eight bytes of a write. -/
def State.dpStore (s : State) (i : DpInst) (p : Path) (addr v : Nat) : State × Except Nat Unit :=
  let off := addr % 2 ^ 56
  match addr / 2 ^ 56 with
  | 0 => s.dpWriteMem i off v
  | 1 => if 2 ^ 48 ≤ off then (s, .error dpNOTARGET) else s.dpWriteEntry p off v
  | 2 =>
    if 65536 < off + 8 then (s, .error dpNOTARGET)
    else if s.patchRun.isSome then (s, .error dpBUSY)
    else ({ s with stage := (upTo 8).foldl (fun m j => SMap.set (fun _ => 0) m (off + j) (BitVec.ofNat 8 (v / 2 ^ (8 * j)))) s.stage }, .ok ())
  | _ => (s, .error wsACCESS)

/-! ### The stream (R396) -/

/-- The last stream byte has passed. A Helm-bus write that completes is told in HELM_EVENT_CAUSE. -/
def State.dpComplete (s : State) (i : DpInst) (d : DPort) (b : Burst) : State :=
  let s := s.setDport i (d.ends (if b.wrong then dpDIRECTION else wsOK))
  match i, b.wr with
  | .helm _, some true => (s.setEnt 0x1000 0x17 (Nat.lor (s.ent 0x1000 0x17) 8)).signalDev 22 41
  | _, _ => s

/-- The burst fails at the word at DP_ADDR. -/
def State.dpFail (s : State) (i : DpInst) (status : Nat) : State :=
  let d := s.dport i
  s.setDport i { d.ends status with err := d.addr }

/-- An access against the direction is remembered; an access fixes a direction that stands open. -/
def State.dpTurn (s : State) (i : DpInst) (wr : Bool) : State × Bool :=
  let d := s.dport i
  match d.burst with
  | none => (s, false)
  | some b =>
    match b.wr with
    | some w => if w = wr then (s, true) else (s.setDport i { d with burst := some { b with wrong := true } }, false)
    | none =>
      if wr && decide (3 ≤ d.addr / 2 ^ 56) then (s.setDport i (d.ends wsACCESS), false)
      else
        (s.setDport i { d with burst := some { b with wr := some wr }, remain := if !wr && d.addr / 2 ^ 56 == 0 then d.len * 9 / 8 else d.remain }, true)

/-- One stream byte read; 0 once the burst has ended. -/
def State.dpReadByte (s : State) (i : DpInst) : State × Byte :=
  let d := s.dport i
  match d.burst with
  | none => (s, 0)
  | some b =>
    let f : State × Except Nat (List Byte) := match b.part with | [] => s.dpFetch i d.addr | l => (s, .ok l)
    match f with
    | (s, .error e) => (s.dpFail i e, 0)
    | (s, .ok []) => (s, 0)
    | (s, .ok (x :: xs)) =>
      let fresh := b.part.isEmpty
      let b : Burst := { b with part := xs, left := if fresh then b.left - 8 else b.left }
      let d : DPort := { d with addr := if fresh then d.addr + 8 else d.addr, remain := d.remain - 1, burst := some b }
      (if d.remain = 0 then s.dpComplete i d b else s.setDport i d, x)

/-- One stream byte written; discarded once the burst has ended. -/
def State.dpWriteByte (s : State) (i : DpInst) (p : Path) (x : Byte) : State :=
  let d := s.dport i
  match d.burst with
  | none => s
  | some b =>
    let part := b.part ++ [x]
    if part.length < 8 then s.setDport i { d with remain := d.remain - 1, burst := some { b with part := part } }
    else
      match s.dpStore i p d.addr (leNat part) with
      | (s, .error e) => s.dpFail i e
      | (s, .ok _) =>
        let b : Burst := { b with part := [], left := b.left - 8 }
        let d : DPort := { d with addr := d.addr + 8, remain := d.remain - 1, burst := some b }
        if d.remain = 0 then s.dpComplete i d b else s.setDport i d

/-- The next `n` bytes of a read stream. -/
def State.dpPull (s : State) (i : DpInst) : Nat → State × List Byte
  | 0 => (s, [])
  | n + 1 =>
    let r := s.dpReadByte i
    let q := r.1.dpPull i n
    (q.1, r.2 :: q.2)

/-- Bytes of a write stream. -/
def State.dpPush (s : State) (i : DpInst) (p : Path) : List Byte → State
  | [] => s
  | x :: xs => (s.dpWriteByte i p x).dpPush i p xs

/-- A load of `n` bytes from the aperture. -/
def State.dpLoad (s : State) (i : DpInst) (n : Nat) : State × List Byte :=
  let t := s.dpTurn i false
  if t.2 then t.1.dpPull i n else (t.1, List.replicate n 0)

/-- A store of bytes into the aperture. -/
def State.dpPut (s : State) (i : DpInst) (p : Path) (bs : List Byte) : State :=
  let t := s.dpTurn i true
  if t.2 then t.1.dpPush i p bs else t.1

/-! ### Its entries (Table 17.7) -/

/-- A read of an entry of index 0x9000; the aperture is no entry. -/
def State.dpEntry (s : State) (i : DpInst) (sub : Nat) : Option Nat :=
  let d := s.dport i
  match sub with
  | 0x01 => some d.addr
  | 0x02 => some d.len
  | 0x04 => some d.status
  | 0x05 => some d.remain
  | 0x06 => some d.err
  | _ => none

/-- A write of an entry of index 0x9000. -/
def State.dpSetEntry (s : State) (i : DpInst) (sub v : Nat) : State × Nat :=
  match sub with
  | 0x01 => s.dpSetAddr i v
  | 0x02 => s.dpSetLen i v
  | 0x04 | 0x05 | 0x06 => s.refuseWrite
  | n => (s, if n = 0x03 ∨ 0x80 ≤ n then wsTYPE else wsNOENTRY)

/-- A write on a path, of any index. -/
def State.dictWrite (s : State) (p : Path) (idx sub : Nat) (v : EVal) : State × Nat :=
  if idx = 0x9000 then
    if !s.pathWorks p then (s, wsNOENTRY)
    else match v with
      | .num n => s.dpSetEntry (pathInst p) sub n
      | .bytes _ => (s, wsTYPE)
  else s.dictSet p idx sub v

/-- A read on a path, of any index. -/
def State.dictReadAll (s : State) (p : Path) (idx sub : Nat) : Except Nat EVal :=
  if idx = 0x9000 then
    if !s.pathWorks p then .error wsNOENTRY
    else match s.dpEntry (pathInst p) sub with
      | some n => .ok (.num n)
      | none => .error (if sub = 0x03 ∨ 0x80 ≤ sub then wsTYPE else wsNOENTRY)
  else s.dictRead p idx sub

end Sys2Proof.Machine
end

