-- ==== Sys2Proof/Machine/Gates.lean ====
section
/-!
DEFINITION. Control space: the gates (17 R405–R411) and the windows behind them (08 R196, 10 R238, 11 R260, 12 R296, 16 R383, 17 R391).
-/

namespace Sys2Proof.Machine

/-- A master as the gates see it (17 Tables 17.14 and 17.15): its number, its LEVELS bit (none at U), its source, and the berth of a
stall. -/
structure Master where
  num : Nat
  bit : Option Nat
  source : Nat := 0
  stall : Option Nat := none
  berth : Nat := 0
  deriving DecidableEq, Repr

/-- A stall as master, by its PL. -/
def State.stallMaster (s : State) (k : Nat) : Master :=
  let st := (s.stall k).status
  let pl := stPL st
  { num := pl, bit := if pl = 2 then some 0 else if pl = 1 then some 1 else none, source := k, stall := some k, berth := stBerth st }

/-- A master other than a stall. -/
def ctlMaster : CtlMaster → Master
  | .helm n => { num := 3, bit := some 2, source := n }
  | .hostpf => { num := 4, bit := some 3 }
  | .debug => { num := 5, bit := some 4 }
  | .fabric n => { num := 6, bit := some 5, source := n }

/-- The path that a master's access through the dictionary window is (17 R389). -/
def Master.path (m : Master) : Path :=
  match m.num with
  | 5 => .jtag
  | 6 => .fabric m.source
  | _ => .dictWin m.stall

/-- Whether LEVELS admits a master at a slot: slot 16 admits stalls only, slot 20 never admits S (17 R405). -/
def State.levelAdmits (s : State) (g : Nat) (m : Master) : Bool :=
  match m.bit with
  | none => false
  | some b => nbit (s.ent (0x7000 + g) 0x04) b && !(g == 16 && m.stall.isNone) && !(g == 20 && b == 1)

/-- The enabled slot whose window holds an offset. -/
def State.slotAt (s : State) (off : Nat) : Option Nat :=
  (upTo 21).find? (fun g => s.gateState g == 0 && decide (s.winBase g ≤ off) && decide (off < s.winBase g + s.winSize g))

/-- A violation: counted, and captured where none is held (17 R408). -/
def State.violation (s : State) (g : Nat) (m : Master) (off sub : Nat) (wr : Bool) : State :=
  let i := 0x7000 + g
  let s := s.bump i 0x14 32 1
  if nbit (s.ent i 0x10) 63 then s
  else ((s.setEnt i 0x10 (2 ^ 63 + off % 2 ^ 32)).setEnt i 0x11 (m.source % 2 ^ 16 * 2 ^ 16 + m.berth % 64 * 2 ^ 10 + b2n wr * 256 + sub * 16 + m.num)).setEnt
    i 0x12 s.time

/-- R407: the slot an access passes to, or how it fails. -/
def State.gateCheck (s : State) (m : Master) (off : Nat) (wr : Bool) : State × Except Exc Nat :=
  match s.slotAt off with
  | none => (s, .error { cause := cBUS, subcode := beNOTARGET, faddr := w64 off })
  | some g =>
    let deny (sub : Nat) : State × Except Exc Nat := (s.violation g m off sub wr, .error { cause := cGATE, subcode := sub, faddr := w64 off })
    if s.ent (0x7000 + g) 0x06 == 1 && m.num == 5 then deny 3
    else if !s.levelAdmits g m then deny 1
    else if m.stall.isSome && !nbit (s.ent (0x7000 + g) 0x05) m.berth then deny 2
    else (s, .ok g)

/-! ### The windows -/

def noTarget : Exc := { cause := cBUS, subcode := beNOTARGET }

/-- An S context reaches only its own berth's page. -/
def Master.sup (m : Master) : Bool := m.num == 1
def Master.foreign (m : Master) (b : Nat) : Bool := m.sup && m.berth != b

/-- The entry behind an offset of the groom window (slot 18) or the berth window (slot 19): berth and subindex. -/
def berthPage (g rel : Nat) : Nat × Nat := (rel / 256, (if g = 18 then 0x40 else 0x01) + rel % 256 / 8)

/-- Whether the window shows the subindex: the groom window Table 12.7, the berth window Table 16.6 without COMMIT. -/
def berthShown (g sub : Nat) : Bool := if g = 18 then decide (0x40 ≤ sub) && decide (sub < 0x60) else decide (sub ≤ 0x1E)

/-- The index and subindex behind an offset of the dictionary window and of PF BAR0 (R391). -/
def dictAt (rel : Nat) : Nat × Nat := (rel / 0x800, rel % 0x800 / 8)

/-- A read through the dictionary window by its path. -/
def State.dictWinRead (s : State) (p : Path) (rel : Nat) : State × Word64 :=
  let e := dictAt rel
  if !s.served e.1 then (s, 0)
  else if e.1 = 0x9000 then
    if 0x80 ≤ e.2 then let r := s.dpLoad (pathInst p) 8; (r.1, w64 (leNat r.2))
    else (s, w64 ((s.dpEntry (pathInst p) e.2).getD 0))
  else (s, s.entryReg e.1 e.2)

/-- A write through it: 8 bytes; an entry out of its type or range keeps its value. -/
def State.dictWinWrite (s : State) (p : Path) (rel : Nat) (v : Word64) : State :=
  let e := dictAt rel
  if e.1 = 0x9000 ∧ 0x80 ≤ e.2 then s.dpPut (pathInst p) p (leBytes 8 v.toNat)
  else (s.dictWrite p e.1 e.2 (.num v.toNat)).1

/-- A word read behind a slot's gate. -/
def State.slotRead (s : State) (m : Master) (g rel : Nat) : State × Except Exc Word64 :=
  if g < 16 then (s, .ok (w64 ((s.shed g).winRead rel)))
  else
    match g with
    | 17 => if m.foreign (rel / 1024) then (s, .error noTarget) else (s, .ok (w64 (s.xlRead (rel / 1024) (rel % 1024))))
    | 20 => let r := s.dictWinRead m.path rel; (r.1, .ok r.2)
    | _ =>
      let e := berthPage g rel
      if m.foreign e.1 then (s, .error noTarget)
      else (s, .ok (if berthShown g e.2 then s.entryReg (berthIdx e.1) e.2 else 0))

/-- A word written behind a slot's gate. -/
def State.slotWrite (s : State) (m : Master) (g rel : Nat) (v : Word64) : State × Except Exc Unit :=
  if g < 16 then (s.updShed g (fun h => h.winWrite rel v), .ok ())
  else
    match g with
    | 17 => if m.foreign (rel / 1024) then (s, .error noTarget) else (s.xlWrite (rel / 1024) (rel % 1024) m.sup v, .ok ())
    | 20 => (s.dictWinWrite m.path rel v, .ok ())
    | _ =>
      let e := berthPage g rel
      if m.foreign e.1 then (s, .error noTarget)
      else if !berthShown g e.2 || (entryInfo (berthIdx e.1) e.2).isNone then (s, .ok ())
      else if m.sup && !(berthSupEntry e.2 || (g == 18 && (e.2 == 0x54 || e.2 == 0x55))) then (s.refuseWrite.1, .ok ())
      else ((s.setEntry m.path (berthIdx e.1) e.2 v.toNat).1, .ok ())

/-- A word access to control space by a master other than a stall: the value read (0 for a write), or how it fails. -/
def State.ctlAccess (s : State) (cm : CtlMaster) (off : Nat) (wr : Option Word64) : State × Except Exc Word64 :=
  let m := ctlMaster cm
  match s.gateCheck m off wr.isSome with
  | (s, .error e) => (s, .error e)
  | (s, .ok g) =>
    let rel := off - s.winBase g
    match wr with
    | none => s.slotRead m g rel
    | some v => match s.slotWrite m g rel v with | (s, .ok _) => (s, .ok 0) | (s, .error e) => (s, .error e)

/-! ### Accesses by stalls (08 R196, 17 R407) -/

/-- The rank of a failed access to control space (07 Table 7.7). -/
def ctlFail (e : Exc) : Fail := ⟨if e.cause = cGATE then 11 else 13, e⟩

/-- WINSEL of a stall: the target of its stall window (08 Table 8.9). -/
def Stall.winEn (t : Stall) : Bool := nbit t.winsel 19
def Stall.winRec (t : Stall) : Bool := nbit t.winsel 18
def Stall.winNum (t : Stall) : Nat := t.winsel % 2 ^ 18

/-- Whether an offset lies in the stall window. -/
def inStallWin (s : State) (off : Nat) : Bool := s.slotAt off == some 16

/-- Whether a stall's window access must wait for its target: a store to one that parks or is unparked, or whose routine runs (08 R197). -/
def winWaits (s : State) (k off : Nat) (op : WinOp) : Bool :=
  let t := s.stall k
  let wr := match op with | .stw _ | .stc _ => true | _ => false
  inStallWin s off && t.winEn && !t.winRec && ((s.winBusy t.winNum && wr) || ((s.routine t.winNum).isSome && t.winNum != k) ||
    s.berthState (stBerth (s.stall t.winNum).status) == 3 && (s.stall t.winNum).cid.isSome)

/-- A stall's access to the stall window. -/
def State.stallWinAccess (s : State) (k rel : Nat) (op : WinOp) : State × Except Fail Gran :=
  let t := s.stall k
  if !t.winEn then (s, .error (ctlFail noTarget))
  else if t.winRec then
    let g := if rel < 0x80 then (s.record t.winNum).image (rel / 16) else Gran.zero
    (s, .ok (match op with | .ldc => g | .ldw => Gran.ofWord (TWord.raw (g.word (decide (rel % 16 ≥ 8))).val) | _ => Gran.zero))
  else
    match s.winAccess t.winNum rel op with
    | (s, some g) => (s, .ok g)
    | (s, none) => (s, .error (capFail 9 cfVALID 0 (match op with | .stc g => g | _ => Gran.zero)))

/-- A stall's access to control space. -/
def stallAccess (s : State) (k off : Nat) (op : WinOp) : State × Except Fail Gran :=
  let m := s.stallMaster k
  let wr := match op with | .stw _ | .stc _ => true | _ => false
  match s.gateCheck m off wr with
  | (s, .error e) => (s, .error (ctlFail e))
  | (s, .ok g) =>
    let rel := off - s.winBase g
    if g = 16 then s.stallWinAccess k rel op
    else
      match op with
      | .stw w => match s.slotWrite m g rel w.val with | (s, .ok _) => (s, .ok Gran.zero) | (s, .error e) => (s, .error (ctlFail e))
      | .stc _ => (s, .ok Gran.zero)
      | _ => match s.slotRead m g rel with | (s, .ok v) => (s, .ok (Gran.ofWord (TWord.raw v))) | (s, .error e) => (s, .error (ctlFail e))

/-- What a bundle reaches outside its core. -/
def ctl : Ctl := { stallWin := inStallWin, waits := winWaits, acc := stallAccess, claim := claimPair, claimed := State.tryMinor, invoke := invokeLocal }

/-- Control space behind the home's DEV requests: the fabric as master (15 Table 15.4). -/
def fabricAccess (s : State) (src addr : Nat) (wr : Option Word64) : Option (State × Except Exc Word64) := some (s.ctlAccess (.fabric src) addr wr)

/-- GATE_FENCE_COMPLETE: every control-space access checked before has been performed. -/
def doGateFenceComplete (s : State) : State := s.setEnt 0x7000 0xF1 0

end Sys2Proof.Machine
end

