-- ==== Sys2Proof/Machine/Helm.lean ====
section
/-!
DEFINITION. The Helm bus (17 R398–R404): sessions, operations, segment transfers, ALIVE frames.
-/

namespace Sys2Proof.Machine

/-! ### Frames (R398–R401) -/

/-- The next CAN FD data length. -/
def canLen (n : Nat) : Nat :=
  if n ≤ 8 then n else if n ≤ 12 then 12 else if n ≤ 16 then 16 else if n ≤ 20 then 20 else if n ≤ 24 then 24 else if n ≤ 32 then 32 else if n ≤ 48 then 48 else 64

/-- Zero bytes up to it. -/
def canPad (b : List Byte) : List Byte := b ++ List.replicate (canLen b.length - b.length) 0

/-- An RSP payload. -/
def rspBytes (op seqn status : Nat) (result : List Byte) : List Byte :=
  [BitVec.ofNat 8 (op + 0x80), BitVec.ofNat 8 seqn, BitVec.ofNat 8 status, BitVec.ofNat 8 result.length] ++ result

/-- A frame to one manager. -/
def State.toManager (s : State) (func node segno : Nat) (payload : List Byte) : State :=
  { s with helmTx := s.helmTx ++ [{ func := func, dst := node, segno := segno, payload := canPad payload }] }

/-- A cause of HELM_EVENT (R404). -/
def State.helmEvent (s : State) (bit : Nat) : State := (s.setEnt 0x1000 0x17 (Nat.lor (s.ent 0x1000 0x17) (2 ^ bit))).signalDev 22 41

/-! ### Sessions (R400) -/

def State.session (s : State) (node : Nat) : Option Session := s.sessions.find? (fun x => x.node == node)
def State.setSession (s : State) (x : Session) : State := { s with sessions := s.sessions.map (fun y => if y.node = x.node then x else y) }

/-- An RSP, kept as the session's stored response. -/
def State.reply (s : State) (node op seqn status : Nat) (result : List Byte) : State :=
  let p := rspBytes op seqn status result
  let s := s.toManager 5 node 0 p
  match s.session node with
  | some x => s.setSession { x with resp := p }
  | none => s

/-- An RSP that is no session's last response. -/
def State.answerOnly (s : State) (node op seqn status : Nat) : State := s.toManager 5 node 0 (rspBytes op seqn status [])

/-- A session ends: its transfer is aborted, its arms go (19 R448). -/
def State.endSession (s : State) (node : Nat) : State :=
  let s := if (s.dport (.helm node)).burst.isSome then s.setDport (.helm node) ((s.dport (.helm node)).ends dpABORTED) else s
  { s with sessions := s.sessions.filter (fun x => x.node != node), arms := s.arms.filter (fun a => a.path != .helm node) }

/-- Sessions the helm may hold. -/
abbrev maxSessions : Nat := 8

/-- OPEN. -/
def doHelmOpen (node seqn : Nat) (s : State) : State :=
  if s.busOff then s
  else if seqn ≠ 0 then s.answerOnly node 0x01 seqn 0x06
  else if (s.session node).isNone && decide (maxSessions ≤ s.sessions.length) then s.answerOnly node 0x01 seqn 0x07
  else
    let s := (s.endSession node).setDport (.helm node) {}
    let s := ({ s with sessions := s.sessions ++ [{ node := node, seen := s.time }] } : State).helmEvent 0
    s.reply node 0x01 seqn 0 (leBytes 2 (s.ent 0x1000 0x07) ++ leBytes 1 (s.ent 0x1000 0x10) ++ leBytes 1 (maxSessions - s.sessions.length))

/-- A REQ other than OPEN and DP_ACK under the SEQ rules: `run` performs it and gives STATUS and result, or none where its RSP comes
later. -/
def State.req (s : State) (node seqn op : Nat) (run : State → State × Option (Nat × List Byte)) : State :=
  if s.busOff then s
  else
    match s.session node with
    | none => s.answerOnly node op seqn 0x05
    | some x =>
      let s := s.setSession { x with seen := s.time }
      if x.xfer.isSome then s.answerOnly node op seqn 0x07
      else if seqn = x.lastSeq then s.toManager 5 node 0 x.resp
      else if seqn ≠ (x.lastSeq + 1) % 256 then s.answerOnly node op seqn 0x06
      else
        let s := s.setSession { x with lastSeq := seqn, seen := s.time }
        match run s with
        | (s, some (st, r)) => if s.inReset then s else s.reply node op seqn st r
        | (s, none) => s

/-- CLOSE. -/
def doHelmClose (node seqn : Nat) (s : State) : State :=
  s.req node seqn 0x02 (fun s => ((s.endSession node).helmEvent 1, some (0, [])))

/-- READ. -/
def doHelmRead (node seqn idx sub : Nat) (s : State) : State :=
  s.req node seqn 0x03 (fun s =>
    (s, some (match s.dictReadAll (.helm node) idx sub with
      | .error e => (e, [])
      | .ok (.bytes b) => (0, b)
      | .ok (.num n) => (0, leBytes (match entryInfo idx sub with | some (t, _) => t.bytes | none => 0) n))))

/-- WRITE. -/
def doHelmWrite (node seqn idx sub : Nat) (v : EVal) (s : State) : State :=
  s.req node seqn 0x04 (fun s => let r := s.dictWrite (.helm node) idx sub v; (r.1, some (r.2, [])))

/-- The status of a failed control-space access. -/
def ctlStatus (e : Exc) : Nat := if e.cause = cGATE then 0x08 else 0x09

/-- A control-space access of the Helm bus; while moored no window but those of entries takes a write (18 R422). -/
def State.helmCtl (s : State) (node off : Nat) (wr : Option Word64) : State × Nat × List Byte :=
  if off % 8 ≠ 0 then (s, wsRANGE, [])
  else if s.romHalted then (s, 0x09, [])
  else if s.ent 0x6000 0x02 = 1 ∧ wr.isSome ∧ (match s.slotAt off with | some g => decide (g < 18) | none => false) = true then (s.refuseWrite.1, wsACCESS, [])
  else
    match s.ctlAccess (.helm node) off wr with
    | (s, .ok v) => (s, 0, if wr.isSome then [] else leBytes 8 v.toNat)
    | (s, .error e) => (s, ctlStatus e, [])

/-- CTRL_RD. -/
def doCtrlRd (node seqn off : Nat) (s : State) : State := s.req node seqn 0x05 (fun s => let r := s.helmCtl node off none; (r.1, some r.2))

/-- CTRL_WR. -/
def doCtrlWr (node seqn off : Nat) (v : Word64) (s : State) : State :=
  s.req node seqn 0x06 (fun s => let r := s.helmCtl node off (some v); (r.1, some r.2))

/-! ### Transfers (R402) -/

abbrev segBytes : Nat := 64
abbrev segWindow : Nat := 16

/-- The helm's own DP_ACK. -/
def State.sendAck (s : State) (node : Nat) (x : Xfer) : State :=
  s.toManager 5 node 0 (rspBytes 0x09 x.seqn 0 (leBytes 2 x.base))

/-- A transfer ends with the final RSP. -/
def State.endXfer (s : State) (node : Nat) (x : Xfer) (status : Nat) : State :=
  let s := match s.session node with | some y => s.setSession { y with xfer := none } | none => s
  s.reply node (if x.wr then 0x07 else 0x08) x.seqn status []

/-- Send the next segments of a read, up to the window: from the stream bytes held, and more of the stream where they end. -/
def State.sendSegs (s : State) (node : Nat) : Nat → Xfer → State × Xfer
  | 0, x => (s, x)
  | n + 1, x =>
    if x.base + segWindow ≤ x.next then (s, x)
    else
      let have_ := (x.buf.drop ((x.next - x.base) * segBytes)).take segBytes
      let need := min (segBytes - have_.length) x.left
      let p := if have_.length = segBytes then (s, []) else s.dpPull (.helm node) need
      let seg := have_ ++ p.2
      if seg.isEmpty then (s, x)
      else
        let s := p.1.toManager 6 node (x.next % 2048) seg
        s.sendSegs node n { x with next := x.next + 1, buf := x.buf ++ p.2, left := x.left - p.2.length }

/-- A read's window is sent, and the session keeps the transfer. -/
def State.runRead (s : State) (node : Nat) (x : Xfer) : State :=
  let r := s.sendSegs node segWindow x
  match r.1.session node with
  | some y => r.1.setSession { y with xfer := some r.2 }
  | none => r.1

/-- DP_WRITE and DP_READ: the burst armed in the session's instance; with none the answer is DP_STATUS. -/
def State.startXfer (s : State) (node seqn : Nat) (wr : Bool) : State × Option (Nat × List Byte) :=
  let i := DpInst.helm node
  let t := s.dpTurn i wr
  let d := t.1.dport i
  if !t.2 then (t.1, some (if d.burst.isSome then dpDIRECTION else d.status, []))
  else
    match t.1.session node with
    | none => (t.1, none)
    | some y =>
      let x : Xfer := { seqn := seqn, wr := wr, left := d.remain }
      if wr then (t.1.setSession { y with xfer := some x }, none) else (t.1.runRead node x, none)

/-- DP_WRITE. -/
def doDpWrite (node seqn : Nat) (s : State) : State := s.req node seqn 0x07 (fun s => s.startXfer node seqn true)

/-- DP_READ. -/
def doDpRead (node seqn : Nat) (s : State) : State := s.req node seqn 0x08 (fun s => s.startXfer node seqn false)

/-- The final status of a session's burst. -/
def State.burstStatus (s : State) (node : Nat) : Nat := (s.dport (.helm node)).status

/-- DP_ACK of a manager: progress of a read; the sender resumes from the segment named. -/
def doDpAck (node seqn next : Nat) (s : State) : State :=
  if s.busOff then s
  else
    match s.session node with
    | none => s
    | some y =>
      let s := s.setSession { y with seen := s.time }
      match y.xfer with
      | none => s
      | some x =>
        if x.wr || x.seqn != seqn then s
        else
          match (upTo (segWindow + 1)).find? (fun d => decide (x.base + d ≤ x.next) && (x.base + d) % 65536 == next % 65536) with
          | none => s
          | some d =>
            let x : Xfer := { x with base := x.base + d, next := x.base + d, buf := x.buf.drop (d * segBytes), repeats := if d = 0 then x.repeats else 0 }
            if x.buf.isEmpty && x.left == 0 then s.endXfer node x (s.burstStatus node)
            else s.runRead node x

/-- SEG from a manager: the next segment of a write; any other is left out until the sender resumes. -/
def doSeg (node segno : Nat) (bytes : List Byte) (s : State) : State :=
  if s.busOff then s
  else
    match s.session node with
    | none => s
    | some y =>
      let s := s.setSession { y with seen := s.time }
      match y.xfer with
      | none => s
      | some x =>
        if !x.wr || segno % 2048 != x.base % 2048 || decide (bytes.length < min segBytes x.left) then s
        else
          let now := bytes.take (min segBytes x.left)
          let s := s.dpPush (.helm node) (.helm node) now
          let x : Xfer := { x with base := x.base + 1, next := x.base + 1, left := x.left - now.length, since := x.since + 1, repeats := 0 }
          if s.inReset then s
          else if x.left = 0 then (s.sendAck node x).endXfer node x (s.burstStatus node)
          else
            let s := if x.since = segWindow then s.sendAck node x else s
            match s.session node with
            | some y => s.setSession { y with xfer := some { x with since := if x.since = segWindow then 0 else x.since } }
            | none => s

/-- HELM_ACK_TIMEOUT: the window is sent again, or the first missing segment named; after four repeats without progress the transfer
ends. -/
def doHelmAckTimeout (node : Nat) (s : State) : State :=
  match s.session node with
  | none => s
  | some y =>
    match y.xfer with
    | none => s
    | some x =>
      if 4 ≤ x.repeats then
        let d := s.dport (.helm node)
        (s.setDport (.helm node) (if d.burst.isSome then d.ends dpABORTED else { d with status := dpABORTED })).endXfer node x 0x0A
      else
        let x : Xfer := { x with repeats := x.repeats + 1 }
        if x.wr then (s.setSession { y with xfer := some { x with since := 0 } }).sendAck node x
        else s.runRead node { x with next := x.base }

/-- SESSION_TIMEOUT: no frame of the manager for the time set. -/
def doSessionTimeout (node : Nat) (s : State) : State :=
  match s.session node with
  | some x => if s.time < x.seen + s.ent 0x1000 0x11 * 100000000 then s else (s.endSession node).helmEvent 1
  | none => s

/-! ### The bus -/

/-- ALIVE. -/
def doAlive (s : State) : State :=
  let st := if s.ent 0x6000 0x02 = 1 then 2 else if s.ent 0x2200 0x03 = 2 then 1 else 0
  s.sendFrame { func := 2, dst := 0, payload := leBytes 2 (s.ent 0x1000 0x07) ++ leBytes 1 (s.tally 5) ++ leBytes 1 st ++ leBytes 4 s.time }

/-- CAN_ERROR_FRAME. -/
def doCanErrorFrame (off : Bool) (s : State) : State :=
  let s := s.bump 0x1000 0x14 32 1
  if off && !s.busOff then ({ s with busOff := true } : State).bump 0x1000 0x15 32 1 else s

/-- BUS_OFF_RECOVERY. -/
def doBusOffRecovery (s : State) : State := { s with busOff := false }

end Sys2Proof.Machine
end

