-- ==== Sys2Proof/Machine/Host.lean ====
section
/-!
DEFINITION. The PCIe host port (16 R384; 07 R159; 17 Table 17.12) and the test access port (20 R465).
-/

namespace Sys2Proof.Machine

/-- A cause of HOST_EVENT. -/
def State.hostEvent (s : State) (bit : Nat) : State := (s.setEnt 0x1000 0x18 (Nat.lor (s.ent 0x1000 0x18) (2 ^ bit))).signalDev 23 42

/-- HOST_DOORBELL: host software's write through PF BAR0. -/
def doHostDoorbell (v : Word64) (s : State) : State := (s.dictWrite .pf 0x1000 0x19 (.num v.toNat)).1

/-- HOST_LINK_DOWN. -/
def doHostLinkDown (s : State) : State := s.hostDown

/-- HOST_LINK_UP: the host has trained the link; PE_PERST_N must be high, and IOC0 not isolated (18 R428). -/
def doHostLinkUp (s : State) : State :=
  if s.host.link || !s.pins.perstN || maskBit s.isoIocs 0 then s else ({ s with host := { s.host with link := true } } : State).hostEvent 2

/-- FUNCTION_LEVEL_RESET: of the PF (0) or a VF: that function's PCIe state only. -/
def doFunctionLevelReset (vf : Nat) (s : State) : State :=
  if !s.host.link then s
  else if vf = 0 then s.hostEvent 3
  else (s.setEnt 0x1000 0x1A vf).hostEvent 4

/-- PE_PERST_N: low resets the host port; its link goes down. -/
def doPePerstN (level : Bool) (s : State) : State :=
  let s : State := { s with pins := { s.pins with perstN := level } }
  if level then s else { s.hostDown with host := {} }

/-! ### JTAG (20 R465) -/

/-- A number as bits, least significant first, which is the order it leaves TDO in. -/
def bitsOf (n w : Nat) : List Bool := (upTo w).map (nbit n)

/-- IDCODE. -/
abbrev idcode : Nat := 0xB516_0E37

def doBypass (s : State) : State := { s with tap := { s.tap with ir := .bypass, dr := [false] } }
def doIdcode (s : State) : State := { s with tap := { s.tap with ir := .idcode, dr := bitsOf idcode 32 } }

/-- The control pins as the boundary register samples them: those of 20 Table 20.2 whose levels this model holds. -/
def Pins.sample (p : Pins) : List Bool := [p.pwrgood, p.resetN, p.moorN, p.lantern, p.thermIn && !p.thermOut, p.perstN] ++ (upTo 16).map (maskBit p.mpPerst)

/-- SAMPLE/PRELOAD: the pins are sampled, and what is shifted in waits in the update stage. -/
def doSamplePreload (shift : List Bool) (s : State) : State := { s with tap := { s.tap with ir := .samplePreload, dr := s.pins.sample, boundary := shift } }

/-- EXTEST: the update stage drives the pins of the boundary chain, outside the device's own logic. -/
def doExtest (s : State) : State := { s with tap := { s.tap with ir := .extest, dr := s.pins.sample } }

/-- DBG_ACCESS: a control-space access as the DEBUG master; a failed one sets the error flag. -/
def doDbgAccess (off : Nat) (wr : Option Word64) (s : State) : State :=
  if off % 8 ≠ 0 ∨ s.romHalted ∨ (s.ent 0x6000 0x02 = 1 ∧ wr.isSome ∧ (match s.slotAt off with | some g => decide (g < 18) | none => false) = true) then
    { s with tap := { s.tap with ir := .dbgAccess, dbgErr := true, dbgData := 0 } }
  else
    match s.ctlAccess .debug off wr with
    | (s, .ok v) => { s with tap := { s.tap with ir := .dbgAccess, dbgErr := false, dbgData := v } }
    | (s, .error _) => { s with tap := { s.tap with ir := .dbgAccess, dbgErr := true, dbgData := 0 } }

/-- TRST_N: low resets the TAP alone. -/
def doTrstN (level : Bool) (s : State) : State := if level then s else { s with tap := {} }

end Sys2Proof.Machine
end

