-- ==== Sys2Proof/WellFormed.lean ====
section
/-!
DEFINITION. Which commands are well formed: every operand that numbers a unit names one that the part has (00 R10).
-/

namespace Sys2Proof

/-- The kinds of numbered unit that a command may name. -/
inductive UnitKind where
  | stall
  | core
  | sequencer
  | shed
  | port
  | berth
  | link
  | lane
  | way
  | register
  | remoteSlot
  | gateSlot
  | vf
  | function
  | manager
  | tally
  | sensor
  deriving DecidableEq, Repr

/-- The first number of a kind, and the first beyond it: stalls, cores and sheds (01, 04 R84), sequencers (09 R199), memory ports (13), berths (16),
links and lanes (14), hayloft ways (10 R227), the pending registers with a byte code's own (08), remote-operation slots (08
R171), gate slots (17 Table 17.13), virtual functions and the physical one as 0 (16 R384), Helm nodes (17 R398, HELM_ADDR), tallies (19 Table 19.11),
the temperature sensors of the sheds and the I/O chiplets (19 R433). -/
def UnitKind.range : UnitKind → Nat × Nat
  | .stall => (0, 16384)
  | .core => (0, 256)
  | .sequencer => (0, 2)
  | .shed => (0, 16)
  | .port => (0, 16)
  | .berth => (0, 64)
  | .link => (0, 12)
  | .lane => (0, 4)
  | .way => (0, 16)
  | .register => (0, 56)
  | .remoteSlot => (0, 32768)
  | .gateSlot => (0, 64)
  | .vf => (1, 64)
  | .function => (0, 64)
  | .manager => (1, 128)
  | .tally => (1, 6)
  | .sensor => (0, 20)

/-- A number of a kind. -/
def UnitKind.has (k : UnitKind) (n : Nat) : Bool := decide (k.range.1 ≤ n) && decide (n < k.range.2)

def TlbUnit.units : TlbUnit → List (UnitKind × Nat)
  | .core c => [(.core, c)]
  | .compass => []
  | .groom g => [(.shed, g)]
  | .stable s => [(.shed, s)]

def Path.units : Path → List (UnitKind × Nat)
  | .helm n => [(.manager, n)]
  | .pf => []
  | .vf n => [(.vf, n)]
  | .dictWin (some k) => [(.stall, k)]
  | .dictWin none => []
  | .fabric _ => []
  | .jtag => []

def DpInst.units : DpInst → List (UnitKind × Nat)
  | .helm n => [(.manager, n)]
  | .pf => []
  | .vf n => [(.vf, n)]
  | .win => []

/-- The units that a command's operands number. -/
def Instr.units (i : Instr) : List (UnitKind × Nat) :=
  match i with
  | .bundleIssue stall => [(.stall, stall)]
  | .microwordWait core seqr => [(.core, core), (.sequencer, seqr)]
  | .vz3Nop stall => [(.stall, stall)]
  | .vz3Pushb stall => [(.stall, stall)]
  | .vz3Pushw stall => [(.stall, stall)]
  | .vz3Pushnil stall => [(.stall, stall)]
  | .vz3Pusht stall => [(.stall, stall)]
  | .vz3Pushf stall => [(.stall, stall)]
  | .vz3Pushk stall => [(.stall, stall)]
  | .vz3Pushkw stall => [(.stall, stall)]
  | .vz3Loadl stall => [(.stall, stall)]
  | .vz3Storel stall => [(.stall, stall)]
  | .vz3Loadlw stall => [(.stall, stall)]
  | .vz3Storelw stall => [(.stall, stall)]
  | .vz3Dup stall => [(.stall, stall)]
  | .vz3Drop stall => [(.stall, stall)]
  | .vz3Swap stall => [(.stall, stall)]
  | .vz3Over stall => [(.stall, stall)]
  | .vz3Add stall => [(.stall, stall)]
  | .vz3Sub stall => [(.stall, stall)]
  | .vz3Mul stall => [(.stall, stall)]
  | .vz3Div stall => [(.stall, stall)]
  | .vz3Rem stall => [(.stall, stall)]
  | .vz3Neg stall => [(.stall, stall)]
  | .vz3Ash stall => [(.stall, stall)]
  | .vz3Eq stall => [(.stall, stall)]
  | .vz3Ne stall => [(.stall, stall)]
  | .vz3Lt stall => [(.stall, stall)]
  | .vz3Ge stall => [(.stall, stall)]
  | .vz3Le stall => [(.stall, stall)]
  | .vz3Gt stall => [(.stall, stall)]
  | .vz3And stall => [(.stall, stall)]
  | .vz3Or stall => [(.stall, stall)]
  | .vz3Xor stall => [(.stall, stall)]
  | .vz3Jmp stall => [(.stall, stall)]
  | .vz3Jf stall => [(.stall, stall)]
  | .vz3Jt stall => [(.stall, stall)]
  | .vz3Tag stall => [(.stall, stall)]
  | .vz3Loadx stall => [(.stall, stall)]
  | .vz3Storex stall => [(.stall, stall)]
  | .vz3Callk stall => [(.stall, stall)]
  | .vz3Retn stall => [(.stall, stall)]
  | .vz3Exit stall => [(.stall, stall)]
  | .vz3Native stall => [(.stall, stall)]
  | .vz3Break stall => [(.stall, stall)]
  | .excEntry stall => [(.stall, stall)]
  | .deviceEvent core => [(.core, core)]
  | .timer stall => [(.stall, stall)]
  | .resultDelivery _ reg => [(.register, reg)]
  | .waiterWake agent _ => [(.port, agent)]
  | .pollRetry _ reg => [(.register, reg)]
  | .bufferDrain core _ => [(.core, core)]
  | .parkCut stall => [(.stall, stall)]
  | .parkComplete stall => [(.stall, stall)]
  | .preemption stall => [(.stall, stall)]
  | .stallAssign stall => [(.stall, stall)]
  | .frameReload stall reg => [(.stall, stall), (.register, reg)]
  | .floatStateSwitch stall => [(.stall, stall)]
  | .tlbWalk u berth _ _ => u.units ++ [(.berth, berth)]
  | .stridePrefetch shed _ => [(.shed, shed)]
  | .ownershipRequest shed _ => [(.shed, shed)]
  | .directoryEviction _ => []
  | .writeBackAck shed _ => [(.shed, shed)]
  | .lineRead _ => []
  | .sidecarFetch port _ => [(.port, port)]
  | .immutTtl shed => [(.shed, shed)]
  | .clean shed => [(.shed, shed)]
  | .inval shed => [(.shed, shed)]
  | .cleanShed shed => [(.shed, shed)]
  | .immutDrop shed => [(.shed, shed)]
  | .wayLock shed _ => [(.shed, shed)]
  | .wayPwr shed _ => [(.shed, shed)]
  | .wayCleanDone shed way => [(.shed, shed), (.way, way)]
  | .xcommit berth => [(.berth, berth)]
  | .tlbiAll berth => [(.berth, berth)]
  | .tlbiAddr berth => [(.berth, berth)]
  | .tlbiComplete berth => [(.berth, berth)]
  | .minorCycle berth => [(.berth, berth)]
  | .majorCycle berth => [(.berth, berth)]
  | .sweep berth => [(.berth, berth)]
  | .clearStatistics berth => [(.berth, berth)]
  | .markEnd berth _ => [(.berth, berth)]
  | .evacEnd berth _ => [(.berth, berth)]
  | .updateEnd berth _ => [(.berth, berth)]
  | .sweepEnd berth => [(.berth, berth)]
  | .objClaim berth _ => [(.berth, berth)]
  | .berthStart berth => [(.berth, berth)]
  | .resetDrain berth => [(.berth, berth)]
  | .resetSquash berth => [(.berth, berth)]
  | .removeDrain berth => [(.berth, berth)]
  | .removeSquash berth => [(.berth, berth)]
  | .drainLimit berth => [(.berth, berth)]
  | .berthCommit p berth => p.units ++ [(.berth, berth)]
  | .quiescentPoint _ => []
  | .quiesceLimit _ => []
  | .discard p _ => p.units
  | .entryWrite p _ _ _ => p.units
  | .train port => [(.port, port)]
  | .portInit port => [(.port, port)]
  | .codedUnitInit port => [(.port, port)]
  | .portOff port => [(.port, port)]
  | .resync port => [(.port, port)]
  | .flush port => [(.port, port)]
  | .mapCommit p => p.units
  | .portFailure port => [(.port, port)]
  | .portTimeout port => [(.port, port)]
  | .dataCodeword link _ _ _ => [(.link, link)]
  | .alignmentCodeword link _ => [(.link, link)]
  | .retryTimeout link => [(.link, link)]
  | .laneFailure link lane => [(.link, link), (.lane, lane)]
  | .lkRetryMs link => [(.link, link)]
  | .linkUp link => [(.link, link)]
  | .lkEnable p link _ => p.units ++ [(.link, link)]
  | .retrain link => [(.link, link)]
  | .takeDown link => [(.link, link)]
  | .retrainFullWidth link => [(.link, link)]
  | .hello link _ => [(.link, link)]
  | .lsa link _ => [(.link, link)]
  | .lsaRefresh => []
  | .soundQuiet => []
  | .assign link _ => [(.link, link)]
  | .nodedown link _ => [(.link, link)]
  | .startSounding => []
  | .rebuildCharts => []
  | .stopSounding => []
  | .chartCommit p => p.units
  | .packetRoute _ => []
  | .routeHold _ => []
  | .requestInjection => []
  | .load => []
  | .store => []
  | .remoteCas => []
  | .remoteFadd => []
  | .remoteFill => []
  | .remoteInvoke => []
  | .list => []
  | .drop => []
  | .data => []
  | .ack => []
  | .line => []
  | .refuse => []
  | .retry => []
  | .waiting => []
  | .xack => []
  | .remoteTimeout slot => [(.remoteSlot, slot)]
  | .resentEntryExpiry _ => []
  | .tsyncInterval => []
  | .tsyncReq link _ _ _ => [(.link, link)]
  | .tsyncRsp _ _ _ _ => []
  | .stallWindowAccess stall _ _ => [(.stall, stall)]
  | .halt stall => [(.stall, stall)]
  | .stallctlStart core => [(.core, core)]
  | .kill stall => [(.stall, stall)]
  | .helmOpen node _ => [(.manager, node)]
  | .helmClose node _ => [(.manager, node)]
  | .helmRead node _ _ _ => [(.manager, node)]
  | .helmWrite node _ _ _ _ => [(.manager, node)]
  | .ctrlRd node _ _ => [(.manager, node)]
  | .ctrlWr node _ _ _ => [(.manager, node)]
  | .dpWrite node _ => [(.manager, node)]
  | .dpRead node _ => [(.manager, node)]
  | .dpAck node _ _ => [(.manager, node)]
  | .seg node _ _ => [(.manager, node)]
  | .sessionTimeout node => [(.manager, node)]
  | .helmAckTimeout node => [(.manager, node)]
  | .alive => []
  | .busOffRecovery => []
  | .dpAddr d _ => d.units
  | .dpLen d _ => d.units
  | .dpData d _ _ _ => d.units
  | .verifyAndLoad p => p.units
  | .verifyOnly p => p.units
  | .winBase p slot _ => p.units ++ [(.gateSlot, slot)]
  | .lock p slot _ => p.units ++ [(.gateSlot, slot)]
  | .violClear p slot _ => p.units ++ [(.gateSlot, slot)]
  | .gateFence p => p.units
  | .gateFenceComplete => []
  | .hostDoorbell _ => []
  | .hostLinkDown => []
  | .hostLinkUp => []
  | .functionLevelReset vf => [(.function, vf)]
  | .pePerstN _ => []
  | .watchReport _ => []
  | .watchDisagreement => []
  | .moorCmd p _ => p.units
  | .moorN _ _ => []
  | .feClear p _ => p.units
  | .injectCorr p _ => p.units
  | .injectUncorr p _ => p.units
  | .injectPoison p _ => p.units
  | .injectUnit p _ => p.units
  | .lanternToggle => []
  | .coreDivReq p _ => p.units
  | .voutSettled => []
  | .voutTimeout => []
  | .throttle shed _ => [(.shed, shed)]
  | .throttleExit shed _ => [(.shed, shed)]
  | .thermalTrip sensor _ => [(.sensor, sensor)]
  | .thermtripN _ _ => []
  | .pmbusPoll _ => []
  | .pmbAlertN _ => []
  | .ageAlarm shed _ => [(.shed, shed)]
  | .powerOnReset _ => []
  | .pwrgoodFall => []
  | .resetN _ _ => []
  | .resetCmd p _ => p.units
  | .resetExit => []
  | .boot _ => []
  | .yardGo p _ => p.units
  | .tallyArm p _ => p.units
  | .tallyWrite p tally _ => p.units ++ [(.tally, tally)]
  | .bypass => []
  | .idcode => []
  | .samplePreload _ => []
  | .extest => []
  | .dbgAccess _ _ => []
  | .trstN _ => []
  | .vz3Undefined stall => [(.stall, stall)]
  | .portTrainingEnd port _ => [(.port, port)]
  | .resyncUnitCopied port => [(.port, port)]
  | .maintComplete shed => [(.shed, shed)]
  | .wayPowerUpDone shed way => [(.shed, shed), (.way, way)]
  | .s2mNdr port _ _ => [(.port, port)]
  | .cxlEventRecord port _ => [(.port, port)]
  | .canErrorFrame _ => []
  | .patchCheckEnd => []
  | .tallyProgrammed => []
  | .objStatusDone berth => [(.berth, berth)]

/-- The first unit that a command names and the part does not have. -/
def Instr.absent (i : Instr) : Option (UnitKind × Nat) := i.units.find? (fun u => !u.1.has u.2)

/-- A command is well formed where the part has every unit it names. -/
def Instr.wf (i : Instr) : Bool := i.units.all (fun u => u.1.has u.2)

end Sys2Proof
end

