-- ==== Sys2Proof/Machine/Settle.lean ====
section
/-!
DEFINITION. What every command has in common: the unit it names must exist, the part of the device it acts in must run, and the
consequences that the spec ties to a change of state, whatever made the change, follow it.
-/

namespace Sys2Proof.Machine

/-! ### Consequences of a change -/

/-- The FABRIC_EVENT cause bits that a change sets (07 R159): sounding ended, NODE_ID changed, a link entered UP, DOWN or MISMATCH, the time
base entered LOCKED or HOLDOVER. The charts' and NODEDOWN's bits are set where they happen. -/
def fabricCauses (old new : State) : Nat :=
  let entered (idx sub : Nat) (vs : List Nat) : Bool := new.ent idx sub != old.ent idx sub && vs.contains (new.ent idx sub)
  b2n (entered 0x5000 0x05 [5, 6]) + 2 * b2n (new.nodeId != old.nodeId) +
    4 * b2n ((upTo nLinks).any (fun k => entered (lkIdx k) 0x03 [lsUP, lsDOWN, lsMISMATCH])) + 16 * b2n (entered 0x5000 0x17 [2, 3])

/-- A parked event context whose berth has an event queued becomes ready (07 R156, 08 R183). -/
def State.wakeEvent (s : State) (b : Nat) : State :=
  let cid := s.ent (berthIdx b) 0x14
  if (s.berth b).events.isEmpty || isIntCid cid || !s.living cid || (s.stallOf cid).isSome then s
  else (s.updRecord (cidRecord cid) (fun r => { r with bevp := true })).wakeRecord (cidRecord cid)

/-- The consequences of what a command changed. A device in reset has none. A drain with nothing outstanding any more goes on (16 R377), then
OVER_QUOTA's edges queue their events (16 R373), then each berth's event context is made ready. -/
def State.settle (old new : State) : State :=
  if new.inReset then new
  else
    let s := new.fabricEvent (fabricCauses old new)
    let s := if old.ent 0x2200 0x03 = 1 ∧ s.ent 0x2200 0x03 = 2 then s.traceBoot 9 else s
    let s := (upTo nBerths).foldl State.drainDone s
    let s := (upTo nBerths).foldl State.quotaEdge s
    (upTo nBerths).foldl State.wakeEvent s

/-- The state that a command answers, from what its effect makes of `old`: with its consequences, and the queue as it is. -/
def State.after (old new : State) : State := { old.settle new with pending := old.pending }

/-! ### Where a command acts -/

/-- The cores, the mesh, the compass, the ports, the links and the engines run: out of reset and not moored (18 R421). -/
def State.coreRuns (s : State) : Bool := !s.inReset && s.ent 0x6000 0x02 != 1

/-- The helm, the watch, the host port, clock and power control run: out of reset. -/
def State.helmRuns (s : State) : Bool := !s.inReset

/-- A command: a fault where it names a unit that the part has not; no effect where what it acts in does not run. -/
def command (c : Instr) (on : State → Bool) (f : State → State) (s : State) : Host.Outcome State Fault Refusal :=
  match c.absent with
  | some _ => .fault .noSuchUnit
  | none => .next (if on s then s.after (f s) else s)

/-- A command of the cores, the memory system, the fabric, or an engine. -/
def coreCommand (c : Instr) (f : State → State) (s : State) : Host.Outcome State Fault Refusal := command c State.coreRuns f s

/-- A command of the helm, the watch, the host port, clocks and power. -/
def helmCommand (c : Instr) (f : State → State) (s : State) : Host.Outcome State Fault Refusal := command c State.helmRuns f s

/-- A command of a pin or of the test access port: it acts in reset too. -/
def pinCommand (c : Instr) (f : State → State) (s : State) : Host.Outcome State Fault Refusal := command c (fun _ => true) f s

/-! ### Time -/

/-- One tick of 10 ns: TIME counts, and the Stable sets TIMP of each parked record whose TIMER is reached (07 R156, 08 R190). -/
def State.tick (s : State) : State :=
  let s : State := { s with time := s.time + 1 }
  let due := s.records.filter (fun e => (e.2.rstate == .parked || e.2.rstate == .ready) && !e.2.timp && e.2.timer != 0 && decide (e.2.timer.toNat ≤ s.time))
  due.foldl (fun s e => (s.updRecord e.1 (fun r => { r with timp := true })).wakeRecord e.1) s

end Sys2Proof.Machine
end

