-- ==== Sys2Proof/Machine/ControlCmds.lean ====
section
/-!
DEFINITION. The commands of the helm, the dictionary, the gates, the watch, clocks, power, boot, the host port and the pins.
-/

namespace Sys2Proof.Machine

/-! ### Entries and commits -/

/-- ENTRY_WRITE (R387). -/
def execEntryWrite (path : Path) (index sub : Nat) (value : EVal) (s : State) : Host.Outcome State Fault Refusal :=
  helmCommand (.entryWrite path index sub value) (fun s => (s.dictWrite path index sub value).1) s

/-- BERTH_COMMIT (R382). -/
def execBerthCommit (path : Path) (berth : Nat) (s : State) : Host.Outcome State Fault Refusal :=
  helmCommand (.berthCommit path berth) (fun s => (s.dictWrite path (berthIdx berth) 0xFF (.num 1)).1) s

/-- MAP_COMMIT (R302). -/
def execMapCommit (path : Path) (s : State) : Host.Outcome State Fault Refusal :=
  helmCommand (.mapCommit path) (fun s => (s.dictWrite path 0x4000 0xFF (.num 1)).1) s

/-- CHART_COMMIT (R333). -/
def execChartCommit (path : Path) (s : State) : Host.Outcome State Fault Refusal :=
  helmCommand (.chartCommit path) (fun s => (s.dictWrite path 0x5100 0xFF (.num 1)).1) s

/-- QUIESCENT_POINT (R392). -/
def execQuiescentPoint (index : Nat) (s : State) : Host.Outcome State Fault Refusal :=
  helmCommand (.quiescentPoint index) (doQuiescentPoint index) s

/-- QUIESCE_LIMIT (R393). -/
def execQuiesceLimit (index : Nat) (s : State) : Host.Outcome State Fault Refusal :=
  helmCommand (.quiesceLimit index) (doQuiesceLimit index) s

/-- DISCARD (R393). -/
def execDiscard (path : Path) (index : Nat) (s : State) : Host.Outcome State Fault Refusal :=
  helmCommand (.discard path index) (fun s => (s.dictWrite path 0xF000 0x06 (.num index)).1) s

/-- LK_ENABLE (R325). -/
def execLkEnable (path : Path) (link : Nat) (enable : Bool) (s : State) : Host.Outcome State Fault Refusal :=
  helmCommand (.lkEnable path link enable) (fun s => (s.dictWrite path (lkIdx link) 0x01 (.num (b2n enable))).1) s

/-- VERIFY_AND_LOAD (R214). -/
def execVerifyAndLoad (path : Path) (s : State) : Host.Outcome State Fault Refusal :=
  helmCommand (.verifyAndLoad path) (fun s => (s.dictWrite path 0x8000 0x06 (.num 1)).1) s

/-- VERIFY_ONLY (R213). -/
def execVerifyOnly (path : Path) (s : State) : Host.Outcome State Fault Refusal :=
  helmCommand (.verifyOnly path) (fun s => (s.dictWrite path 0x8000 0x06 (.num 2)).1) s

/-- PATCH_CHECK_END (R214). -/
def execPatchCheckEnd (s : State) : Host.Outcome State Fault Refusal :=
  helmCommand .patchCheckEnd doPatchCheckEnd s

/-! ### The Helm bus -/

/-- OPEN (R400). -/
def execHelmOpen (node seqn : Nat) (s : State) : Host.Outcome State Fault Refusal :=
  helmCommand (.helmOpen node seqn) (doHelmOpen node seqn) s

/-- CLOSE (R400). -/
def execHelmClose (node seqn : Nat) (s : State) : Host.Outcome State Fault Refusal :=
  helmCommand (.helmClose node seqn) (doHelmClose node seqn) s

/-- READ (R401). -/
def execHelmRead (node seqn index sub : Nat) (s : State) : Host.Outcome State Fault Refusal :=
  helmCommand (.helmRead node seqn index sub) (doHelmRead node seqn index sub) s

/-- WRITE (R401). -/
def execHelmWrite (node seqn index sub : Nat) (value : EVal) (s : State) : Host.Outcome State Fault Refusal :=
  helmCommand (.helmWrite node seqn index sub value) (doHelmWrite node seqn index sub value) s

/-- CTRL_RD (R401). -/
def execCtrlRd (node seqn offset : Nat) (s : State) : Host.Outcome State Fault Refusal :=
  helmCommand (.ctrlRd node seqn offset) (doCtrlRd node seqn offset) s

/-- CTRL_WR (R401). -/
def execCtrlWr (node seqn offset : Nat) (value : Word64) (s : State) : Host.Outcome State Fault Refusal :=
  helmCommand (.ctrlWr node seqn offset value) (doCtrlWr node seqn offset value) s

/-- DP_WRITE (R402). -/
def execDpWrite (node seqn : Nat) (s : State) : Host.Outcome State Fault Refusal :=
  helmCommand (.dpWrite node seqn) (doDpWrite node seqn) s

/-- DP_READ (R402). -/
def execDpRead (node seqn : Nat) (s : State) : Host.Outcome State Fault Refusal :=
  helmCommand (.dpRead node seqn) (doDpRead node seqn) s

/-- DP_ACK (R402). -/
def execDpAck (node seqn next : Nat) (s : State) : Host.Outcome State Fault Refusal :=
  helmCommand (.dpAck node seqn next) (doDpAck node seqn next) s

/-- SEG (R402). -/
def execSeg (node segno : Nat) (bytes : List Byte) (s : State) : Host.Outcome State Fault Refusal :=
  helmCommand (.seg node segno bytes) (doSeg node segno bytes) s

/-- SESSION_TIMEOUT (R400). -/
def execSessionTimeout (node : Nat) (s : State) : Host.Outcome State Fault Refusal :=
  helmCommand (.sessionTimeout node) (doSessionTimeout node) s

/-- HELM_ACK_TIMEOUT (R402). -/
def execHelmAckTimeout (node : Nat) (s : State) : Host.Outcome State Fault Refusal :=
  helmCommand (.helmAckTimeout node) (doHelmAckTimeout node) s

/-- ALIVE (R403). -/
def execAlive (s : State) : Host.Outcome State Fault Refusal :=
  helmCommand .alive doAlive s

/-- BUS_OFF_RECOVERY (R398). -/
def execBusOffRecovery (s : State) : Host.Outcome State Fault Refusal :=
  helmCommand .busOffRecovery doBusOffRecovery s

/-- CAN_ERROR_FRAME (R398). -/
def execCanErrorFrame (busOff : Bool) (s : State) : Host.Outcome State Fault Refusal :=
  helmCommand (.canErrorFrame busOff) (doCanErrorFrame busOff) s

/-! ### The data port -/

/-- A user of a data-port instance as a path. -/
def instPath : DpInst → Path
  | .helm n => .helm n
  | .pf => .pf
  | .vf n => .vf n
  | .win => .dictWin none

/-- DP_ADDR (R395). -/
def execDpAddr (inst : DpInst) (value : Word64) (s : State) : Host.Outcome State Fault Refusal :=
  helmCommand (.dpAddr inst value) (fun s => if s.instWorks inst then (s.dpSetEntry inst 0x01 value.toNat).1 else s) s

/-- DP_LEN (R396). -/
def execDpLen (inst : DpInst) (value : Nat) (s : State) : Host.Outcome State Fault Refusal :=
  helmCommand (.dpLen inst value) (fun s => if s.instWorks inst then (s.dpSetEntry inst 0x02 value).1 else s) s

/-- DP_DATA (R396). -/
def execDpData (inst : DpInst) (wr : Bool) (bytes : List Byte) (count : Nat) (s : State) : Host.Outcome State Fault Refusal :=
  helmCommand (.dpData inst wr bytes count) (fun s => if s.instWorks inst then (if wr then s.dpPut inst (instPath inst) bytes else (s.dpLoad inst count).1) else s) s

/-! ### Gates -/

/-- WIN_BASE (R409). -/
def execWinBase (path : Path) (slot value : Nat) (s : State) : Host.Outcome State Fault Refusal :=
  helmCommand (.winBase path slot value) (fun s => (s.dictWrite path (0x7000 + slot) 0x03 (.num value)).1) s

/-- LOCK (R410). -/
def execLock (path : Path) (slot : Nat) (value : Nat) (s : State) : Host.Outcome State Fault Refusal :=
  helmCommand (.lock path slot value) (fun s => (s.dictWrite path (0x7000 + slot) 0x06 (.num value)).1) s

/-- VIOL_CLEAR (R408). -/
def execViolClear (path : Path) (slot : Nat) (value : Nat) (s : State) : Host.Outcome State Fault Refusal :=
  helmCommand (.violClear path slot value) (fun s => (s.dictWrite path (0x7000 + slot) 0x13 (.num value)).1) s

/-- GATE_FENCE (R411). -/
def execGateFence (path : Path) (s : State) : Host.Outcome State Fault Refusal :=
  helmCommand (.gateFence path) (fun s => (s.dictWrite path 0x7000 0xF0 (.num 1)).1) s

/-- GATE_FENCE_COMPLETE (R411). -/
def execGateFenceComplete (s : State) : Host.Outcome State Fault Refusal :=
  helmCommand .gateFenceComplete doGateFenceComplete s

/-! ### The host port -/

/-- HOST_DOORBELL (R159). -/
def execHostDoorbell (value : Word64) (s : State) : Host.Outcome State Fault Refusal :=
  helmCommand (.hostDoorbell value) (doHostDoorbell value) s

/-- HOST_LINK_DOWN (R159). -/
def execHostLinkDown (s : State) : Host.Outcome State Fault Refusal :=
  helmCommand .hostLinkDown doHostLinkDown s

/-- HOST_LINK_UP (R159). -/
def execHostLinkUp (s : State) : Host.Outcome State Fault Refusal :=
  helmCommand .hostLinkUp doHostLinkUp s

/-- FUNCTION_LEVEL_RESET (R384). -/
def execFunctionLevelReset (vf : Nat) (s : State) : Host.Outcome State Fault Refusal :=
  helmCommand (.functionLevelReset vf) (doFunctionLevelReset vf) s

/-- PE_PERST_N (R456). -/
def execPePerstN (level : Bool) (s : State) : Host.Outcome State Fault Refusal :=
  pinCommand (.pePerstN level) (doPePerstN level) s

/-! ### The watch -/

/-- WATCH_REPORT (R414). -/
def execWatchReport (hw : Option Report) (s : State) : Host.Outcome State Fault Refusal :=
  helmCommand (.watchReport hw) (doWatchReport hw) s

/-- WATCH_DISAGREEMENT (R420). -/
def execWatchDisagreement (s : State) : Host.Outcome State Fault Refusal :=
  helmCommand .watchDisagreement doWatchDisagreement s

/-- MOOR_CMD (R420). -/
def execMoorCmd (path : Path) (value : Nat) (s : State) : Host.Outcome State Fault Refusal :=
  helmCommand (.moorCmd path value) (fun s => (s.dictWrite path 0x6000 0x05 (.num value)).1) s

/-- MOOR_N (R420). -/
def execMoorN (level : Bool) (widthNs : Nat) (s : State) : Host.Outcome State Fault Refusal :=
  pinCommand (.moorN level widthNs) (doMoorN level widthNs) s

/-- FE_CLEAR (R419). -/
def execFeClear (path : Path) (value : Nat) (s : State) : Host.Outcome State Fault Refusal :=
  helmCommand (.feClear path value) (fun s => (s.dictWrite path 0x6000 0x0B (.num value)).1) s

/-- A write of INJECT that asks for a mode: bits 11:8 (18 Table 18.7). -/
def injectValue (mode : Nat) (v : BitVec 32) : Nat := ((v &&& ~~~0xF00#32) ||| BitVec.ofNat 32 (mode * 256)).toNat

/-- INJECT_CORR (R425). -/
def execInjectCorr (path : Path) (value : BitVec 32) (s : State) : Host.Outcome State Fault Refusal :=
  helmCommand (.injectCorr path value) (fun s => (s.dictWrite path 0x6000 0x0C (.num (injectValue 1 value))).1) s

/-- INJECT_UNCORR (R425). -/
def execInjectUncorr (path : Path) (value : BitVec 32) (s : State) : Host.Outcome State Fault Refusal :=
  helmCommand (.injectUncorr path value) (fun s => (s.dictWrite path 0x6000 0x0C (.num (injectValue 2 value))).1) s

/-- INJECT_POISON (R425). -/
def execInjectPoison (path : Path) (value : BitVec 32) (s : State) : Host.Outcome State Fault Refusal :=
  helmCommand (.injectPoison path value) (fun s => (s.dictWrite path 0x6000 0x0C (.num (injectValue 3 value))).1) s

/-- INJECT_UNIT (R425). -/
def execInjectUnit (path : Path) (value : BitVec 32) (s : State) : Host.Outcome State Fault Refusal :=
  helmCommand (.injectUnit path value) (fun s => (s.dictWrite path 0x6000 0x0C (.num (injectValue 4 value))).1) s

/-- LANTERN_TOGGLE (R424). -/
def execLanternToggle (s : State) : Host.Outcome State Fault Refusal :=
  helmCommand .lanternToggle doLanternToggle s

/-! ### Clocks and power -/

/-- CORE_DIV_REQ (R431). -/
def execCoreDivReq (path : Path) (value : Nat) (s : State) : Host.Outcome State Fault Refusal :=
  helmCommand (.coreDivReq path value) (fun s => (s.dictWrite path 0x2000 0x02 (.num value)).1) s

/-- VOUT_SETTLED (R431). -/
def execVoutSettled (s : State) : Host.Outcome State Fault Refusal :=
  helmCommand .voutSettled doVoutSettled s

/-- VOUT_TIMEOUT (R431). -/
def execVoutTimeout (s : State) : Host.Outcome State Fault Refusal :=
  helmCommand .voutTimeout doVoutTimeout s

/-- THROTTLE (R432). -/
def execThrottle (shed : Nat) (tenths : Int) (s : State) : Host.Outcome State Fault Refusal :=
  helmCommand (.throttle shed tenths) (doThrottle shed tenths) s

/-- THROTTLE_EXIT (R432). -/
def execThrottleExit (shed : Nat) (tenths : Int) (s : State) : Host.Outcome State Fault Refusal :=
  helmCommand (.throttleExit shed tenths) (doThrottleExit shed tenths) s

/-- THERMAL_TRIP (R433). -/
def execThermalTrip (sensor : Nat) (tenths : Int) (s : State) : Host.Outcome State Fault Refusal :=
  helmCommand (.thermalTrip sensor tenths) (doThermalTrip sensor tenths) s

/-- THERMTRIP_N (R433). -/
def execThermtripN (level : Bool) (widthNs : Nat) (s : State) : Host.Outcome State Fault Refusal :=
  pinCommand (.thermtripN level widthNs) (doThermtripN level widthNs) s

/-- PMBUS_POLL (R435). -/
def execPmbusPoll (status : List (Nat × BitVec 16)) (s : State) : Host.Outcome State Fault Refusal :=
  helmCommand (.pmbusPoll status) (doPmbusPoll status) s

/-- PMB_ALERT_N (R456). -/
def execPmbAlertN (status : List (Nat × BitVec 16)) (s : State) : Host.Outcome State Fault Refusal :=
  helmCommand (.pmbAlertN status) (doPmbusPoll status) s

/-- AGE_ALARM (R442). -/
def execAgeAlarm (shed : Nat) (margin : Int) (s : State) : Host.Outcome State Fault Refusal :=
  helmCommand (.ageAlarm shed margin) (doAgeAlarm shed margin) s

/-! ### Resets, boot, tallies -/

/-- POWER_ON_RESET (R438). -/
def execPowerOnReset (thermtripLow : Bool) (s : State) : Host.Outcome State Fault Refusal :=
  pinCommand (.powerOnReset thermtripLow) (doPowerOnReset thermtripLow) s

/-- PWRGOOD_FALL (R439). -/
def execPwrgoodFall (s : State) : Host.Outcome State Fault Refusal :=
  pinCommand .pwrgoodFall doPwrgoodFall s

/-- RESET_N (R439). -/
def execResetN (level : Bool) (widthNs : Nat) (s : State) : Host.Outcome State Fault Refusal :=
  pinCommand (.resetN level widthNs) (doResetN level widthNs) s

/-- RESET_CMD (R439). -/
def execResetCmd (path : Path) (value : Nat) (s : State) : Host.Outcome State Fault Refusal :=
  helmCommand (.resetCmd path value) (fun s => (s.dictWrite path 0x2200 0x01 (.num value)).1) s

/-- RESET_EXIT (R439). -/
def execResetExit (s : State) : Host.Outcome State Fault Refusal :=
  pinCommand .resetExit doResetExit s

/-- BOOT (R445). -/
def execBoot (flash : FlashImages) (s : State) : Host.Outcome State Fault Refusal :=
  helmCommand (.boot flash) (doBoot flash) s

/-- YARD_GO (R446). -/
def execYardGo (path : Path) (value : Nat) (s : State) : Host.Outcome State Fault Refusal :=
  helmCommand (.yardGo path value) (fun s => (s.dictWrite path 0x2200 0x07 (.num value)).1) s

/-- TALLY_ARM (R448). -/
def execTallyArm (path : Path) (value : Nat) (s : State) : Host.Outcome State Fault Refusal :=
  helmCommand (.tallyArm path value) (fun s => (s.dictWrite path 0x1100 0x10 (.num value)).1) s

/-- TALLY_WRITE (R449). -/
def execTallyWrite (path : Path) (tally value : Nat) (s : State) : Host.Outcome State Fault Refusal :=
  helmCommand (.tallyWrite path tally value) (fun s => (s.dictWrite path 0x1100 tally (.num value)).1) s

/-- TALLY_PROGRAMMED (R449). -/
def execTallyProgrammed (s : State) : Host.Outcome State Fault Refusal :=
  pinCommand .tallyProgrammed doTallyProgrammed s

/-! ### The test access port -/

/-- BYPASS (R465). -/
def execBypass (s : State) : Host.Outcome State Fault Refusal :=
  pinCommand .bypass doBypass s

/-- IDCODE (R465). -/
def execIdcode (s : State) : Host.Outcome State Fault Refusal :=
  pinCommand .idcode doIdcode s

/-- SAMPLE_PRELOAD (R465). -/
def execSamplePreload (shift : List Bool) (s : State) : Host.Outcome State Fault Refusal :=
  pinCommand (.samplePreload shift) (doSamplePreload shift) s

/-- EXTEST (R465). -/
def execExtest (s : State) : Host.Outcome State Fault Refusal :=
  pinCommand .extest doExtest s

/-- DBG_ACCESS (R465). -/
def execDbgAccess (offset : Nat) (wr : Option Word64) (s : State) : Host.Outcome State Fault Refusal :=
  helmCommand (.dbgAccess offset wr) (doDbgAccess offset wr) s

/-- TRST_N (R465). -/
def execTrstN (level : Bool) (s : State) : Host.Outcome State Fault Refusal :=
  pinCommand (.trstN level) (doTrstN level) s

end Sys2Proof.Machine
end

