-- ==== Sys2Proof/Machine/CoreCmds.lean ====
section
/-!
DEFINITION. The commands of the cores: bundles, microcode, byte codes, exceptions, results, parking, the stall window.
-/

namespace Sys2Proof.Machine

/-! ### Issue -/

/-- BUNDLE_ISSUE (R72). -/
def execBundleIssue (stall : Nat) (s : State) : Host.Outcome State Fault Refusal :=
  coreCommand (.bundleIssue stall) (issueWith ctl stall) s

/-- MICROWORD_WAIT (R204). -/
def execMicrowordWait (core seqr : Nat) (s : State) : Host.Outcome State Fault Refusal :=
  coreCommand (.microwordWait core seqr) (microWith ctl core seqr) s

/-! ### VZ-3 byte codes (09 Table 9.13) -/

/-- VZ3_NOP (R219). -/
def execVz3Nop (stall : Nat) (s : State) : Host.Outcome State Fault Refusal :=
  coreCommand (.vz3Nop stall) (vzIssue ctl stall (· == 0x00)) s

/-- VZ3_PUSHB (R219). -/
def execVz3Pushb (stall : Nat) (s : State) : Host.Outcome State Fault Refusal :=
  coreCommand (.vz3Pushb stall) (vzIssue ctl stall (· == 0x01)) s

/-- VZ3_PUSHW (R219). -/
def execVz3Pushw (stall : Nat) (s : State) : Host.Outcome State Fault Refusal :=
  coreCommand (.vz3Pushw stall) (vzIssue ctl stall (· == 0x02)) s

/-- VZ3_PUSHNIL (R219). -/
def execVz3Pushnil (stall : Nat) (s : State) : Host.Outcome State Fault Refusal :=
  coreCommand (.vz3Pushnil stall) (vzIssue ctl stall (· == 0x03)) s

/-- VZ3_PUSHT (R219). -/
def execVz3Pusht (stall : Nat) (s : State) : Host.Outcome State Fault Refusal :=
  coreCommand (.vz3Pusht stall) (vzIssue ctl stall (· == 0x04)) s

/-- VZ3_PUSHF (R219). -/
def execVz3Pushf (stall : Nat) (s : State) : Host.Outcome State Fault Refusal :=
  coreCommand (.vz3Pushf stall) (vzIssue ctl stall (· == 0x05)) s

/-- VZ3_PUSHK (R219). -/
def execVz3Pushk (stall : Nat) (s : State) : Host.Outcome State Fault Refusal :=
  coreCommand (.vz3Pushk stall) (vzIssue ctl stall (· == 0x06)) s

/-- VZ3_PUSHKW (R219). -/
def execVz3Pushkw (stall : Nat) (s : State) : Host.Outcome State Fault Refusal :=
  coreCommand (.vz3Pushkw stall) (vzIssue ctl stall (· == 0x07)) s

/-- VZ3_LOADL (R219). -/
def execVz3Loadl (stall : Nat) (s : State) : Host.Outcome State Fault Refusal :=
  coreCommand (.vz3Loadl stall) (vzIssue ctl stall (· == 0x08)) s

/-- VZ3_STOREL (R219). -/
def execVz3Storel (stall : Nat) (s : State) : Host.Outcome State Fault Refusal :=
  coreCommand (.vz3Storel stall) (vzIssue ctl stall (· == 0x09)) s

/-- VZ3_LOADLW (R219). -/
def execVz3Loadlw (stall : Nat) (s : State) : Host.Outcome State Fault Refusal :=
  coreCommand (.vz3Loadlw stall) (vzIssue ctl stall (· == 0x0A)) s

/-- VZ3_STORELW (R219). -/
def execVz3Storelw (stall : Nat) (s : State) : Host.Outcome State Fault Refusal :=
  coreCommand (.vz3Storelw stall) (vzIssue ctl stall (· == 0x0B)) s

/-- VZ3_DUP (R219). -/
def execVz3Dup (stall : Nat) (s : State) : Host.Outcome State Fault Refusal :=
  coreCommand (.vz3Dup stall) (vzIssue ctl stall (· == 0x0C)) s

/-- VZ3_DROP (R219). -/
def execVz3Drop (stall : Nat) (s : State) : Host.Outcome State Fault Refusal :=
  coreCommand (.vz3Drop stall) (vzIssue ctl stall (· == 0x0D)) s

/-- VZ3_SWAP (R219). -/
def execVz3Swap (stall : Nat) (s : State) : Host.Outcome State Fault Refusal :=
  coreCommand (.vz3Swap stall) (vzIssue ctl stall (· == 0x0E)) s

/-- VZ3_OVER (R219). -/
def execVz3Over (stall : Nat) (s : State) : Host.Outcome State Fault Refusal :=
  coreCommand (.vz3Over stall) (vzIssue ctl stall (· == 0x0F)) s

/-- VZ3_ADD (R219). -/
def execVz3Add (stall : Nat) (s : State) : Host.Outcome State Fault Refusal :=
  coreCommand (.vz3Add stall) (vzIssue ctl stall (· == 0x10)) s

/-- VZ3_SUB (R219). -/
def execVz3Sub (stall : Nat) (s : State) : Host.Outcome State Fault Refusal :=
  coreCommand (.vz3Sub stall) (vzIssue ctl stall (· == 0x11)) s

/-- VZ3_MUL (R219). -/
def execVz3Mul (stall : Nat) (s : State) : Host.Outcome State Fault Refusal :=
  coreCommand (.vz3Mul stall) (vzIssue ctl stall (· == 0x12)) s

/-- VZ3_DIV (R219). -/
def execVz3Div (stall : Nat) (s : State) : Host.Outcome State Fault Refusal :=
  coreCommand (.vz3Div stall) (vzIssue ctl stall (· == 0x13)) s

/-- VZ3_REM (R219). -/
def execVz3Rem (stall : Nat) (s : State) : Host.Outcome State Fault Refusal :=
  coreCommand (.vz3Rem stall) (vzIssue ctl stall (· == 0x14)) s

/-- VZ3_NEG (R219). -/
def execVz3Neg (stall : Nat) (s : State) : Host.Outcome State Fault Refusal :=
  coreCommand (.vz3Neg stall) (vzIssue ctl stall (· == 0x15)) s

/-- VZ3_ASH (R219). -/
def execVz3Ash (stall : Nat) (s : State) : Host.Outcome State Fault Refusal :=
  coreCommand (.vz3Ash stall) (vzIssue ctl stall (· == 0x16)) s

/-- VZ3_EQ (R219). -/
def execVz3Eq (stall : Nat) (s : State) : Host.Outcome State Fault Refusal :=
  coreCommand (.vz3Eq stall) (vzIssue ctl stall (· == 0x17)) s

/-- VZ3_NE (R219). -/
def execVz3Ne (stall : Nat) (s : State) : Host.Outcome State Fault Refusal :=
  coreCommand (.vz3Ne stall) (vzIssue ctl stall (· == 0x18)) s

/-- VZ3_LT (R219). -/
def execVz3Lt (stall : Nat) (s : State) : Host.Outcome State Fault Refusal :=
  coreCommand (.vz3Lt stall) (vzIssue ctl stall (· == 0x19)) s

/-- VZ3_GE (R219). -/
def execVz3Ge (stall : Nat) (s : State) : Host.Outcome State Fault Refusal :=
  coreCommand (.vz3Ge stall) (vzIssue ctl stall (· == 0x1A)) s

/-- VZ3_LE (R219). -/
def execVz3Le (stall : Nat) (s : State) : Host.Outcome State Fault Refusal :=
  coreCommand (.vz3Le stall) (vzIssue ctl stall (· == 0x1B)) s

/-- VZ3_GT (R219). -/
def execVz3Gt (stall : Nat) (s : State) : Host.Outcome State Fault Refusal :=
  coreCommand (.vz3Gt stall) (vzIssue ctl stall (· == 0x1C)) s

/-- VZ3_AND (R219). -/
def execVz3And (stall : Nat) (s : State) : Host.Outcome State Fault Refusal :=
  coreCommand (.vz3And stall) (vzIssue ctl stall (· == 0x1D)) s

/-- VZ3_OR (R219). -/
def execVz3Or (stall : Nat) (s : State) : Host.Outcome State Fault Refusal :=
  coreCommand (.vz3Or stall) (vzIssue ctl stall (· == 0x1E)) s

/-- VZ3_XOR (R219). -/
def execVz3Xor (stall : Nat) (s : State) : Host.Outcome State Fault Refusal :=
  coreCommand (.vz3Xor stall) (vzIssue ctl stall (· == 0x1F)) s

/-- VZ3_JMP (R219). -/
def execVz3Jmp (stall : Nat) (s : State) : Host.Outcome State Fault Refusal :=
  coreCommand (.vz3Jmp stall) (vzIssue ctl stall (· == 0x20)) s

/-- VZ3_JF (R219). -/
def execVz3Jf (stall : Nat) (s : State) : Host.Outcome State Fault Refusal :=
  coreCommand (.vz3Jf stall) (vzIssue ctl stall (· == 0x21)) s

/-- VZ3_JT (R219). -/
def execVz3Jt (stall : Nat) (s : State) : Host.Outcome State Fault Refusal :=
  coreCommand (.vz3Jt stall) (vzIssue ctl stall (· == 0x22)) s

/-- VZ3_TAG (R219). -/
def execVz3Tag (stall : Nat) (s : State) : Host.Outcome State Fault Refusal :=
  coreCommand (.vz3Tag stall) (vzIssue ctl stall (· == 0x23)) s

/-- VZ3_LOADX (R219). -/
def execVz3Loadx (stall : Nat) (s : State) : Host.Outcome State Fault Refusal :=
  coreCommand (.vz3Loadx stall) (vzIssue ctl stall (· == 0x24)) s

/-- VZ3_STOREX (R219). -/
def execVz3Storex (stall : Nat) (s : State) : Host.Outcome State Fault Refusal :=
  coreCommand (.vz3Storex stall) (vzIssue ctl stall (· == 0x25)) s

/-- VZ3_CALLK (R219). -/
def execVz3Callk (stall : Nat) (s : State) : Host.Outcome State Fault Refusal :=
  coreCommand (.vz3Callk stall) (vzIssue ctl stall (· == 0x26)) s

/-- VZ3_RETN (R219). -/
def execVz3Retn (stall : Nat) (s : State) : Host.Outcome State Fault Refusal :=
  coreCommand (.vz3Retn stall) (vzIssue ctl stall (· == 0x27)) s

/-- VZ3_EXIT (R219). -/
def execVz3Exit (stall : Nat) (s : State) : Host.Outcome State Fault Refusal :=
  coreCommand (.vz3Exit stall) (vzIssue ctl stall (· == 0xFD)) s

/-- VZ3_NATIVE (R218). -/
def execVz3Native (stall : Nat) (s : State) : Host.Outcome State Fault Refusal :=
  coreCommand (.vz3Native stall) (vzIssue ctl stall (· == 0xFE)) s

/-- VZ3_BREAK (R219). -/
def execVz3Break (stall : Nat) (s : State) : Host.Outcome State Fault Refusal :=
  coreCommand (.vz3Break stall) (vzIssue ctl stall (· == 0xFF)) s

/-- VZ3_UNDEFINED (R219). -/
def execVz3Undefined (stall : Nat) (s : State) : Host.Outcome State Fault Refusal :=
  coreCommand (.vz3Undefined stall) (vzIssue ctl stall (fun b => decide (0x28 ≤ b) && decide (b ≤ 0xFC))) s

/-! ### Exceptions and events -/

/-- EXC_ENTRY (R147). -/
def execExcEntry (stall : Nat) (s : State) : Host.Outcome State Fault Refusal :=
  coreCommand (.excEntry stall) (excEntryMicro stall) s

/-- DEVICE_EVENT (R158). -/
def execDeviceEvent (core : Nat) (s : State) : Host.Outcome State Fault Refusal :=
  coreCommand (.deviceEvent core) (doDeviceEvent core) s

/-- TIMER (R156). -/
def execTimer (stall : Nat) (s : State) : Host.Outcome State Fault Refusal :=
  coreCommand (.timer stall) (doTimer stall) s

/-! ### Results and waits -/

/-- RESULT_DELIVERY (R180). -/
def execResultDelivery (cid reg : Nat) (s : State) : Host.Outcome State Fault Refusal :=
  coreCommand (.resultDelivery cid reg) (doResultDelivery cid reg) s

/-- WAITER_WAKE (R107). -/
def execWaiterWake (agent index : Nat) (s : State) : Host.Outcome State Fault Refusal :=
  coreCommand (.waiterWake agent index) (doWaiterWake agent index) s

/-- POLL_RETRY (R181). -/
def execPollRetry (cid reg : Nat) (s : State) : Host.Outcome State Fault Refusal :=
  coreCommand (.pollRetry cid reg) (doPollRetry cid reg) s

/-- BUFFER_DRAIN (R225). -/
def execBufferDrain (core line : Nat) (s : State) : Host.Outcome State Fault Refusal :=
  coreCommand (.bufferDrain core line) (doBufferDrain core line) s

/-! ### Parking and assignment -/

/-- PARK_CUT (R174). -/
def execParkCut (stall : Nat) (s : State) : Host.Outcome State Fault Refusal :=
  coreCommand (.parkCut stall) (doParkCut stall) s

/-- PARK_COMPLETE (R176). -/
def execParkComplete (stall : Nat) (s : State) : Host.Outcome State Fault Refusal :=
  coreCommand (.parkComplete stall) (doParkComplete stall) s

/-- PREEMPTION (R191). -/
def execPreemption (stall : Nat) (s : State) : Host.Outcome State Fault Refusal :=
  coreCommand (.preemption stall) (doPreemption stall) s

/-- STALL_ASSIGN (R184). -/
def execStallAssign (stall : Nat) (s : State) : Host.Outcome State Fault Refusal :=
  coreCommand (.stallAssign stall) (doStallAssign stall) s

/-- FRAME_RELOAD (R185). -/
def execFrameReload (stall reg : Nat) (s : State) : Host.Outcome State Fault Refusal :=
  coreCommand (.frameReload stall reg) (doFrameReload stall reg) s

/-- FLOAT_STATE_SWITCH (R188). -/
def execFloatStateSwitch (stall : Nat) (s : State) : Host.Outcome State Fault Refusal :=
  coreCommand (.floatStateSwitch stall) (floatSwitchWith ctl stall) s

/-! ### The stall window -/

/-- STALL_WINDOW_ACCESS (R197). -/
def execStallWindowAccess (stall offset : Nat) (op : WinOp) (s : State) : Host.Outcome State Fault Refusal :=
  coreCommand (.stallWindowAccess stall offset op) (doStallWindowAccess stall offset op) s

/-- HALT (R197). -/
def execHalt (stall : Nat) (s : State) : Host.Outcome State Fault Refusal :=
  coreCommand (.halt stall) (doHalt stall) s

/-- STALLCTL_START (R196). -/
def execStallctlStart (core : Nat) (s : State) : Host.Outcome State Fault Refusal :=
  coreCommand (.stallctlStart core) (fun s => s.startInt core) s

/-- KILL (R194). -/
def execKill (stall : Nat) (s : State) : Host.Outcome State Fault Refusal :=
  coreCommand (.kill stall) (doKill stall) s

end Sys2Proof.Machine
end

