-- ==== Sys2Proof/Machine/FabricCmds.lean ====
section
/-!
DEFINITION. The commands of the fabric: links, sounding, packets, remote operations, time.
-/

namespace Sys2Proof.Machine

/-! ### Links -/

/-- DATA_CODEWORD (R315). -/
def execDataCodeword (link : Nat) (fec : FecResult) (header : BitVec 20) (flits : List (List Byte)) (s : State) : Host.Outcome State Fault Refusal :=
  coreCommand (.dataCodeword link fec header flits) (doDataCodeword link fec header flits) s

/-- ALIGNMENT_CODEWORD (R316). -/
def execAlignmentCodeword (link : Nat) (good : BitVec 4) (s : State) : Host.Outcome State Fault Refusal :=
  coreCommand (.alignmentCodeword link good) (doAlignmentCodeword link good) s

/-- RETRY_TIMEOUT (R320). -/
def execRetryTimeout (link : Nat) (s : State) : Host.Outcome State Fault Refusal :=
  coreCommand (.retryTimeout link) (doRetryTimeout link) s

/-- LANE_FAILURE (R323). -/
def execLaneFailure (link lane : Nat) (s : State) : Host.Outcome State Fault Refusal :=
  coreCommand (.laneFailure link lane) (doLaneFailure link lane) s

/-- LK_RETRY_MS (R325). -/
def execLkRetryMs (link : Nat) (s : State) : Host.Outcome State Fault Refusal :=
  coreCommand (.lkRetryMs link) (doLkRetryMs link) s

/-- LINK_UP (R325). -/
def execLinkUp (link : Nat) (s : State) : Host.Outcome State Fault Refusal :=
  coreCommand (.linkUp link) (doLinkUp link) s

/-- RETRAIN (R324). -/
def execRetrain (link : Nat) (s : State) : Host.Outcome State Fault Refusal :=
  coreCommand (.retrain link) (doRetrain link) s

/-- TAKE_DOWN (R324). -/
def execTakeDown (link : Nat) (s : State) : Host.Outcome State Fault Refusal :=
  coreCommand (.takeDown link) (doTakeDown link) s

/-- RETRAIN_FULL_WIDTH (R323). -/
def execRetrainFullWidth (link : Nat) (s : State) : Host.Outcome State Fault Refusal :=
  coreCommand (.retrainFullWidth link) (doRetrainFull link) s

/-! ### Sounding -/

/-- HELLO (R326). -/
def execHello (link : Nat) (msg : List Byte) (s : State) : Host.Outcome State Fault Refusal :=
  coreCommand (.hello link msg) (doHello link msg) s

/-- LSA (R327). -/
def execLsa (link : Nat) (msg : List Byte) (s : State) : Host.Outcome State Fault Refusal :=
  coreCommand (.lsa link msg) (doLsa link msg) s

/-- LSA_REFRESH (R327). -/
def execLsaRefresh (s : State) : Host.Outcome State Fault Refusal :=
  coreCommand .lsaRefresh doLsaRefresh s

/-- SOUND_QUIET (R328). -/
def execSoundQuiet (s : State) : Host.Outcome State Fault Refusal :=
  coreCommand .soundQuiet doSoundQuiet s

/-- ASSIGN (R328). -/
def execAssign (link : Nat) (msg : List Byte) (s : State) : Host.Outcome State Fault Refusal :=
  coreCommand (.assign link msg) (doAssign link msg) s

/-- NODEDOWN (R326). -/
def execNodedown (link : Nat) (msg : List Byte) (s : State) : Host.Outcome State Fault Refusal :=
  coreCommand (.nodedown link msg) (doNodedown link msg) s

/-- START_SOUNDING (R327). -/
def execStartSounding (s : State) : Host.Outcome State Fault Refusal :=
  coreCommand .startSounding doStartSounding s

/-- REBUILD_CHARTS (R331). -/
def execRebuildCharts (s : State) : Host.Outcome State Fault Refusal :=
  coreCommand .rebuildCharts doRebuildCharts s

/-- STOP_SOUNDING (R327). -/
def execStopSounding (s : State) : Host.Outcome State Fault Refusal :=
  coreCommand .stopSounding doStopSounding s

/-! ### Packets -/

/-- PACKET_ROUTE (R338). -/
def execPacketRoute (index : Nat) (s : State) : Host.Outcome State Fault Refusal :=
  coreCommand (.packetRoute index) (doPacketRoute index) s

/-- ROUTE_HOLD (R340). -/
def execRouteHold (index : Nat) (s : State) : Host.Outcome State Fault Refusal :=
  coreCommand (.routeHold index) (doRouteHold index) s

/-- REQUEST_INJECTION (R372). -/
def execRequestInjection (s : State) : Host.Outcome State Fault Refusal :=
  coreCommand .requestInjection doRequestInjection s

/-! ### Requests at the home -/

/-- LOAD (R355). -/
def execLoad (s : State) : Host.Outcome State Fault Refusal :=
  coreCommand .load (homeWith fabricAccess ptLOAD) s

/-- STORE (R355). -/
def execStore (s : State) : Host.Outcome State Fault Refusal :=
  coreCommand .store (homeWith fabricAccess ptSTORE) s

/-- REMOTE_CAS (R355). -/
def execRemoteCas (s : State) : Host.Outcome State Fault Refusal :=
  coreCommand .remoteCas (homeWith fabricAccess ptCAS) s

/-- REMOTE_FADD (R355). -/
def execRemoteFadd (s : State) : Host.Outcome State Fault Refusal :=
  coreCommand .remoteFadd (homeWith fabricAccess ptFADD) s

/-- REMOTE_FILL (R355). -/
def execRemoteFill (s : State) : Host.Outcome State Fault Refusal :=
  coreCommand .remoteFill (homeWith fabricAccess ptFILL) s

/-- REMOTE_INVOKE (R358). -/
def execRemoteInvoke (s : State) : Host.Outcome State Fault Refusal :=
  coreCommand .remoteInvoke (homeWith fabricAccess ptINVOKE) s

/-- LIST (R290). -/
def execList (s : State) : Host.Outcome State Fault Refusal :=
  coreCommand .list doList s

/-- DROP (R291). -/
def execDrop (s : State) : Host.Outcome State Fault Refusal :=
  coreCommand .drop doDrop s

/-- RESENT_ENTRY_EXPIRY (R360). -/
def execResentEntryExpiry (index : Nat) (s : State) : Host.Outcome State Fault Refusal :=
  coreCommand (.resentEntryExpiry index) (doResentEntryExpiry index) s

/-! ### Responses -/

/-- DATA (R350). -/
def execData (s : State) : Host.Outcome State Fault Refusal :=
  coreCommand .data doData s

/-- ACK (R350). -/
def execAck (s : State) : Host.Outcome State Fault Refusal :=
  coreCommand .ack doAck s

/-- LINE (R356). -/
def execLine (s : State) : Host.Outcome State Fault Refusal :=
  coreCommand .line doLine s

/-- REFUSE (R151). -/
def execRefuse (s : State) : Host.Outcome State Fault Refusal :=
  coreCommand .refuse doRefuse s

/-- RETRY (R352). -/
def execRetry (s : State) : Host.Outcome State Fault Refusal :=
  coreCommand .retry doRetry s

/-- WAITING (R352). -/
def execWaiting (s : State) : Host.Outcome State Fault Refusal :=
  coreCommand .waiting doWaiting s

/-- XACK (R290). -/
def execXack (s : State) : Host.Outcome State Fault Refusal :=
  coreCommand .xack doXack s

/-- REMOTE_TIMEOUT (R352). -/
def execRemoteTimeout (slot : Nat) (s : State) : Host.Outcome State Fault Refusal :=
  coreCommand (.remoteTimeout slot) (doRemoteTimeout slot) s

/-! ### Time -/

/-- TSYNC_INTERVAL (R345). -/
def execTsyncInterval (s : State) : Host.Outcome State Fault Refusal :=
  coreCommand .tsyncInterval doTsyncInterval s

/-- TSYNC_REQ (R345). -/
def execTsyncReq (link : Nat) (t1 t2 t3 : Nat) (s : State) : Host.Outcome State Fault Refusal :=
  coreCommand (.tsyncReq link t1 t2 t3) (doTsyncReq link t1 t2 t3) s

/-- TSYNC_RSP (R345). -/
def execTsyncRsp (t1 t2 t3 t4 : Nat) (s : State) : Host.Outcome State Fault Refusal :=
  coreCommand (.tsyncRsp t1 t2 t3 t4) (doTsyncRsp t1 t2 t3 t4) s

end Sys2Proof.Machine
end

