-- ==== Sys2Proof/Machine/UnitCmds.lean ====
section
/-!
DEFINITION. The commands of the memory system: translation, haylofts, ports, the collectors, and the berths.
-/

namespace Sys2Proof.Machine

/-! ### Translation -/

/-- TLB_WALK (R254). -/
def execTlbWalk (unit : TlbUnit) (berth va : Nat) (speculative : Bool) (s : State) : Host.Outcome State Fault Refusal :=
  coreCommand (.tlbWalk unit berth va speculative) (doTlbWalk unit berth va) s

/-- XCOMMIT (R261). -/
def execXcommit (berth : Nat) (s : State) : Host.Outcome State Fault Refusal :=
  coreCommand (.xcommit berth) (doXcommit berth) s

/-- TLBI_ALL (R266). -/
def execTlbiAll (berth : Nat) (s : State) : Host.Outcome State Fault Refusal :=
  coreCommand (.tlbiAll berth) (doTlbiAll berth) s

/-- TLBI_ADDR (R266). -/
def execTlbiAddr (berth : Nat) (s : State) : Host.Outcome State Fault Refusal :=
  coreCommand (.tlbiAddr berth) (doTlbiAddr berth) s

/-- TLBI_COMPLETE (R266). -/
def execTlbiComplete (berth : Nat) (s : State) : Host.Outcome State Fault Refusal :=
  coreCommand (.tlbiComplete berth) (doTlbiComplete berth) s

/-! ### Haylofts -/

/-- STRIDE_PREFETCH (R235). -/
def execStridePrefetch (shed stream : Nat) (s : State) : Host.Outcome State Fault Refusal :=
  coreCommand (.stridePrefetch shed stream) (doStridePrefetch shed stream) s

/-- OWNERSHIP_REQUEST (R230). -/
def execOwnershipRequest (shed line : Nat) (s : State) : Host.Outcome State Fault Refusal :=
  coreCommand (.ownershipRequest shed line) (doOwnershipRequest shed line) s

/-- DIRECTORY_EVICTION (R229). -/
def execDirectoryEviction (line : Nat) (s : State) : Host.Outcome State Fault Refusal :=
  coreCommand (.directoryEviction line) (doDirectoryEviction line) s

/-- WRITE_BACK_ACK (R231). -/
def execWriteBackAck (shed line : Nat) (s : State) : Host.Outcome State Fault Refusal :=
  coreCommand (.writeBackAck shed line) (doWriteBackAck shed line) s

/-- IMMUT_TTL (R233). -/
def execImmutTtl (shed : Nat) (s : State) : Host.Outcome State Fault Refusal :=
  coreCommand (.immutTtl shed) (doImmutTtl shed) s

/-- CLEAN (R239). -/
def execClean (shed : Nat) (s : State) : Host.Outcome State Fault Refusal :=
  coreCommand (.clean shed) (fun s => s.updShed shed (fun h => h.startMaint 1)) s

/-- INVAL (R239). -/
def execInval (shed : Nat) (s : State) : Host.Outcome State Fault Refusal :=
  coreCommand (.inval shed) (fun s => s.updShed shed (fun h => h.startMaint 2)) s

/-- CLEAN_SHED (R239). -/
def execCleanShed (shed : Nat) (s : State) : Host.Outcome State Fault Refusal :=
  coreCommand (.cleanShed shed) (fun s => s.updShed shed (fun h => h.startMaint 3)) s

/-- IMMUT_DROP (R239). -/
def execImmutDrop (shed : Nat) (s : State) : Host.Outcome State Fault Refusal :=
  coreCommand (.immutDrop shed) (fun s => s.updShed shed (fun h => h.startMaint 4)) s

/-- MAINT_COMPLETE (R239). -/
def execMaintComplete (shed : Nat) (s : State) : Host.Outcome State Fault Refusal :=
  coreCommand (.maintComplete shed) (doMaintComplete shed) s

/-- WAY_LOCK (R236). -/
def execWayLock (shed : Nat) (value : Word64) (s : State) : Host.Outcome State Fault Refusal :=
  coreCommand (.wayLock shed value) (fun s => s.updShed shed (fun h => h.writeLock value)) s

/-- WAY_PWR (R237). -/
def execWayPwr (shed : Nat) (value : Word64) (s : State) : Host.Outcome State Fault Refusal :=
  coreCommand (.wayPwr shed value) (fun s => s.updShed shed (fun h => h.writePwr value)) s

/-- WAY_CLEAN_DONE (R237). -/
def execWayCleanDone (shed way : Nat) (s : State) : Host.Outcome State Fault Refusal :=
  coreCommand (.wayCleanDone shed way) (doWayCleanDone shed way) s

/-- WAY_POWER_UP_DONE (R237). -/
def execWayPowerUpDone (shed way : Nat) (s : State) : Host.Outcome State Fault Refusal :=
  coreCommand (.wayPowerUpDone shed way) (doWayPowerUpDone shed way) s

/-! ### Memory ports -/

/-- LINE_READ (R305). -/
def execLineRead (line : DeviceLine) (s : State) : Host.Outcome State Fault Refusal :=
  coreCommand (.lineRead line) (doLineRead line.line line.poison) s

/-- SIDECAR_FETCH (R304). -/
def execSidecarFetch (port : Nat) (group : DeviceGroup) (s : State) : Host.Outcome State Fault Refusal :=
  coreCommand (.sidecarFetch port group) (doSidecarFetch port group.group group.poison) s

/-- TRAIN (R299). -/
def execTrain (port : Nat) (s : State) : Host.Outcome State Fault Refusal :=
  coreCommand (.train port) (doTrain port) s

/-- PORT_TRAINING_END (R299). -/
def execPortTrainingEnd (port : Nat) (how : TrainEnd) (s : State) : Host.Outcome State Fault Refusal :=
  coreCommand (.portTrainingEnd port how) (fun s => (doPortTrainingEnd port how s).bootInit port) s

/-- INIT (R300). -/
def execPortInit (port : Nat) (s : State) : Host.Outcome State Fault Refusal :=
  coreCommand (.portInit port) (doInit port) s

/-- CODED_UNIT_INIT (R300). -/
def execCodedUnitInit (port : Nat) (s : State) : Host.Outcome State Fault Refusal :=
  coreCommand (.codedUnitInit port) (doCodedUnitInit port) s

/-- OFF (R304). -/
def execPortOff (port : Nat) (s : State) : Host.Outcome State Fault Refusal :=
  coreCommand (.portOff port) (doOff port) s

/-- RESYNC (R311). -/
def execResync (port : Nat) (s : State) : Host.Outcome State Fault Refusal :=
  coreCommand (.resync port) (doResync port) s

/-- RESYNC_UNIT_COPIED (R311). -/
def execResyncUnitCopied (port : Nat) (s : State) : Host.Outcome State Fault Refusal :=
  coreCommand (.resyncUnitCopied port) (doResyncUnitCopied port) s

/-- FLUSH (R304). -/
def execFlush (port : Nat) (s : State) : Host.Outcome State Fault Refusal :=
  coreCommand (.flush port) (doFlush port) s

/-- PORT_FAILURE (R309). -/
def execPortFailure (port : Nat) (s : State) : Host.Outcome State Fault Refusal :=
  coreCommand (.portFailure port) (doPortFailure port) s

/-- PORT_TIMEOUT (R309). -/
def execPortTimeout (port : Nat) (s : State) : Host.Outcome State Fault Refusal :=
  coreCommand (.portTimeout port) (doPortTimeout port) s

/-- S2M_NDR (R304). -/
def execS2mNdr (port : Nat) (kind : NdrKind) (ok : Bool) (s : State) : Host.Outcome State Fault Refusal :=
  coreCommand (.s2mNdr port kind ok) (doS2mNdr port kind ok) s

/-- CXL_EVENT_RECORD (R307). -/
def execCxlEventRecord (port count : Nat) (s : State) : Host.Outcome State Fault Refusal :=
  coreCommand (.cxlEventRecord port count) (doCxlEventRecord port count) s

/-! ### Collectors -/

/-- MINOR_CYCLE (R280). -/
def execMinorCycle (berth : Nat) (s : State) : Host.Outcome State Fault Refusal :=
  coreCommand (.minorCycle berth) (doMinorCycle berth) s

/-- MAJOR_CYCLE (R281). -/
def execMajorCycle (berth : Nat) (s : State) : Host.Outcome State Fault Refusal :=
  coreCommand (.majorCycle berth) (doMajorCycle berth) s

/-- SWEEP (R287). -/
def execSweep (berth : Nat) (s : State) : Host.Outcome State Fault Refusal :=
  coreCommand (.sweep berth) (doSweep berth) s

/-- CLEAR_STATISTICS (R295). -/
def execClearStatistics (berth : Nat) (s : State) : Host.Outcome State Fault Refusal :=
  coreCommand (.clearStatistics berth) (doClearStatistics berth) s

/-- MARK_END (R281). -/
def execMarkEnd (berth : Nat) (minor : Bool) (s : State) : Host.Outcome State Fault Refusal :=
  coreCommand (.markEnd berth minor) (doMarkEnd berth minor) s

/-- EVAC_END (R280). -/
def execEvacEnd (berth : Nat) (minor : Bool) (s : State) : Host.Outcome State Fault Refusal :=
  coreCommand (.evacEnd berth minor) (doEvacEnd berth minor) s

/-- UPDATE_END (R282). -/
def execUpdateEnd (berth : Nat) (minor : Bool) (s : State) : Host.Outcome State Fault Refusal :=
  coreCommand (.updateEnd berth minor) (doUpdateEnd berth minor) s

/-- SWEEP_END (R287). -/
def execSweepEnd (berth : Nat) (s : State) : Host.Outcome State Fault Refusal :=
  coreCommand (.sweepEnd berth) (doSweepEnd berth) s

/-- OBJ_CLAIM (R274). -/
def execObjClaim (berth n : Nat) (s : State) : Host.Outcome State Fault Refusal :=
  coreCommand (.objClaim berth n) (doObjClaim berth n) s

/-- OBJ_STATUS_DONE (R274). -/
def execObjStatusDone (berth : Nat) (s : State) : Host.Outcome State Fault Refusal :=
  coreCommand (.objStatusDone berth) (doObjStatusDone berth) s

/-! ### Berths -/

/-- START (R367). -/
def execBerthStart (berth : Nat) (s : State) : Host.Outcome State Fault Refusal :=
  coreCommand (.berthStart berth) (doBerthStart berth) s

/-- RESET_DRAIN (R377). -/
def execResetDrain (berth : Nat) (s : State) : Host.Outcome State Fault Refusal :=
  coreCommand (.resetDrain berth) (doResetDrain berth) s

/-- RESET_SQUASH (R377). -/
def execResetSquash (berth : Nat) (s : State) : Host.Outcome State Fault Refusal :=
  coreCommand (.resetSquash berth) (doResetSquash berth) s

/-- REMOVE_DRAIN (R377). -/
def execRemoveDrain (berth : Nat) (s : State) : Host.Outcome State Fault Refusal :=
  coreCommand (.removeDrain berth) (doRemoveDrain berth) s

/-- REMOVE_SQUASH (R377). -/
def execRemoveSquash (berth : Nat) (s : State) : Host.Outcome State Fault Refusal :=
  coreCommand (.removeSquash berth) (doRemoveSquash berth) s

/-- DRAIN_LIMIT (R377). -/
def execDrainLimit (berth : Nat) (s : State) : Host.Outcome State Fault Refusal :=
  coreCommand (.drainLimit berth) (doDrainLimit berth) s

end Sys2Proof.Machine
end

