-- ==== Sys2Proof/Machine/Dispatch.lean ====
section
/-!
DEFINITION. The meaning of every command: one arm for each row of the table.
-/

namespace Sys2Proof.Machine

open Sys2Proof Host

/-- The effect of a command on everything but the queue. -/
def exec (i : Instr) (s : State) : Host.Outcome State Fault Refusal :=
  match i with
  | .bundleIssue stall => Sys2Proof.Machine.execBundleIssue stall s
  | .microwordWait core seqr => Sys2Proof.Machine.execMicrowordWait core seqr s
  | .vz3Nop stall => Sys2Proof.Machine.execVz3Nop stall s
  | .vz3Pushb stall => Sys2Proof.Machine.execVz3Pushb stall s
  | .vz3Pushw stall => Sys2Proof.Machine.execVz3Pushw stall s
  | .vz3Pushnil stall => Sys2Proof.Machine.execVz3Pushnil stall s
  | .vz3Pusht stall => Sys2Proof.Machine.execVz3Pusht stall s
  | .vz3Pushf stall => Sys2Proof.Machine.execVz3Pushf stall s
  | .vz3Pushk stall => Sys2Proof.Machine.execVz3Pushk stall s
  | .vz3Pushkw stall => Sys2Proof.Machine.execVz3Pushkw stall s
  | .vz3Loadl stall => Sys2Proof.Machine.execVz3Loadl stall s
  | .vz3Storel stall => Sys2Proof.Machine.execVz3Storel stall s
  | .vz3Loadlw stall => Sys2Proof.Machine.execVz3Loadlw stall s
  | .vz3Storelw stall => Sys2Proof.Machine.execVz3Storelw stall s
  | .vz3Dup stall => Sys2Proof.Machine.execVz3Dup stall s
  | .vz3Drop stall => Sys2Proof.Machine.execVz3Drop stall s
  | .vz3Swap stall => Sys2Proof.Machine.execVz3Swap stall s
  | .vz3Over stall => Sys2Proof.Machine.execVz3Over stall s
  | .vz3Add stall => Sys2Proof.Machine.execVz3Add stall s
  | .vz3Sub stall => Sys2Proof.Machine.execVz3Sub stall s
  | .vz3Mul stall => Sys2Proof.Machine.execVz3Mul stall s
  | .vz3Div stall => Sys2Proof.Machine.execVz3Div stall s
  | .vz3Rem stall => Sys2Proof.Machine.execVz3Rem stall s
  | .vz3Neg stall => Sys2Proof.Machine.execVz3Neg stall s
  | .vz3Ash stall => Sys2Proof.Machine.execVz3Ash stall s
  | .vz3Eq stall => Sys2Proof.Machine.execVz3Eq stall s
  | .vz3Ne stall => Sys2Proof.Machine.execVz3Ne stall s
  | .vz3Lt stall => Sys2Proof.Machine.execVz3Lt stall s
  | .vz3Ge stall => Sys2Proof.Machine.execVz3Ge stall s
  | .vz3Le stall => Sys2Proof.Machine.execVz3Le stall s
  | .vz3Gt stall => Sys2Proof.Machine.execVz3Gt stall s
  | .vz3And stall => Sys2Proof.Machine.execVz3And stall s
  | .vz3Or stall => Sys2Proof.Machine.execVz3Or stall s
  | .vz3Xor stall => Sys2Proof.Machine.execVz3Xor stall s
  | .vz3Jmp stall => Sys2Proof.Machine.execVz3Jmp stall s
  | .vz3Jf stall => Sys2Proof.Machine.execVz3Jf stall s
  | .vz3Jt stall => Sys2Proof.Machine.execVz3Jt stall s
  | .vz3Tag stall => Sys2Proof.Machine.execVz3Tag stall s
  | .vz3Loadx stall => Sys2Proof.Machine.execVz3Loadx stall s
  | .vz3Storex stall => Sys2Proof.Machine.execVz3Storex stall s
  | .vz3Callk stall => Sys2Proof.Machine.execVz3Callk stall s
  | .vz3Retn stall => Sys2Proof.Machine.execVz3Retn stall s
  | .vz3Exit stall => Sys2Proof.Machine.execVz3Exit stall s
  | .vz3Native stall => Sys2Proof.Machine.execVz3Native stall s
  | .vz3Break stall => Sys2Proof.Machine.execVz3Break stall s
  | .excEntry stall => Sys2Proof.Machine.execExcEntry stall s
  | .deviceEvent core => Sys2Proof.Machine.execDeviceEvent core s
  | .timer stall => Sys2Proof.Machine.execTimer stall s
  | .resultDelivery cid reg => Sys2Proof.Machine.execResultDelivery cid reg s
  | .waiterWake agent index => Sys2Proof.Machine.execWaiterWake agent index s
  | .pollRetry cid reg => Sys2Proof.Machine.execPollRetry cid reg s
  | .bufferDrain core line => Sys2Proof.Machine.execBufferDrain core line s
  | .parkCut stall => Sys2Proof.Machine.execParkCut stall s
  | .parkComplete stall => Sys2Proof.Machine.execParkComplete stall s
  | .preemption stall => Sys2Proof.Machine.execPreemption stall s
  | .stallAssign stall => Sys2Proof.Machine.execStallAssign stall s
  | .frameReload stall reg => Sys2Proof.Machine.execFrameReload stall reg s
  | .floatStateSwitch stall => Sys2Proof.Machine.execFloatStateSwitch stall s
  | .tlbWalk unit berth va speculative => Sys2Proof.Machine.execTlbWalk unit berth va speculative s
  | .stridePrefetch shed stream => Sys2Proof.Machine.execStridePrefetch shed stream s
  | .ownershipRequest shed line => Sys2Proof.Machine.execOwnershipRequest shed line s
  | .directoryEviction line => Sys2Proof.Machine.execDirectoryEviction line s
  | .writeBackAck shed line => Sys2Proof.Machine.execWriteBackAck shed line s
  | .lineRead line => Sys2Proof.Machine.execLineRead line s
  | .sidecarFetch port group => Sys2Proof.Machine.execSidecarFetch port group s
  | .immutTtl shed => Sys2Proof.Machine.execImmutTtl shed s
  | .clean shed => Sys2Proof.Machine.execClean shed s
  | .inval shed => Sys2Proof.Machine.execInval shed s
  | .cleanShed shed => Sys2Proof.Machine.execCleanShed shed s
  | .immutDrop shed => Sys2Proof.Machine.execImmutDrop shed s
  | .wayLock shed value => Sys2Proof.Machine.execWayLock shed value s
  | .wayPwr shed value => Sys2Proof.Machine.execWayPwr shed value s
  | .wayCleanDone shed way => Sys2Proof.Machine.execWayCleanDone shed way s
  | .xcommit berth => Sys2Proof.Machine.execXcommit berth s
  | .tlbiAll berth => Sys2Proof.Machine.execTlbiAll berth s
  | .tlbiAddr berth => Sys2Proof.Machine.execTlbiAddr berth s
  | .tlbiComplete berth => Sys2Proof.Machine.execTlbiComplete berth s
  | .minorCycle berth => Sys2Proof.Machine.execMinorCycle berth s
  | .majorCycle berth => Sys2Proof.Machine.execMajorCycle berth s
  | .sweep berth => Sys2Proof.Machine.execSweep berth s
  | .clearStatistics berth => Sys2Proof.Machine.execClearStatistics berth s
  | .markEnd berth minor => Sys2Proof.Machine.execMarkEnd berth minor s
  | .evacEnd berth minor => Sys2Proof.Machine.execEvacEnd berth minor s
  | .updateEnd berth minor => Sys2Proof.Machine.execUpdateEnd berth minor s
  | .sweepEnd berth => Sys2Proof.Machine.execSweepEnd berth s
  | .objClaim berth n => Sys2Proof.Machine.execObjClaim berth n s
  | .berthStart berth => Sys2Proof.Machine.execBerthStart berth s
  | .resetDrain berth => Sys2Proof.Machine.execResetDrain berth s
  | .resetSquash berth => Sys2Proof.Machine.execResetSquash berth s
  | .removeDrain berth => Sys2Proof.Machine.execRemoveDrain berth s
  | .removeSquash berth => Sys2Proof.Machine.execRemoveSquash berth s
  | .drainLimit berth => Sys2Proof.Machine.execDrainLimit berth s
  | .berthCommit path berth => Sys2Proof.Machine.execBerthCommit path berth s
  | .quiescentPoint index => Sys2Proof.Machine.execQuiescentPoint index s
  | .quiesceLimit index => Sys2Proof.Machine.execQuiesceLimit index s
  | .discard path index => Sys2Proof.Machine.execDiscard path index s
  | .entryWrite path index sub value => Sys2Proof.Machine.execEntryWrite path index sub value s
  | .train port => Sys2Proof.Machine.execTrain port s
  | .portInit port => Sys2Proof.Machine.execPortInit port s
  | .codedUnitInit port => Sys2Proof.Machine.execCodedUnitInit port s
  | .portOff port => Sys2Proof.Machine.execPortOff port s
  | .resync port => Sys2Proof.Machine.execResync port s
  | .flush port => Sys2Proof.Machine.execFlush port s
  | .mapCommit path => Sys2Proof.Machine.execMapCommit path s
  | .portFailure port => Sys2Proof.Machine.execPortFailure port s
  | .portTimeout port => Sys2Proof.Machine.execPortTimeout port s
  | .dataCodeword link fec header flits => Sys2Proof.Machine.execDataCodeword link fec header flits s
  | .alignmentCodeword link good => Sys2Proof.Machine.execAlignmentCodeword link good s
  | .retryTimeout link => Sys2Proof.Machine.execRetryTimeout link s
  | .laneFailure link lane => Sys2Proof.Machine.execLaneFailure link lane s
  | .lkRetryMs link => Sys2Proof.Machine.execLkRetryMs link s
  | .linkUp link => Sys2Proof.Machine.execLinkUp link s
  | .lkEnable path link enable => Sys2Proof.Machine.execLkEnable path link enable s
  | .retrain link => Sys2Proof.Machine.execRetrain link s
  | .takeDown link => Sys2Proof.Machine.execTakeDown link s
  | .retrainFullWidth link => Sys2Proof.Machine.execRetrainFullWidth link s
  | .hello link msg => Sys2Proof.Machine.execHello link msg s
  | .lsa link msg => Sys2Proof.Machine.execLsa link msg s
  | .lsaRefresh => Sys2Proof.Machine.execLsaRefresh s
  | .soundQuiet => Sys2Proof.Machine.execSoundQuiet s
  | .assign link msg => Sys2Proof.Machine.execAssign link msg s
  | .nodedown link msg => Sys2Proof.Machine.execNodedown link msg s
  | .startSounding => Sys2Proof.Machine.execStartSounding s
  | .rebuildCharts => Sys2Proof.Machine.execRebuildCharts s
  | .stopSounding => Sys2Proof.Machine.execStopSounding s
  | .chartCommit path => Sys2Proof.Machine.execChartCommit path s
  | .packetRoute index => Sys2Proof.Machine.execPacketRoute index s
  | .routeHold index => Sys2Proof.Machine.execRouteHold index s
  | .requestInjection => Sys2Proof.Machine.execRequestInjection s
  | .load => Sys2Proof.Machine.execLoad s
  | .store => Sys2Proof.Machine.execStore s
  | .remoteCas => Sys2Proof.Machine.execRemoteCas s
  | .remoteFadd => Sys2Proof.Machine.execRemoteFadd s
  | .remoteFill => Sys2Proof.Machine.execRemoteFill s
  | .remoteInvoke => Sys2Proof.Machine.execRemoteInvoke s
  | .list => Sys2Proof.Machine.execList s
  | .drop => Sys2Proof.Machine.execDrop s
  | .data => Sys2Proof.Machine.execData s
  | .ack => Sys2Proof.Machine.execAck s
  | .line => Sys2Proof.Machine.execLine s
  | .refuse => Sys2Proof.Machine.execRefuse s
  | .retry => Sys2Proof.Machine.execRetry s
  | .waiting => Sys2Proof.Machine.execWaiting s
  | .xack => Sys2Proof.Machine.execXack s
  | .remoteTimeout slot => Sys2Proof.Machine.execRemoteTimeout slot s
  | .resentEntryExpiry index => Sys2Proof.Machine.execResentEntryExpiry index s
  | .tsyncInterval => Sys2Proof.Machine.execTsyncInterval s
  | .tsyncReq link t1 t2 t3 => Sys2Proof.Machine.execTsyncReq link t1 t2 t3 s
  | .tsyncRsp t1 t2 t3 t4 => Sys2Proof.Machine.execTsyncRsp t1 t2 t3 t4 s
  | .stallWindowAccess stall offset op => Sys2Proof.Machine.execStallWindowAccess stall offset op s
  | .halt stall => Sys2Proof.Machine.execHalt stall s
  | .stallctlStart core => Sys2Proof.Machine.execStallctlStart core s
  | .kill stall => Sys2Proof.Machine.execKill stall s
  | .helmOpen node seqn => Sys2Proof.Machine.execHelmOpen node seqn s
  | .helmClose node seqn => Sys2Proof.Machine.execHelmClose node seqn s
  | .helmRead node seqn index sub => Sys2Proof.Machine.execHelmRead node seqn index sub s
  | .helmWrite node seqn index sub value => Sys2Proof.Machine.execHelmWrite node seqn index sub value s
  | .ctrlRd node seqn offset => Sys2Proof.Machine.execCtrlRd node seqn offset s
  | .ctrlWr node seqn offset value => Sys2Proof.Machine.execCtrlWr node seqn offset value s
  | .dpWrite node seqn => Sys2Proof.Machine.execDpWrite node seqn s
  | .dpRead node seqn => Sys2Proof.Machine.execDpRead node seqn s
  | .dpAck node seqn next => Sys2Proof.Machine.execDpAck node seqn next s
  | .seg node segno bytes => Sys2Proof.Machine.execSeg node segno bytes s
  | .sessionTimeout node => Sys2Proof.Machine.execSessionTimeout node s
  | .helmAckTimeout node => Sys2Proof.Machine.execHelmAckTimeout node s
  | .alive => Sys2Proof.Machine.execAlive s
  | .busOffRecovery => Sys2Proof.Machine.execBusOffRecovery s
  | .dpAddr inst_ value => Sys2Proof.Machine.execDpAddr inst_ value s
  | .dpLen inst_ value => Sys2Proof.Machine.execDpLen inst_ value s
  | .dpData inst_ wr bytes count => Sys2Proof.Machine.execDpData inst_ wr bytes count s
  | .verifyAndLoad path => Sys2Proof.Machine.execVerifyAndLoad path s
  | .verifyOnly path => Sys2Proof.Machine.execVerifyOnly path s
  | .winBase path slot value => Sys2Proof.Machine.execWinBase path slot value s
  | .lock path slot value => Sys2Proof.Machine.execLock path slot value s
  | .violClear path slot value => Sys2Proof.Machine.execViolClear path slot value s
  | .gateFence path => Sys2Proof.Machine.execGateFence path s
  | .gateFenceComplete => Sys2Proof.Machine.execGateFenceComplete s
  | .hostDoorbell value => Sys2Proof.Machine.execHostDoorbell value s
  | .hostLinkDown => Sys2Proof.Machine.execHostLinkDown s
  | .hostLinkUp => Sys2Proof.Machine.execHostLinkUp s
  | .functionLevelReset vf => Sys2Proof.Machine.execFunctionLevelReset vf s
  | .pePerstN level => Sys2Proof.Machine.execPePerstN level s
  | .watchReport hw => Sys2Proof.Machine.execWatchReport hw s
  | .watchDisagreement => Sys2Proof.Machine.execWatchDisagreement s
  | .moorCmd path value => Sys2Proof.Machine.execMoorCmd path value s
  | .moorN level widthNs => Sys2Proof.Machine.execMoorN level widthNs s
  | .feClear path value => Sys2Proof.Machine.execFeClear path value s
  | .injectCorr path value => Sys2Proof.Machine.execInjectCorr path value s
  | .injectUncorr path value => Sys2Proof.Machine.execInjectUncorr path value s
  | .injectPoison path value => Sys2Proof.Machine.execInjectPoison path value s
  | .injectUnit path value => Sys2Proof.Machine.execInjectUnit path value s
  | .lanternToggle => Sys2Proof.Machine.execLanternToggle s
  | .coreDivReq path value => Sys2Proof.Machine.execCoreDivReq path value s
  | .voutSettled => Sys2Proof.Machine.execVoutSettled s
  | .voutTimeout => Sys2Proof.Machine.execVoutTimeout s
  | .throttle shed tenths => Sys2Proof.Machine.execThrottle shed tenths s
  | .throttleExit shed tenths => Sys2Proof.Machine.execThrottleExit shed tenths s
  | .thermalTrip sensor tenths => Sys2Proof.Machine.execThermalTrip sensor tenths s
  | .thermtripN level widthNs => Sys2Proof.Machine.execThermtripN level widthNs s
  | .pmbusPoll status => Sys2Proof.Machine.execPmbusPoll status s
  | .pmbAlertN status => Sys2Proof.Machine.execPmbAlertN status s
  | .ageAlarm shed margin => Sys2Proof.Machine.execAgeAlarm shed margin s
  | .powerOnReset thermtripLow => Sys2Proof.Machine.execPowerOnReset thermtripLow s
  | .pwrgoodFall => Sys2Proof.Machine.execPwrgoodFall s
  | .resetN level widthNs => Sys2Proof.Machine.execResetN level widthNs s
  | .resetCmd path value => Sys2Proof.Machine.execResetCmd path value s
  | .resetExit => Sys2Proof.Machine.execResetExit s
  | .boot flash => Sys2Proof.Machine.execBoot flash s
  | .yardGo path value => Sys2Proof.Machine.execYardGo path value s
  | .tallyArm path value => Sys2Proof.Machine.execTallyArm path value s
  | .tallyWrite path tally value => Sys2Proof.Machine.execTallyWrite path tally value s
  | .bypass => Sys2Proof.Machine.execBypass s
  | .idcode => Sys2Proof.Machine.execIdcode s
  | .samplePreload shift => Sys2Proof.Machine.execSamplePreload shift s
  | .extest => Sys2Proof.Machine.execExtest s
  | .dbgAccess offset wr => Sys2Proof.Machine.execDbgAccess offset wr s
  | .trstN level => Sys2Proof.Machine.execTrstN level s
  | .vz3Undefined stall => Sys2Proof.Machine.execVz3Undefined stall s
  | .portTrainingEnd port how => Sys2Proof.Machine.execPortTrainingEnd port how s
  | .resyncUnitCopied port => Sys2Proof.Machine.execResyncUnitCopied port s
  | .maintComplete shed => Sys2Proof.Machine.execMaintComplete shed s
  | .wayPowerUpDone shed way => Sys2Proof.Machine.execWayPowerUpDone shed way s
  | .s2mNdr port kind ok => Sys2Proof.Machine.execS2mNdr port kind ok s
  | .cxlEventRecord port count => Sys2Proof.Machine.execCxlEventRecord port count s
  | .canErrorFrame busOff => Sys2Proof.Machine.execCanErrorFrame busOff s
  | .patchCheckEnd => Sys2Proof.Machine.execPatchCheckEnd s
  | .tallyProgrammed => Sys2Proof.Machine.execTallyProgrammed s
  | .objStatusDone berth => Sys2Proof.Machine.execObjStatusDone berth s

end Sys2Proof.Machine
end

