-- ==== Sys2Proof/Safety.lean ====
section
/-!
DEFINITION. The terms that claims use: the canonical form of memory, runs that never stop, the conditions under which a command has its own
effect.
-/

namespace Sys2Proof

/-- The canonical form of memory: keys strictly rising, no entry equal to what an unlisted granule reads as (log entry 3). -/
abbrev Memory.wf (m : SMap MGran) : Bool := SMap.wf (fun _ => MGran.zero) m

/-! ### The domains of commands (log entry 4) -/

/-- Commands of the pins and the test access port, and what acts in reset (19 R438, R439, R449; 20 R465). -/
def Instr.actsInReset (c : Instr) : Bool :=
  match c with
  | .pePerstN .. | .moorN .. | .thermtripN .. | .powerOnReset .. | .pwrgoodFall | .resetN .. | .resetExit | .tallyProgrammed | .bypass | .idcode
  | .samplePreload .. | .extest | .trstN .. => true
  | _ => false

/-- Commands of the helm, its bus and ports, the gates, the host port, the watch, clocks, power and boot (18 R421, R422). -/
def Instr.ofHelm (c : Instr) : Bool :=
  match c with
  | .entryWrite .. | .berthCommit .. | .mapCommit .. | .chartCommit .. | .quiescentPoint .. | .quiesceLimit .. | .discard .. | .lkEnable ..
  | .verifyAndLoad .. | .verifyOnly .. | .patchCheckEnd | .helmOpen .. | .helmClose .. | .helmRead .. | .helmWrite .. | .ctrlRd .. | .ctrlWr ..
  | .dpWrite .. | .dpRead .. | .dpAck .. | .seg .. | .sessionTimeout .. | .helmAckTimeout .. | .alive | .busOffRecovery | .canErrorFrame ..
  | .dpAddr .. | .dpLen .. | .dpData .. | .winBase .. | .lock .. | .violClear .. | .gateFence .. | .gateFenceComplete | .hostDoorbell ..
  | .hostLinkDown | .hostLinkUp | .functionLevelReset .. | .watchReport .. | .watchDisagreement | .moorCmd .. | .feClear .. | .injectCorr ..
  | .injectUncorr .. | .injectPoison .. | .injectUnit .. | .lanternToggle | .coreDivReq .. | .voutSettled | .voutTimeout | .throttle ..
  | .throttleExit .. | .thermalTrip .. | .pmbusPoll .. | .pmbAlertN .. | .ageAlarm .. | .resetCmd .. | .boot .. | .yardGo .. | .tallyArm ..
  | .tallyWrite .. | .dbgAccess .. => true
  | _ => false

/-! ### Runs -/

/-- A state from which the next step answers a next state. -/
def Steps (s : Machine.State) : Prop := ∃ t, Machine.step s = .next t

/-- A run of `n` steps that never stops. -/
def SafeFor : Nat → Machine.State → Prop
  | 0, _ => True
  | n + 1, s => ∃ t, Machine.step s = .next t ∧ SafeFor n t

end Sys2Proof

namespace Sys2Proof.Machine

/-! ### Invariants -/

/-- A berth's event context is awake: while the berth has an event queued, the record of a living event context that holds no stall has BEVP
set, and it is not PARKED with its events unmasked (07 R156, 08 R183). -/
def State.eventAwake (s : State) (b : Nat) : Prop :=
  (s.berth b).events ≠ [] → isIntCid (s.ent (berthIdx b) 0x14) = false → s.living (s.ent (berthIdx b) 0x14) = true →
    s.stallOf (s.ent (berthIdx b) 0x14) = none →
      (s.record (cidRecord (s.ent (berthIdx b) 0x14))).bevp = true ∧
        ((s.record (cidRecord (s.ent (berthIdx b) 0x14))).rstate = .parked → stIE (s.record (cidRecord (s.ent (berthIdx b) 0x14))).status = false)

/-- Out of reset, every berth's event context is awake. -/
def State.eventsAwake (s : State) : Prop := s.inReset = false → ∀ b < nBerths, s.eventAwake b

/-! ### When a write of an entry takes effect -/

/-- A numeric write on a path that nothing stands against (17 R387, R389–R393, R410; 18 R422; 19 R444): the path and the entry serve, the path
has the right, the value is legal, and neither a lock, a running commit nor the moored state refuses it. Tallies have rules of their own. -/
def State.writeTakes (s : State) (p : Path) (idx sub v : Nat) : Bool :=
  idx != 0x9000 && s.pathWorks p && s.served idx && pathReaches p idx && pathWrites p idx sub &&
    (match entryInfo idx sub with
     | none => false
     | some (t, a) =>
       t != .dom && a != .ro && a != .tal && !(s.ent 0x6000 0x02 == 1 && !mooredWrites idx sub) && typeOk t v && entryRange idx sub v &&
         commandRange idx sub v && !s.lockedEntry idx sub v && !((a == .rws || (sub == 0xFF && a == .wo)) && s.committing idx) &&
         !(idx == 0xF000 && sub == 0x06 && s.committing v) && !(idx == 0x2000 && sub == 0x02 && decide (v < lowestDiv s.ceiling)))

/-- A request of a manager is performed (17 R400): the bus is on, the session is open with no transfer, and SEQ is the next. -/
def State.reqTakes (s : State) (node seqn : Nat) : Bool :=
  !s.busOff && (match s.session node with | none => false | some x => x.xfer.isNone && seqn != x.lastSeq && seqn == (x.lastSeq + 1) % 256)

/-- The state in which a request that is performed runs: its session has taken the SEQ. -/
def State.reqState (s : State) (node seqn : Nat) : State :=
  match s.session node with
  | none => s
  | some x => (s.setSession { x with seen := s.time }).setSession { x with lastSeq := seqn, seen := s.time }

/-! ### When a bundle or a byte code runs -/

/-- The stall may issue a bundle now (08 R171): its context runs, no exception, event, routine, park or other core's buffer comes first, it executes
bundles, it does not wait in EXIT, and S63 of its core is not ready (07 R157). -/
def State.mayIssue (s : State) (k : Nat) : Bool :=
  s.issuable k && !stCM (s.stall k).status && !s.s63First ctl k && !(s.stall k).exiting

/-- A bundle that completes: nothing it names is awaited or refused, and no syllable faults, waits, or needs a routine. -/
def State.bundleRuns (s : State) (k : Nat) (b : Bundle) (addr : Nat) (micro : Bool) : Bool :=
  !b.isRep && !(s.stall k).blocked b && ((s.stall k).refusedNamed b).isNone && !(s.evalBundle ctl k b addr micro).wait &&
    (s.evalBundle ctl k b addr micro).fails.isEmpty && !(s.evalBundle ctl k b addr micro).micro && !(s.evalBundle ctl k b addr micro).run.ends

/-- Stall `k` stands at the byte code `op` and may run it now (09 R217, R218), and `body`, what it does, succeeds with `r`. -/
def State.vzRuns (s : State) (k op : Nat) (v : Vz) (body : Vz → Run → Except VzStop Run) (r : Run) : Prop :=
  s.vzPrep ctl k (· == op) = .ok (op, v) ∧ body v { s := v.base, t := v.me.t0 } = .ok r

/-- The byte-code commands, with the byte code of each (09 Table 9.13); VZ3_UNDEFINED stands for the others. -/
def byteCodes : List ((Nat → Instr) × Nat) :=
  [(.vz3Nop, 0x00), (.vz3Pushb, 0x01), (.vz3Pushw, 0x02), (.vz3Pushnil, 0x03), (.vz3Pusht, 0x04), (.vz3Pushf, 0x05), (.vz3Pushk, 0x06),
   (.vz3Pushkw, 0x07), (.vz3Loadl, 0x08), (.vz3Storel, 0x09), (.vz3Loadlw, 0x0A), (.vz3Storelw, 0x0B), (.vz3Dup, 0x0C), (.vz3Drop, 0x0D),
   (.vz3Swap, 0x0E), (.vz3Over, 0x0F)] ++
  [(.vz3Add, 0x10), (.vz3Sub, 0x11), (.vz3Mul, 0x12), (.vz3Div, 0x13), (.vz3Rem, 0x14), (.vz3Neg, 0x15), (.vz3Ash, 0x16), (.vz3Eq, 0x17),
   (.vz3Ne, 0x18), (.vz3Lt, 0x19), (.vz3Ge, 0x1A), (.vz3Le, 0x1B), (.vz3Gt, 0x1C), (.vz3And, 0x1D), (.vz3Or, 0x1E), (.vz3Xor, 0x1F),
   (.vz3Jmp, 0x20), (.vz3Jf, 0x21), (.vz3Jt, 0x22), (.vz3Tag, 0x23), (.vz3Loadx, 0x24), (.vz3Storex, 0x25), (.vz3Callk, 0x26), (.vz3Retn, 0x27)] ++
  [(.vz3Exit, 0xFD), (.vz3Native, 0xFE), (.vz3Break, 0xFF)]

/-! ### When a home performs a request -/

/-- The next request at this home is of type `pt` and is performed (15 R354, steps 1 to 4): neither too old nor resent, its berth serves it and its
coded granules decode: the packet, the berth, the granules and the state without the packet. -/
def State.accepts (s : State) (pt : Nat) : Option (Pkt × Nat × List Gran × State) :=
  match s.nextRequest pt with
  | none => none
  | some t =>
    let p := t.pkt
    if decide (1023 ≤ t.age s.time) || p.resent || s.resent.any (fun e => e.1 == p.src && e.2.1 == p.tag && e.2.2.1 == p.tgen) || p.dev then none
    else
      match s.servingBerth t with
      | .error _ => none
      | .ok b =>
        match s.decodeCGs p.src p.cgs with
        | (_, .error _) => none
        | (s1, .ok gs) => some (p, b, gs, { s1 with inbox := s1.inbox.erase t })

end Sys2Proof.Machine
end

