-- ==== Sys2Proof/Certificates/Slice0/Obligations.lean ====
section
/-!
DEFINITION. The statements for the provers. In every statement of a command's effect the next state is `s.after x`: `x` is what the rules
make of `s`, and `State.after` adds the consequences that the spec ties to any change, which a statement of their own bounds.
-/

open Sys2Proof Sys2Proof.Machine Host

/-! ### The queue and what every command shares -/

/-- A step runs the command at the front of the queue, on the state with the queue's rest (the model's own; log entry 1). -/
def Obligations.StepRunsTheFrontCommand : Prop :=
  ∀ (s : State) (c : Instr) (rest : List Instr), s.pending = c :: rest → step s = exec c { s with pending := rest }

/-- On an empty queue the time base counts one tick; memory, the stalls' registers, the fabric, the dictionary, the berths and the pins keep
their values (15 R345; that this happens on an empty queue is the model's choice, log entry 2). -/
def Obligations.EmptyQueueCountsATick : Prop :=
  ∀ s : State, s.pending = [] → ∃ t, step s = .next t ∧ t.time = s.time + 1 ∧ t.mem = s.mem ∧ t.stalls = s.stalls ∧ t.dict = s.dict ∧
    t.applied = s.applied ∧ t.xl = s.xl ∧ t.links = s.links ∧ t.ports = s.ports ∧ t.berths = s.berths ∧ t.slots = s.slots ∧ t.pins = s.pins ∧
    t.tallies = s.tallies ∧ t.pending = []

/-- Every step takes exactly the front of the queue, whatever the command does (log entry 1). -/
def Obligations.EveryStepTakesTheFront : Prop :=
  ∀ s t : State, step s = .next t → t.pending = s.pending.tail

/-- A queue of commands whose units the part has runs to its end, in as many steps as it has commands, and no step of it stops. -/
def Obligations.QueueRunsToItsEnd : Prop :=
  ∀ s : State, (∀ c ∈ s.pending, c.absent = none) →
    SafeFor s.pending.length s ∧ ∃ t, Host.Core.run Sys2Proof.core s.pending.length s = .next t ∧ t.pending = []

/-- A command answers a next state exactly where the part has the units it names (00 R10); else the fault noSuchUnit. None is refused. -/
def Obligations.OnlyAbsentUnitsStop : Prop :=
  ∀ (c : Instr) (s : State), (c.absent = none → ∃ t, exec c s = .next t ∧ t.pending = s.pending) ∧
    (c.absent ≠ none → exec c s = .fault .noSuchUnit)

/-- In reset no command changes anything but those of the pins, the test access port and a tally's programming (19 R438, R439; log entry 4). -/
def Obligations.ResetHoldsTheDeviceStill : Prop :=
  ∀ (c : Instr) (s : State), s.inReset = true → c.absent = none → c.actsInReset = false → exec c s = .next s

/-- While the device is moored no command of the cores, the mesh, the compass, the links, the ports or the engines changes anything (18 R421). -/
def Obligations.MooredHoldsTheCoresStill : Prop :=
  ∀ (c : Instr) (s : State), s.ent 0x6000 0x02 = 1 → c.absent = none → c.ofHelm = false → c.actsInReset = false → exec c s = .next s

/-- Every step keeps every berth's event context awake: BEVP set in its record while its berth's queue holds an event, and not left PARKED with
its events unmasked (07 R156, 08 R183). -/
def Obligations.EventContextsStayAwake : Prop :=
  ∀ s t : State, s.eventsAwake → step s = .next t → t.eventsAwake

/-- At reset every event context is awake: no berth has an event. -/
def Obligations.EventContextsAwakeAtReset : Prop := State.reset.eventsAwake

/-- The consequences that follow a command, where no berth is draining, leave memory, every stall, the links, the ports, the remote slots, what
waits, the packets, the tallies and the pins as the command left them. -/
def Obligations.ConsequencesLeaveTheMachine : Prop :=
  ∀ s x : State, (∀ b < nBerths, x.berthState b ≠ bsRESETTING) →
    (s.after x).mem = x.mem ∧ (s.after x).stalls = x.stalls ∧ (s.after x).links = x.links ∧ (s.after x).ports = x.ports ∧
    (s.after x).slots = x.slots ∧ (s.after x).ops = x.ops ∧ (s.after x).waiters = x.waiters ∧ (s.after x).compass = x.compass ∧
    (s.after x).inbox = x.inbox ∧ (s.after x).applied = x.applied ∧ (s.after x).xl = x.xl ∧ (s.after x).tlbs = x.tlbs ∧
    (s.after x).tallies = x.tallies ∧ (s.after x).pins = x.pins ∧ (s.after x).tap = x.tap ∧ (s.after x).sessions = x.sessions ∧
    (s.after x).time = x.time ∧ (s.after x).pending = s.pending

/-- The values that the spec gives for reset, register by register (Tables 4.8 to 4.11, 10.5, 11.7, 17.12, 18.2, 19.2 to 19.4). -/
def Obligations.ResetValuesOfTheSpec : Prop :=
  let s := State.reset
  s.ent 0x2000 0x03 = 4 ∧ s.ent 0x2100 0x01 = 50 ∧ s.ent 0x2100 0x02 = 20 ∧ s.ent 0x2100 0x03 = 95 ∧ s.ent 0x2100 0x04 = 750 ∧
  s.ent 0x1000 0x10 = 2 ∧ s.ent 0x1000 0x11 = 30 ∧ s.ent 0x1000 0x12 = 100 ∧ s.ent 0xF000 0x05 = 10000 ∧ s.ent 0x6000 0x03 = 0xFF ∧
  s.ent 0x6000 0x06 = 0xFF ∧ s.ent 0x6000 0x0C = 0x00010100 ∧ s.ent 0x5000 0x01 = 0xFFFF ∧ s.tally 1 = 0xFFFF ∧ s.tally 0x11 = 8 ∧ s.tally 0x12 = 32 ∧
  s.tally 0x13 = 64 ∧ s.tally 0x14 = 8 ∧ s.tally 0x15 = 2 ∧ s.xreg 0 0x100 = 0x802E000000000000 ∧ (s.shed 15).pwrState = 0xFFFF ∧ (s.shed 0).pfDepth = 4 ∧
  (s.shed 0).pfEn = true ∧ (s.shed 0).immutTtl = 1000000 ∧ (s.stall 0).getP 0 = true ∧ (s.stall 16383).getP 7 = false ∧ (s.stall 5).getG 31 = Gran.zero ∧
  (s.stall 5).status = 0 ∧ (s.stall 5).iflags = 0 ∧ (s.stall 5).fstatus = 0 ∧ (s.record 262143).rstate = .free

/-! ### Registers, operations, flags -/

/-- G0 reads RAW zero in both halves and discards writes; any other slot reads what was written to it, with both tags; P0 reads 1 and discards
writes (04 R76, R78). -/
def Obligations.RegistersReadWhatWasWritten : Prop :=
  ∀ (t : Stall) (n m : Nat) (v : Gran) (b : Bool),
    (t.setG 0 v = t ∧ t.getG 0 = Gran.zero) ∧ (n ≠ 0 → (t.setG n v).getG n = v) ∧ (m ≠ n → (t.setG n v).getG m = t.getG m) ∧
    (t.getP 0 = true ∧ t.setP 0 b = t) ∧ (n ≠ 0 → n < 8 → (t.setP n b).getP n = b) ∧ (m ≠ n → (t.setP n b).getP m = t.getP m)

/-- The logic and shift operations return FIX where every value operand is tagged FIX and RAW else, shifts by RA alone; they set no flag and
raise nothing; ANDN computes RA and not RB (05 R98). -/
def Obligations.LogicOperationsKeepFix : Prop :=
  ∀ (op : LOp) (a b : TWord) (cid k : Nat) (t : Stall) (rd ra : Nat) (src : Src) (r : Run),
    (logicOp op a b).w.tag = (if a.tag = tagFIX ∧ (op.isShift = true ∨ b.tag = tagFIX) then tagFIX else tagRAW) ∧
    (∀ v, srcWord t (.imm v) = TWord.fix v) ∧
    (logicOp op a b).iflags = 0 ∧ (logicOp op a b).fflags = 0 ∧ (logicOp .andn a b).w.val = a.val &&& ~~~b.val ∧
    evalA k cid t (.logic op rd ra src) r = some (.ok { r with t := r.t.setW rd (logicOp op (t.getG ra).lo (srcWord t src)).w })

/-- The raw signed and unsigned additions: the low 64 bits, tagged RAW; V where the exact signed sum does not fit, C where the unsigned sum
carries; and an ADDI adds as ADD.S does (05 R97, Table 5.3; 04 R82). -/
def Obligations.RawAdditionsSetTheirFlags : Prop :=
  ∀ a b : Word64, (rawSigned .add a b).w = TWord.raw (a + b) ∧ (rawUnsigned .add a b).w = TWord.raw (a + b) ∧
    ((rawSigned .add a b).iflags = if -(2 ^ 63) ≤ a.toInt + b.toInt ∧ a.toInt + b.toInt < 2 ^ 63 then 0 else iV) ∧
    ((rawUnsigned .add a b).iflags = if a.toNat + b.toNat < 2 ^ 64 then 0 else iC) ∧
    (rawUnsigned .sub a b).w = TWord.raw (a - b) ∧ ((rawUnsigned .sub a b).iflags = if b.toNat ≤ a.toNat then 0 else iC) ∧
    (∀ (k cid : Nat) (t : Stall) (rd ra : Nat) (v : Word64) (r : Run),
      evalA k cid t (.addi rd ra v) r = some (putOut r rd (rawSigned .add (t.getG ra).lo.val v)))

/-- ASH.G x, n of two FIX operands: for n ≥ 0 the product with 2^n or Fixnum Overflow, for n < 0 the floor of x / 2^(−n); any other tags raise
the Generic Trap (05 R94). -/
def Obligations.AshGShiftsExactly : Prop :=
  ∀ (fs : Nat) (a b : TWord),
    ((a.tag ≠ tagFIX ∨ b.tag ≠ tagFIX) → gOp .ash fs a b = .error .generic) ∧
    (a.tag = tagFIX → b.tag = tagFIX →
      (0 ≤ b.val.toInt → -(2 ^ 63) ≤ a.val.toInt * 2 ^ b.val.toInt.toNat → a.val.toInt * 2 ^ b.val.toInt.toNat < 2 ^ 63 →
        gOp .ash fs a b = .ok { w := TWord.fix (w64i (a.val.toInt * 2 ^ b.val.toInt.toNat)) }) ∧
      (0 ≤ b.val.toInt → (a.val.toInt * 2 ^ b.val.toInt.toNat < -(2 ^ 63) ∨ 2 ^ 63 ≤ a.val.toInt * 2 ^ b.val.toInt.toNat) →
        gOp .ash fs a b = .error .overflow) ∧
      (b.val.toInt < 0 → gOp .ash fs a b = .ok { w := TWord.fix (w64i (a.val.toInt / 2 ^ (-b.val.toInt).toNat)) }) ∧
      (b.val.toInt ≤ -64 → gOp .ash fs a b = .ok { w := TWord.fix (if 0 ≤ a.val.toInt then 0 else BitVec.allOnes 64) }))

/-- A word written into a capability granule: both words become RAW, the written word takes the payload, the other keeps its own (02 R25). -/
def Obligations.WordStoreEndsACapability : Prop :=
  ∀ (g : Gran) (hi : Bool) (w : TWord), g.isCap = true →
    ((g.writeWord hi w).word hi = TWord.raw w.val ∧ (g.writeWord hi w).word (!hi) = TWord.raw (g.word (!hi)).val)

/-- An access of s bytes at x is within bounds exactly when 16 × base ≤ x and x + s ≤ 16 × top (03 R43). -/
def Obligations.BoundsAdmitExactlyTheRange : Prop :=
  ∀ (c : Cap) (x : Int) (n : Nat), c.inBounds x n = true ↔ (16 * (c.base : Int) ≤ x ∧ x + n ≤ 16 * (c.top : Int))

/-- A direct block translates va to (TARGET << 12) + (va − VBASE), TARGET being bits 51:12 of its register BLKn_TGT as applied (11 R253); the
translation fills the unit's cache (R263). -/
def Obligations.DirectBlocksTranslateByOffset : Prop :=
  ∀ (s : State) (u : TlbUnit) (b va n : Nat) (x : Blk), tlbHit (s.tlb u) b va = none → s.findBlk b va 16 0 = some (n, x) → x.walked = false →
    (s.translate u b va).2 = .ok (nbits (s.xreg b (0x108 + 16 * n)) 51 12 * 2 ^ 12 + (va - x.vbase)) ∧
      (s.translate u b va).1 = s.fillTlb u ⟨b, n, x.vbase, x.size, x.target⟩

/-- A store to a granule is what a later look finds at each port that takes it, both of a mirrored pair (13 R308); every other granule of every port
keeps its value, and memory keeps its canonical form. -/
def Obligations.GranuleStoresReachTheirPort : Prop :=
  ∀ (s : State) (pa p pda : Nat) (m : MGran), s.locate pa = some (p, pda) →
    (s.mirrored p = false → (s.writePA pa m).mget (mkey p pda) = m ∧ (∀ k, k ≠ mkey p pda → (s.writePA pa m).mget k = s.mget k)) ∧
    (∀ q ∈ s.writePorts p, (s.writePA pa m).mget (mkey q pda) = m) ∧
    (∀ k, (∀ q ∈ s.writePorts p, k ≠ mkey q pda) → (s.writePA pa m).mget k = s.mget k) ∧
    (Memory.wf s.mem = true → Memory.wf (s.writePA pa m).mem = true)

/-- A granule read with the check bytes its store wrote is clean; and one symbol of the 21 in error, whichever it is and whatever the error, is
corrected: the decoder gives back the granule and the check bytes as stored (02 R29 to R31). -/
def Obligations.OneSymbolErrorsAreCorrected : Prop :=
  (∀ g : Gran, (rsDecode g (rsEncode g)).1 = .clean ∧ (rsDecode g (rsEncode g)).2.1 = g) ∧
  ∀ (g : Gran) (p : Nat) (e : BitVec 8), p < 21 → e ≠ 0 →
    let cw := codeword g (rsEncode g)
    let r := ofCodeword (listSet cw p ((listAt cw p).getD 0 ^^^ e))
    rsDecode r.1 r.2 = (.corrected, g, rsEncode g)

/-! ### Issue -/

/-- BUNDLE_ISSUE of a stall that may issue (04 R72; 05 R112, R113; 07 R152; 08 R171): a bundle, alone or as an iteration of a repeat, that names nothing
awaited or refused and whose syllables neither fault nor wait executes as one step, every syllable's results from the registers as they stood before,
then PCC; one that needs a routine claims a sequencer; one that faults is squashed and raises the fault of lowest rank; EXIT ends its context; a REP
bundle latches its count; the end of a repeat of count 0 goes past its pair; a fetch fault is raised; a refused register's refusal is delivered; one
that waits leaves the state as fetch left it. For every operand, the command answers the state that its definition gives. -/
def Obligations.BundleIssueExecutesTheBundle : Prop :=
  (∀ s : State, s.coreRuns = true →
    (∀ (stall : Nat), (Instr.bundleIssue stall).absent = none → exec (.bundleIssue stall) s = .next (s.after (issueWith ctl stall s)))) ∧
  ∀ (s s1 : State) (k addr : Nat) (b : Bundle), k < nStalls → s.coreRuns = true → s.mayIssue k = true →
    (s.fetchNext k = (s1, .ok (.once b addr)) → (s1.entered k).bundleRuns k b addr false = true →
      exec (.bundleIssue k) s = .next (s.after ((State.complete k ((s1.entered k).evalBundle ctl k b addr false).run false addr (addr + 4 * b.len)
        ((s1.entered k).stall k)).dropRoutine k))) ∧
    (s.fetchNext k = (s1, .ok (.iter b addr)) → (s1.entered k).bundleRuns k b addr false = true →
      exec (.bundleIssue k) s = .next (s.after ((State.complete k ((s1.entered k).evalBundle ctl k b addr false).run true addr (addr + 4 * b.len)
        ((s1.entered k).stall k)).dropRoutine k))) ∧
    (s.fetchNext k = (s1, .ok (.once b addr)) → b.isRep = false → ((s1.entered k).stall k).blocked b = false →
      ((s1.entered k).stall k).refusedNamed b = none → ((s1.entered k).evalBundle ctl k b addr false).wait = false →
      (((s1.entered k).evalBundle ctl k b addr false).micro = true → exec (.bundleIssue k) s = .next (s.after ((s1.entered k).claimSeqr k))) ∧
      (∀ st f, ((s1.entered k).evalBundle ctl k b addr false).micro = false →
        lowestFail ((s1.entered k).evalBundle ctl k b addr false).fails = some (st, f) →
        exec (.bundleIssue k) s = .next (s.after (st.faultBundle k f))) ∧
      (∀ e, (s1.entered k).evalBundle ctl k b addr false = e → e.micro = false → e.fails = [] → e.run.ends = true →
        exec (.bundleIssue k) s = .next (s.after (((e.run.post e.run.s.leaveBoot).dropRoutine k).tryExit k)))) ∧
    (s.fetchNext k = (s1, .ok (.once b addr)) → b.isRep = true → ((s1.entered k).stall k).blocked b = false →
      exec (.bundleIssue k) s = .next (s.after ((s1.entered k).runRep k b addr))) ∧
    (s.fetchNext k = (s1, .ok (.done addr)) → exec (.bundleIssue k) s = .next (s.after ((s1.entered k).updStall k
      (fun t => { t with status := setBit t.status 8 false, repFirst := false, pcc := pccAt t.pcc addr, fetched := [] })))) ∧
    (∀ it, s.fetchNext k = (s1, .ok it) → (it = .once b addr ∨ it = .iter b addr) →
      (((s1.entered k).stall k).blocked b = true → exec (.bundleIssue k) s = .next (s.after (s1.entered k))) ∧
      (b.isRep = false → ((s1.entered k).stall k).blocked b = false →
        (∀ n, ((s1.entered k).stall k).refusedNamed b = some n → ((s1.entered k).evalBundle ctl k b addr false).fails = [] →
          exec (.bundleIssue k) s = .next (s.after ((s1.entered k).takeRefusal k n))) ∧
        (((s1.entered k).stall k).refusedNamed b = none → ((s1.entered k).evalBundle ctl k b addr false).wait = true →
          exec (.bundleIssue k) s = .next (s.after (s1.entered k))))) ∧
    (∀ f, s.fetchNext k = (s1, .error f) → f.rank ≠ 3 → exec (.bundleIssue k) s = .next (s.after ((s1.dropRoutine k).raiseFault k f.exc)))

/-- MICROWORD_WAIT (09 R204, R206, R209): while the ROM alone runs, the commit word of the routine that a sequencer runs for a stall acts where it
neither faults nor waits, for a bundle and for a byte code; an event that is open abandons the routine; under a patch its next word acts. For every
operand, the command answers the state that its definition gives. -/
def Obligations.MicrowordCommitsItsRoutine : Prop :=
  (∀ s : State, s.coreRuns = true →
    (∀ (core seqr : Nat), (Instr.microwordWait core seqr).absent = none →
      exec (.microwordWait core seqr) s = .next (s.after (microWith ctl core seqr s)))) ∧
  ∀ (s s1 : State) (c i addr : Nat) (q : Routine) (b : Bundle), c < nCores → i < 2 → s.coreRuns = true → (s.core c).seqr i = some q →
    s.mayGoOn q.stall = true →
    (s.patched = false → q.after = none → s.eventFirst q.stall = false → stCM (s.stall q.stall).status = false →
      s.fetchNext q.stall = (s1, .ok (.once b addr)) → (s1.entered q.stall).bundleRuns q.stall b addr true = true →
      exec (.microwordWait c i) s = .next (s.after ((State.complete q.stall ((s1.entered q.stall).evalBundle ctl q.stall b addr true).run false addr
        (addr + 4 * b.len) ((s1.entered q.stall).stall q.stall)).dropRoutine q.stall))) ∧
    (∀ op v r, s.patched = false → q.after = none → s.eventFirst q.stall = false → stCM (s.stall q.stall).status = true →
      s.vzPrep ctl q.stall (fun _ => true) = .ok (op, v) → vzRun op v = .ok r →
      exec (.microwordWait c i) s = .next (s.after (vzDone op v r))) ∧
    (q.after = none → s.eventFirst q.stall = true → exec (.microwordWait c i) s = .next (s.after (s.abandonFor q.stall))) ∧
    (s.patched = true → (s.eventFirst q.stall = false ∨ q.after.isSome = true) →
      exec (.microwordWait c i) s = .next (s.after (s.microStep ctl c i q)))

/-- The byte codes that push: a constant, the word of the constant pool, a local (09 Table 9.13). -/
def Obligations.ByteCodesPush : Prop :=
  ∀ (s : State) (k : Nat) (v : Vz) (r : Run), k < nStalls → s.coreRuns = true →
    (s.vzRuns k 0x01 v (fun v x => vzPush v x (TWord.fix (w64i (v.simm 8)))) r → exec (.vz3Pushb k) s = .next (s.after (vzDone 0x01 v r))) ∧
    (s.vzRuns k 0x02 v (fun v x => vzPush v x (TWord.fix (w64i (v.simm 32)))) r → exec (.vz3Pushw k) s = .next (s.after (vzDone 0x02 v r))) ∧
    (s.vzRuns k 0x03 v (fun v x => vzPush v x ⟨tagNIL, 0⟩) r → exec (.vz3Pushnil k) s = .next (s.after (vzDone 0x03 v r))) ∧
    (s.vzRuns k 0x04 v (fun v x => vzPush v x ⟨tagBOOL, 1⟩) r → exec (.vz3Pusht k) s = .next (s.after (vzDone 0x04 v r))) ∧
    (s.vzRuns k 0x05 v (fun v x => vzPush v x ⟨tagBOOL, 0⟩) r → exec (.vz3Pushf k) s = .next (s.after (vzDone 0x05 v r))) ∧
    (s.vzRuns k 0x06 v (vzLoadAt 28) r → exec (.vz3Pushk k) s = .next (s.after (vzDone 0x06 v r))) ∧
    (s.vzRuns k 0x07 v (vzLoadAt 28) r → exec (.vz3Pushkw k) s = .next (s.after (vzDone 0x07 v r))) ∧
    (s.vzRuns k 0x08 v (vzLoadAt 29) r → exec (.vz3Loadl k) s = .next (s.after (vzDone 0x08 v r))) ∧
    (s.vzRuns k 0x0A v (vzLoadAt 29) r → exec (.vz3Loadlw k) s = .next (s.after (vzDone 0x0A v r)))

/-- The byte codes that store and move words of the stack (09 Table 9.13): each pops what it takes before it pushes what it leaves. -/
def Obligations.ByteCodesMoveWords : Prop :=
  ∀ (s : State) (k : Nat) (v : Vz) (r : Run), k < nStalls → s.coreRuns = true →
    (s.vzRuns k 0x09 v (vzStoreAt 29) r → exec (.vz3Storel k) s = .next (s.after (vzDone 0x09 v r))) ∧
    (s.vzRuns k 0x0B v (vzStoreAt 29) r → exec (.vz3Storelw k) s = .next (s.after (vzDone 0x0B v r))) ∧
    (s.vzRuns k 0x0C v vzDup r → exec (.vz3Dup k) s = .next (s.after (vzDone 0x0C v r))) ∧
    (s.vzRuns k 0x0D v vzDrop r → exec (.vz3Drop k) s = .next (s.after (vzDone 0x0D v r))) ∧
    (s.vzRuns k 0x0E v vzSwap r → exec (.vz3Swap k) s = .next (s.after (vzDone 0x0E v r))) ∧
    (s.vzRuns k 0x0F v vzOver r → exec (.vz3Over k) s = .next (s.after (vzDone 0x0F v r)))

/-- The byte codes that compute: b popped, then a, the generic operation, logic operation or compare of a and b pushed (09 Table 9.13). -/
def Obligations.ByteCodesCompute : Prop :=
  ∀ (s : State) (k : Nat) (v : Vz) (r : Run), k < nStalls → s.coreRuns = true →
    (s.vzRuns k 0x10 v (vzBin .add) r → exec (.vz3Add k) s = .next (s.after (vzDone 0x10 v r))) ∧
    (s.vzRuns k 0x11 v (vzBin .sub) r → exec (.vz3Sub k) s = .next (s.after (vzDone 0x11 v r))) ∧
    (s.vzRuns k 0x12 v (vzBin .mul) r → exec (.vz3Mul k) s = .next (s.after (vzDone 0x12 v r))) ∧
    (s.vzRuns k 0x13 v (vzBin .div) r → exec (.vz3Div k) s = .next (s.after (vzDone 0x13 v r))) ∧
    (s.vzRuns k 0x14 v (vzBin .rem) r → exec (.vz3Rem k) s = .next (s.after (vzDone 0x14 v r))) ∧
    (s.vzRuns k 0x15 v vzNeg r → exec (.vz3Neg k) s = .next (s.after (vzDone 0x15 v r))) ∧
    (s.vzRuns k 0x16 v (vzBin .ash) r → exec (.vz3Ash k) s = .next (s.after (vzDone 0x16 v r))) ∧
    (s.vzRuns k 0x17 v (vzCmp 0) r → exec (.vz3Eq k) s = .next (s.after (vzDone 0x17 v r))) ∧
    (s.vzRuns k 0x18 v (vzCmp 1) r → exec (.vz3Ne k) s = .next (s.after (vzDone 0x18 v r))) ∧
    (s.vzRuns k 0x19 v (vzCmp 2) r → exec (.vz3Lt k) s = .next (s.after (vzDone 0x19 v r))) ∧
    (s.vzRuns k 0x1A v (vzCmp 3) r → exec (.vz3Ge k) s = .next (s.after (vzDone 0x1A v r))) ∧
    (s.vzRuns k 0x1B v (vzCmp 4) r → exec (.vz3Le k) s = .next (s.after (vzDone 0x1B v r))) ∧
    (s.vzRuns k 0x1C v (vzCmp 5) r → exec (.vz3Gt k) s = .next (s.after (vzDone 0x1C v r))) ∧
    (s.vzRuns k 0x1D v (vzLogic .and) r → exec (.vz3And k) s = .next (s.after (vzDone 0x1D v r))) ∧
    (s.vzRuns k 0x1E v (vzLogic .or) r → exec (.vz3Or k) s = .next (s.after (vzDone 0x1E v r))) ∧
    (s.vzRuns k 0x1F v (vzLogic .xor) r → exec (.vz3Xor k) s = .next (s.after (vzDone 0x1F v r))) ∧
    (s.vzRuns k 0x23 v vzTag r → exec (.vz3Tag k) s = .next (s.after (vzDone 0x23 v r)))

/-- The byte codes that move the position or leave the mode (09 R218, Table 9.13): a jump by its displacement, a call and its return, NATIVE to
the next bundle boundary with CM 0, EXIT, BREAK with its trap, and any byte from 0x28 to 0xFC an illegal operation. Any byte code that faults has no
effect but its fault, which names it in slot 7; one that waits leaves what its fetch left, one that awaits a read stays in a sequencer (09 R219, R220). -/
def Obligations.ByteCodesTransfer : Prop :=
  ∀ (s : State) (k op : Nat) (v : Vz) (r : Run), k < nStalls → s.coreRuns = true →
    (s.vzRuns k 0x00 v (fun _ x => .ok x) r → exec (.vz3Nop k) s = .next (s.after (vzDone 0x00 v r))) ∧
    (s.vzRuns k 0x20 v (fun _ x => .ok x) r →
      exec (.vz3Jmp k) s = .next (s.after (vzDone 0x20 v { r with pcc := some (pccAt v.me.t0.pcc ((v.pos : Int) + v.simm 16)) }))) ∧
    (s.vzRuns k 0x21 v (vzJif false) r → exec (.vz3Jf k) s = .next (s.after (vzDone 0x21 v r))) ∧
    (s.vzRuns k 0x22 v (vzJif true) r → exec (.vz3Jt k) s = .next (s.after (vzDone 0x22 v r))) ∧
    (s.vzRuns k 0x24 v vzLoadx r → exec (.vz3Loadx k) s = .next (s.after (vzDone 0x24 v r))) ∧
    (s.vzRuns k 0x25 v vzStorex r → exec (.vz3Storex k) s = .next (s.after (vzDone 0x25 v r))) ∧
    (s.vzRuns k 0x26 v vzCallk r → exec (.vz3Callk k) s = .next (s.after (vzDone 0x26 v r))) ∧
    (s.vzRuns k 0x27 v vzRetn r → exec (.vz3Retn k) s = .next (s.after (vzDone 0x27 v r))) ∧
    (∀ x, s.vzRuns k 0xFD v (fun _ x => .ok x) r → isS63 k = false → (v.base.leaveBoot.dropRoutine k) = x →
      (x.storesOpen (x.cidOf k) = false → exec (.vz3Exit k) s = .next (s.after (x.exitContext k))) ∧
      (x.storesOpen (x.cidOf k) = true → exec (.vz3Exit k) s = .next (s.after (x.updStall k (fun t => { t with exiting := true }))))) ∧
    (s.vzRuns k 0xFE v (fun _ x => .ok x) r →
      exec (.vz3Native k) s = .next (s.after (vzDone 0xFE v { r with
        t := { r.t with status := setBit r.t.status 11 false }, pcc := some (pccAt v.me.t0.pcc (((v.pos + 4) / 4 * 4 : Nat) : Int)) }))) ∧
    (s.vzRuns k 0xFF v (fun _ x => .ok x) r →
      exec (.vz3Break k) s = .next (s.after (vzDone 0xFF v { r with trap := some { cause := cBREAK, syl := 0xFF } }))) ∧
    (s.vzPrep ctl k (fun y => decide (0x28 ≤ y) && decide (y ≤ 0xFC)) = .ok (op, v) → 0x28 ≤ op → op ≤ 0xFC →
      exec (.vz3Undefined k) s = .next (s.after (v.base.vzFault k (vzSyl op v.arg) illegal.exc))) ∧
    (∀ e ∈ byteCodes, exec (e.1 k) s = .next (s.after (vzIssue ctl k (· == e.2) s))) ∧
    (∀ e ∈ byteCodes, s.vzPrep ctl k (· == e.2) = .ok (e.2, v) →
      (∀ st f, vzRun e.2 v = .error (.fail st f) → exec (e.1 k) s = .next (s.after (st.vzFault k (vzSyl e.2 v.arg) f.exc))) ∧
      (vzRun e.2 v = .error .wait → exec (e.1 k) s = .next (s.after v.base)) ∧
      (∀ f, vzRun e.2 v = .error (.send f) → exec (e.1 k) s = .next (s.after (f ((v.base.claimSeqr k).updStall k
        (fun t => { t with fetched := [(v.pos, [e.2, v.arg])] }))))))

/-! ### Exceptions and events -/

/-- EXC_ENTRY where the ROM alone runs. A pending exception whose frame stores do not fault: the 128-byte frame is pushed on G31; STATUS takes the
target level, with IE, RPA, LPA and CM 0; PCC is the level's vector base with ADDR increased by 64 × cause; every other register keeps its value. A
context event that is open is entered in the same way, once any routine is abandoned. A frame store that faults starts the double-fault entry, or
resets the stall while DF is 1 (07 R146, R147, R154, R160, R162, Tables 7.3, 7.4). For every operand, the command answers the state that its
definition gives. -/
def Obligations.ExceptionEntryPushesItsFrame : Prop :=
  (∀ s : State, s.coreRuns = true →
    (∀ (stall : Nat), (Instr.excEntry stall).absent = none → exec (.excEntry stall) s = .next (s.after (excEntryMicro stall s)))) ∧
  ∀ (s s1 : State) (k : Nat) (e : Exc), k < nStalls → s.coreRuns = true → s.mayRun k = true → (s.stall k).entryReady = true →
    (s.stall k).yielding = none → s.patched = false →
    (∀ g31, (s.stall k).exc = some e → (s.stall k).entering = none →
      s.push (s.who k) ((s.stall k).getG 31) (frameOf (s.stall k).pcc (s.stall k).status e (s.stall k).lc (s.stall k).rep (s.stall k).predsNat
        ((s.stall k).getG 31) s.time) = (s1, .ok g31) →
      ∃ t : Stall, exec (.excEntry k) s = .next (s.after (s1.setStall k t)) ∧ t.getG 31 = g31 ∧
        (∀ n, n ≠ 31 → t.getG n = (s1.stall k).getG n) ∧
        t.status = entryStatus (s.stall k).status (targetLevel (stPL (s.stall k).status) e.cause) false ∧
        stPL t.status = targetLevel (stPL (s.stall k).status) e.cause ∧ stIE t.status = false ∧ stRPA t.status = false ∧ stLPA t.status = false ∧
        stCM t.status = false ∧ stDF t.status = stDF (s.stall k).status ∧
        t.pcc = vectorOf (if targetLevel (stPL (s.stall k).status) e.cause = 2 then (s1.stall k).vbaseY else (s1.stall k).vbaseS) e.cause ∧
        t.exc = none ∧ t.rep = 0 ∧ t.lc = (s1.stall k).lc ∧ t.lstart = (s1.stall k).lstart ∧ t.lend = (s1.stall k).lend ∧ t.preds = (s1.stall k).preds ∧
        t.f = (s1.stall k).f ∧ t.spcc = (s1.stall k).spcc ∧ t.alloc = (s1.stall k).alloc) ∧
    (∀ f, (s.stall k).exc = some e → (s.stall k).entering = none →
      s.push (s.who k) ((s.stall k).getG 31) (frameOf (s.stall k).pcc (s.stall k).status e (s.stall k).lc (s.stall k).rep (s.stall k).predsNat
        ((s.stall k).getG 31) s.time) = (s1, .error f) →
      (stDF (s.stall k).status = true → exec (.excEntry k) s = .next (s.after (s1.thirdFault k e))) ∧
      (stDF (s.stall k).status = false → exec (.excEntry k) s = .next (s.after (s1.dfEntry k
        { exc := e, oldStatus := (s.stall k).status, oldG31 := (s.stall k).getG 31, oldPcc := (s.stall k).pcc, oldRep := (s.stall k).rep } f.exc)))) ∧
    ((s.stall k).exc = none → s.eventsOpen k = true → s.nextEvent k = some (e, s1) →
      exec (.excEntry k) s = .next (s.after (((s1.abandonFor k).updStall k (fun t => { t with exiting := false })).enter k e)))

/-- A fault met while an exception is being entered starts the double-fault entry on DFSTACK, at level Y with DF 1 and the original position in
its frame; a frame store of it that faults, and any fault raised while DF is 1, resets the stall (07 R160 to R162); here the ROM alone runs. -/
def Obligations.DoubleFaultUsesDfstack : Prop :=
  ∀ (s s1 : State) (k : Nat) (e : Exc) (en : Entering), k < nStalls → s.coreRuns = true → s.mayRun k = true → (s.stall k).entryReady = true →
    (s.stall k).yielding = none → s.patched = false → (s.stall k).exc = some e → (s.stall k).entering = some en →
    let d : Exc :=
      { cause := cDOUBLE, subcode := e.subcode, slot := en.exc.slot, taga := en.exc.cause, tagb := e.cause, faddr := e.faddr, fcap := e.fcap,
        syl := en.exc.syl }
    let fr := frameOf en.oldPcc en.oldStatus d (s.stall k).lc en.oldRep (s.stall k).predsNat en.oldG31 s.time
    (∀ g31, s.push (s.who k) (s.stall k).dfstack fr = (s1, .ok g31) →
      ∃ t : Stall, exec (.excEntry k) s = .next (s.after (s1.setStall k t)) ∧ t.getG 31 = g31 ∧ stPL t.status = 2 ∧ stDF t.status = true ∧
        t.pcc = vectorOf (s1.stall k).vbaseY cDOUBLE ∧ t.dfstack = (s1.stall k).dfstack ∧ t.exc = none ∧ t.entering = none) ∧
    (∀ f, s.push (s.who k) (s.stall k).dfstack fr = (s1, .error f) →
      exec (.excEntry k) s = .next (s.after (s1.stallReset k en.exc.info64))) ∧
    (∀ f : Exc, stDF (s.stall k).status = true → s.raiseFault k f = s.stallReset k (((s.stall k).dfOrig.getD f).info64))

/-- DEVICE_EVENT: the interrupt context of a core takes its lowest pending device event, whose pending bit is cleared unless its source's cause entry
keeps the event pending (log entry 105); TIMER sets the event pending where a non-zero TIMER is reached, and changes nothing else (07 R156, R158).
For every operand, each command answers the state that its definition gives. -/
def Obligations.DeviceEventsAndTimersArePending : Prop :=
  (∀ s : State, s.coreRuns = true →
    (∀ (core : Nat), (Instr.deviceEvent core).absent = none → exec (.deviceEvent core) s = .next (s.after (doDeviceEvent core s))) ∧
    (∀ (stall : Nat), (Instr.timer stall).absent = none → exec (.timer stall) s = .next (s.after (doTimer stall s)))) ∧
  ∀ (s : State), s.coreRuns = true →
    (∀ c cause slot, c < nCores → s.mayRun (64 * c + 63) = true → (s.stall (64 * c + 63)).entryReady = true → (s.stall (64 * c + 63)).yielding = none →
      s.eventsOpen (64 * c + 63) = true → (s.nextEvent (64 * c + 63)).isNone = true → lowestDev (s.core c).devPend = some (cause, slot) →
      exec (.deviceEvent c) s = .next (s.after (((s.abandonFor (64 * c + 63)).updCore c
        (fun x => { x with devPend := x.devPend.filter (fun e => e != (cause, slot) || s.devCause cause != 0) })).enter (64 * c + 63)
        { cause := cause, subcode := slot, async := true, faddr := w64 (s.devCause cause) }))) ∧
    (∀ k, k < nStalls → (s.stall k).cid.isSome = true → (s.stall k).timer ≠ 0 → (s.stall k).timer.toNat ≤ s.time →
      maskBit (s.stall k).inframe (32 + srTIMER) = false → exec (.timer k) s = .next (s.after (s.updStall k (fun t => { t with timp := true })))) ∧
    (∀ k, k < nStalls → (s.stall k).timer = 0 ∨ s.time < (s.stall k).timer.toNat →
      exec (.timer k) s = .next (s.after (s.updStall k (fun t => t))))

/-! ### Results, waits, parking -/

/-- The oldest fixed result of a register leaves the table and is delivered: in the stall that runs its context the slot takes the value and its
pending bit clears; a refusal marks the register refused; the hot slot of a parked context's record takes it; a stale one is discarded (08 R169, R177,
R178, R180). For every operand, the command answers the state that its definition gives. -/
def Obligations.ResultsReachTheirRegister : Prop :=
  (∀ s : State, s.coreRuns = true →
    (∀ (cid reg : Nat), (Instr.resultDelivery cid reg).absent = none →
      exec (.resultDelivery cid reg) s = .next (s.after (doResultDelivery cid reg s)))) ∧
  ∀ (s : State) (cid reg i k : Nat) (o : LocalOp) (v : Gran), reg < 56 → s.coreRuns = true →
    listFind (fun o : LocalOp => o.cid == cid && o.reg == reg && o.poll.isNone) s.ops = some i → listAt s.ops i = some o → o.value = some v →
    (o.refusal = none → s.living cid = true → s.liveStall cid = some k → maskBit (s.stall k).pend reg = true →
      exec (.resultDelivery cid reg) s = .next (s.after (({ s with ops := listDel s.ops i }).updStall k
        (fun t => { (t.setG reg v) with pend := maskClr t.pend reg })))) ∧
    (∀ e, o.refusal = some e → e.cause ≠ cFPTRAP → s.living cid = true → s.liveStall cid = some k → maskBit (s.stall k).pend reg = true →
      exec (.resultDelivery cid reg) s = .next (s.after (({ s with ops := listDel s.ops i }).updStall k
        (fun t => { (t.setG reg ({ e with info := reg } : Exc).refusal) with pend := maskClr t.pend reg, refused := maskSet t.refused reg })))) ∧
    (o.refusal = none → s.living cid = true → s.liveStall cid = none → maskBit (s.record (cidRecord cid)).pend reg = true →
      (s.record (cidRecord cid)).hots.any (fun h => h.1 == reg) = true →
      exec (.resultDelivery cid reg) s = .next (s.after ((({ s with ops := listDel s.ops i }).updRecord (cidRecord cid)
        (fun r => { r with pend := maskClr r.pend reg, block := maskClr r.block reg, gpois := maskClr r.gpois reg,
                           hots := r.hots.map (fun (h : Nat × Gran) => if h.1 = reg then (reg, v) else h) })).wakeRecord (cidRecord cid)))) ∧
    (∀ key, o.refusal = none → s.living cid = true → s.liveStall cid = some k → (s.stall k).vzWait = some key → o.reg = vzReg →
      exec (.resultDelivery cid vzReg) s = .next (s.after (({ s with ops := listDel s.ops i }).updStall k
        (fun t => { t with vzWait := none, vzGot := t.vzGot ++ [(key, v)] })))) ∧
    (s.living cid = false → exec (.resultDelivery cid reg) s = .next (s.after { s with ops := listDel s.ops i }))

/-- A waiter whose word was filled is woken with the value the word was filled with; a read answered retry is sent again, and completes, waits or is
refused, a remote one from its slot's start; an entry of a merging buffer drains, its stores to a granule as one, in issue order, what a release store
holds up staying (05 R107; 08 R181; 10 R224, R225, R245). For every operand, each command answers the state that its definition gives. -/
def Obligations.WaitsEnd : Prop :=
  (∀ s : State, s.coreRuns = true →
    (∀ (agent index : Nat), (Instr.waiterWake agent index).absent = none →
      exec (.waiterWake agent index) s = .next (s.after (doWaiterWake agent index s))) ∧
    (∀ (cid reg : Nat), (Instr.pollRetry cid reg).absent = none → exec (.pollRetry cid reg) s = .next (s.after (doPollRetry cid reg s))) ∧
    (∀ (core line : Nat), (Instr.bufferDrain core line).absent = none → exec (.bufferDrain core line) s = .next (s.after (doBufferDrain core line s)))) ∧
  ∀ s : State, s.coreRuns = true →
    (∀ agent i w g, agent < nPorts → listAt (s.waiters.filter (fun w => w.agent == agent && w.got.isSome)) i = some w → w.got = some g →
      exec (.waiterWake agent i) s = .next (s.after (match w.kind with | .remote n => s.wakeRemote w n g | _ => s.wakeLocal w g))) ∧
    (∀ cid reg i o pa kind again s1, reg < 56 → listFind (fun o : LocalOp => o.cid == cid && o.reg == reg && o.poll.isSome) s.ops = some i →
      listAt s.ops i = some o → o.poll = some (pa, kind) →
      ({ s with ops := listDel s.ops i } : State).readAgain (s.coreFor cid) cid (s.berthOf cid) pa kind kind.fstatus = (s1, again) →
      exec (.pollRetry cid reg) s = .next (s.after (match again with
        | .gave v fl => (s1.result o.core cid reg v).orFstatus cid fl
        | .waits => s1.register { core := o.core, faddr := o.faddr, fcap := o.fcap } cid reg pa kind ((s1.rawAt pa).g.word (decide (pa % 16 ≥ 8)))
        | .refused e => s1.refuseReg { core := o.core, faddr := o.faddr, fcap := o.fcap } cid reg { e with faddr := o.faddr, fcap := o.fcap }))) ∧
    (∀ cid reg, reg < 56 → listFind (fun o : LocalOp => o.cid == cid && o.reg == reg && o.poll.isSome) s.ops = none →
      exec (.pollRetry cid reg) s = .next (s.after { s with slots := SMap.mapv (fun _ => none) (fun _ x => x.map (fun (y : Slot) =>
        if y.cid = cid ∧ y.reg = some reg ∧ y.st = .poll then { y with st := .unsent, tick := s.time } else y)) s.slots })) ∧
    (∀ core line e, core < nCores → (s.core core).buffer.find? (fun e => e.line == line) = some e → (s.shed (shedOfCore core)).victims.contains line = false →
      (e.stores.all s.mayDrain = true → exec (.bufferDrain core line) s = .next (s.after ((s.updCore core (fun c =>
        { c with buffer := ((c.buffer.map (fun x => if x.line = line then { x with stores := [] } else x)).filter
          (fun x => !x.stores.isEmpty)) })).drainStores core line e.stores))) ∧
      (exec (.bufferDrain core line) s = .next (s.after ((s.updCore core (fun c =>
        { c with buffer := ((c.buffer.map (fun x => if x.line = line then
            { x with stores := e.stores.filter (fun b => !(s.drainable [] e.stores).contains b) } else x)).filter
          (fun x => !x.stores.isEmpty)) })).drainStores core line (s.drainable [] e.stores)))))

/-- A context that yields, whose next bundle waits only for a pending register, or whose slice has ended is cut from its stall, and the cut writes its
record; a park that is complete makes its record PARKED, or READY where it may run already, and frees the stall (08 R173 to R176, R191). For every
operand, each command answers the state that its definition gives. -/
def Obligations.ParksFreeTheirStall : Prop :=
  (∀ s : State, s.coreRuns = true →
    (∀ (stall : Nat), (Instr.parkCut stall).absent = none → exec (.parkCut stall) s = .next (s.after (doParkCut stall s))) ∧
    (∀ (stall : Nat), (Instr.parkComplete stall).absent = none → exec (.parkComplete stall) s = .next (s.after (doParkComplete stall s))) ∧
    (∀ (stall : Nat), (Instr.preemption stall).absent = none → exec (.preemption stall) s = .next (s.after (doPreemption stall s)))) ∧
  ∀ (s : State) (k : Nat), k < nStalls → s.coreRuns = true →
    (∀ w, s.mayPark k = true → (s.stall k).yielding = some w → exec (.parkCut k) s = .next (s.after (s.park k w))) ∧
    (s.mayPark k = true → (s.stall k).yielding = none → ((s.nextRegs k).2.filter (maskBit (s.stall k).pend)).isEmpty = false →
      s.nextInframe k = false → s.eventFirst k = false →
      exec (.parkCut k) s = .next (s.after (s.park k (s.blockKind (s.cidOf k) ((s.nextRegs k).2.filter (maskBit (s.stall k).pend)))))) ∧
    (s.mayPark k = true → (s.stall k).yielding = none → (s.stall k).repFirst = false → s.ent (berthIdx (stBerth (s.stall k).status)) 0x09 ≠ 0 →
      (s.nextBerth (shedOf k) (some k)).isSome = true →
      exec (.preemption k) s = .next (s.after (s.park k (s.blockKind (s.cidOf k) ((s.nextRegs k).2.filter (maskBit (s.stall k).pend)))))) ∧
    (∀ w, s.patched = false → s.stableFree (shedOf k) = true → (∀ n ∈ takeDistinct 4 (s.nextRegs k).1, maskBit (s.stall k).inframe n = false) →
      (s.stall k).dirty = 0 → stRPA (s.stall k).status = false → (s.stall k).late = none → (s.stall k).cid.isSome = true →
      ((s.park k w).stall k).phase = .parking ∧ ((s.park k w).record (cidRecord (s.cidOf k))).pcc = (s.stall k).pcc ∧
        ((s.park k w).record (cidRecord (s.cidOf k))).status = (s.stall k).status ∧ ((s.park k w).record (cidRecord (s.cidOf k))).wcond = w ∧
        ((s.park k w).record (cidRecord (s.cidOf k))).pend = (s.stall k).pend ∧
        ((s.park k w).record (cidRecord (s.cidOf k))).refused = (s.stall k).refused ∧ (s.park k w).mem = s.mem) ∧
    ((s.stall k).phase = .parking → ∃ x, exec (.parkComplete k) s = .next (s.after x) ∧ (x.stall k).cid = none ∧ (x.stall k).phase = .empty ∧
      ((x.record (cidRecord (s.cidOf k))).rstate = .parked ∨ (x.record (cidRecord (s.cidOf k))).rstate = .ready) ∧
      ((x.record (cidRecord (s.cidOf k))).rstate = .ready ↔ ({ s.record (cidRecord (s.cidOf k)) with rstate := .parked } : Record).isReady s.time = true) ∧
      (∀ j, j ≠ k → x.stall j = s.stall j) ∧ x.mem = s.mem)

/-- The lowest free stall of a shed takes the head READY record of the next berth in turn; an in-frame register, general or special, is reloaded from
its context's frame, or refused or the stall reset where its slot cannot be used; and the float state of a stall is switched for the context that needs
it (08 R184, R185, R187, R188). For every operand, each command answers the state that its definition gives. -/
def Obligations.StallsTakeContexts : Prop :=
  (∀ s : State, s.coreRuns = true →
    (∀ (stall : Nat), (Instr.stallAssign stall).absent = none → exec (.stallAssign stall) s = .next (s.after (doStallAssign stall s))) ∧
    (∀ (stall reg : Nat), (Instr.frameReload stall reg).absent = none → exec (.frameReload stall reg) s = .next (s.after (doFrameReload stall reg s))) ∧
    (∀ (stall : Nat), (Instr.floatStateSwitch stall).absent = none → exec (.floatStateSwitch stall) s = .next (s.after (floatSwitchWith ctl stall s)))) ∧
  ∀ (s : State) (k : Nat), k < nStalls → s.coreRuns = true →
    (∀ b rn, s.freeStallFrom 1024 (shedOf k * 1024) = some k → s.stableFree (shedOf k) = true → s.patched = false →
      s.nextBerth (shedOf k) none = some b → (s.shed (shedOf k)).ready.find? (fun e => e.1 == b) = some (b, rn) →
      exec (.stallAssign k) s = .next (s.after ((s.updShed (shedOf k) (fun h =>
        { h with rrBerth := b, ready := h.ready.filter (fun e => e.2 != rn) })).unpark k rn))) ∧
    (∀ reg o hi s1 pa m x, reg < 56 → (s.stall k).runs = true → maskBit (s.stall k).inframe reg = true →
      (if reg < 32 then some (16 * reg, false) else srSlot (reg - 32)) = some (o, hi) →
      s.frameAt (shedOf k) (s.cidOf k) o = (s1, .ok (pa, m)) → tagDefined m.g.lo.tag = true → tagDefined m.g.hi.tag = true →
      (reg < 32 → maskBit (s.stall k).gpois reg = false) → s1.rebased (s.berthOf (s.cidOf k)) (pairSlot m.g) = x →
      exec (.frameReload k reg) s = .next (s.after (x.1.updStall k (fun t =>
        { (if reg < 32 then { t with g := SMap.set (fun _ => Gran.zero) t.g reg x.2 } else t.loadSR (reg - 32) x.2 hi) with
          inframe := maskClr t.inframe reg })))) ∧
    (∀ reg s1 e, 32 ≤ reg → reg < 56 → (s.stall k).runs = true → maskBit (s.stall k).inframe reg = true →
      (∃ o hi, srSlot (reg - 32) = some (o, hi) ∧ s.frameAt (shedOf k) (s.cidOf k) o = (s1, .error e)) →
      exec (.frameReload k reg) s = .next (s.after (s1.stallReset k e.info64))) ∧
    ((s.stall k).runs = true → s.needsFloat ctl k = true → exec (.floatStateSwitch k) s = .next (s.after (s.floatSwitch k)))

/-- The stall window: HALT stops a stall and abandons its routine, START gives S63 its interrupt context, KILL resets the stall and destroys its
context, and any other access reads or writes the slot it names: a load changes nothing but for a reload, a store to a general register is what the
register then reads, its pending result discarded; all wait while the stall parks (08 R169, R195 to R197). For every operand, each command answers
the state that its definition gives. -/
def Obligations.StallWindowReachesTheStall : Prop :=
  (∀ s : State, s.coreRuns = true →
    (∀ (stall offset : Nat) (op : WinOp), (Instr.stallWindowAccess stall offset op).absent = none →
      exec (.stallWindowAccess stall offset op) s = .next (s.after (doStallWindowAccess stall offset op s))) ∧
    (∀ (stall : Nat), (Instr.halt stall).absent = none → exec (.halt stall) s = .next (s.after (doHalt stall s))) ∧
    (∀ (core : Nat), (Instr.stallctlStart core).absent = none → exec (.stallctlStart core) s = .next (s.after (s.startInt core))) ∧
    (∀ (stall : Nat), (Instr.kill stall).absent = none → exec (.kill stall) s = .next (s.after (doKill stall s)))) ∧
  ∀ (s : State) (k : Nat), k < nStalls → s.coreRuns = true →
    (s.winBusy k = false → ∃ x, exec (.halt k) s = .next (s.after x) ∧ (x.stall k).halt = true ∧ x.routine k = none ∧
      (∀ j, j ≠ k → x.stall j = s.stall j) ∧ x.mem = s.mem) ∧
    (s.winBusy k = false → (s.stall k).cid.isSome = true →
      exec (.kill k) s = .next (s.after ((s.dropRoutine k).stallReset k (BitVec.allOnes 64)))) ∧
    (∀ c, c < nCores → (s.stall (64 * c + 63)).cid = none → exec (.stallctlStart c) s = .next (s.after (s.updStall (64 * c + 63)
      (fun t => { t with cid := some (intCid c), phase := .running, fowner := some (intCid c) })))) ∧
    (∀ off op, off < 4096 → s.winBusy k = false → s.routine k = none →
      exec (.stallWindowAccess k off op) s = .next (s.after (s.winAccess k off op).1)) ∧
    (∀ off, (s.winAccess k off .ldw).1 = s.winReload k (off / 16) ∧ (s.winAccess k off .ldc).1 = s.winReload k (off / 16)) ∧
    (∀ n g, 0 < n → n < 32 → ((s.winAccess k (16 * n) (.stc g)).1.stall k).getG n = g ∧
      maskBit ((s.winAccess k (16 * n) (.stc g)).1.stall k).pend n = false) ∧
    (s.winBusy k = true → exec (.halt k) s = .next (s.after s) ∧ exec (.kill k) s = .next (s.after s) ∧
      (∀ off op, off < 4096 → exec (.stallWindowAccess k off op) s = .next (s.after s)))

/-! ### Translation and the haylofts -/

/-- The translation commands (11 R260, R261, R263, R266): a walk fills the unit's cache, a commit that passes applies and drops every translation
of the berth, ALL and ADDR drop what they name, COMPLETE clears the busy bits once what was translated before is performed, and a command is
ignored while one runs. For every operand, each command answers the state that its definition gives. -/
def Obligations.TranslationCommandsTakeEffect : Prop :=
  (∀ s : State, s.coreRuns = true →
    (∀ (unit : TlbUnit) (berth va : Nat) (speculative : Bool), (Instr.tlbWalk unit berth va speculative).absent = none →
      exec (.tlbWalk unit berth va speculative) s = .next (s.after (doTlbWalk unit berth va s))) ∧
    (∀ (berth : Nat), (Instr.xcommit berth).absent = none → exec (.xcommit berth) s = .next (s.after (doXcommit berth s))) ∧
    (∀ (berth : Nat), (Instr.tlbiAll berth).absent = none → exec (.tlbiAll berth) s = .next (s.after (doTlbiAll berth s))) ∧
    (∀ (berth : Nat), (Instr.tlbiAddr berth).absent = none → exec (.tlbiAddr berth) s = .next (s.after (doTlbiAddr berth s))) ∧
    (∀ (berth : Nat), (Instr.tlbiComplete berth).absent = none → exec (.tlbiComplete berth) s = .next (s.after (doTlbiComplete berth s)))) ∧
  ∀ (s : State) (b : Nat), b < nBerths → s.coreRuns = true →
    (∀ u va sp n x, (Instr.tlbWalk u b va sp).absent = none → tlbHit (s.tlb u) b va = none → s.findBlk b va 16 0 = some (n, x) → x.walked = true →
      exec (.tlbWalk u b va sp) s = .next (s.after (s.translate u b va).1)) ∧
    ((s.xpage b).busy = false → s.xcheck b = 0 →
      exec (.xcommit b) s = .next (s.after (((s.xapply b).dropTranslations b none).setXpage b { s.xpage b with xgo := true, goSeq := s.seqNo }))) ∧
    ((s.xpage b).busy = false → s.xcheck b ≠ 0 →
      exec (.xcommit b) s = .next (s.after (s.setXpage b { s.xpage b with xresult := s.xcheck b }))) ∧
    ((s.xpage b).busy = false →
      exec (.tlbiAll b) s = .next (s.after ((s.dropTranslations b none).setXpage b { s.xpage b with top := 1, tgo := true, goSeq := s.seqNo })) ∧
      exec (.tlbiAddr b) s = .next (s.after ((s.dropTranslations b (some (s.xpage b).taddr)).setXpage b
        { s.xpage b with top := 2, tgo := true, goSeq := s.seqNo }))) ∧
    ((s.xpage b).busy = true → s.openBefore b (s.xpage b).goSeq = false →
      exec (.tlbiComplete b) s = .next (s.after (s.setXpage b
        { s.xpage b with xgo := false, tgo := false, xresult := if (s.xpage b).xgo then 0 else (s.xpage b).xresult }))) ∧
    ((s.xpage b).busy = true → exec (.xcommit b) s = .next (s.after s) ∧ exec (.tlbiAll b) s = .next (s.after s) ∧ exec (.tlbiAddr b) s = .next (s.after s)) ∧
    (((s.xpage b).busy = false ∨ s.openBefore b (s.xpage b).goSeq = true) → exec (.tlbiComplete b) s = .next (s.after s))

/-- Coherence (10 R229 to R231, R233, R235). An ownership request of a line that memory can serve leaves no other copy, and what it holds in M; an
eviction from the directory drops every copy; a victim's line leaves its buffer at the acknowledgement, written back at its ports; copies past their
time are dropped; a confident stream's next PF_DEPTH lines are read, none outside its bounds and none that fails its check; else nothing happens.
For every operand, each command answers the state that its definition gives. -/
def Obligations.CoherenceCommandsTakeEffect : Prop :=
  (∀ s : State, s.coreRuns = true →
    (∀ (shed stream : Nat), (Instr.stridePrefetch shed stream).absent = none →
      exec (.stridePrefetch shed stream) s = .next (s.after (doStridePrefetch shed stream s))) ∧
    (∀ (shed line : Nat), (Instr.ownershipRequest shed line).absent = none →
      exec (.ownershipRequest shed line) s = .next (s.after (doOwnershipRequest shed line s))) ∧
    (∀ (line : Nat), exec (.directoryEviction line) s = .next (s.after (doDirectoryEviction line s))) ∧
    (∀ (shed line : Nat), (Instr.writeBackAck shed line).absent = none →
      exec (.writeBackAck shed line) s = .next (s.after (doWriteBackAck shed line s))) ∧
    (∀ (shed : Nat), (Instr.immutTtl shed).absent = none → exec (.immutTtl shed) s = .next (s.after (doImmutTtl shed s)))) ∧
  ∀ (s : State) (h line : Nat), h < nSheds → s.coreRuns = true →
    (s.lineReady line = true → (s.shed h).victims.contains line = false →
      ∃ x, exec (.ownershipRequest h line) s = .next (s.after x) ∧ (∀ e ∈ x.sheds, e.1 ≠ h → ∀ l, (line, l) ∉ e.2.lines) ∧
        (∀ l, (line, l) ∈ (x.shed h).lines → l.st = .M) ∧ ((s.shed h).lines.any (fun l => l.1 == line) = true →
          (x.shed h).lines.any (fun l => l.1 == line) = true ∧ x.mem = s.mem) ∧ x.stalls = s.stalls) ∧
    ((s.lineReady line = false ∨ (s.shed h).victims.contains line = true) → exec (.ownershipRequest h line) s = .next (s.after s)) ∧
    exec (.directoryEviction line) s = .next (s.after (s.dropLine line)) ∧
    ((s.dropLine line).mem = s.mem ∧ ∀ e ∈ (s.dropLine line).sheds, ∀ l, (line, l) ∉ e.2.lines) ∧
    ((s.shed h).victims.contains line = true →
      exec (.writeBackAck h line) s = .next (s.after ((s.updShed h (fun x => { x with victims := x.victims.erase line })).writeBack line))) ∧
    ((s.shed h).victims.contains line = false → exec (.writeBackAck h line) s = .next (s.after s)) ∧
    (∀ p pda, s.locate (64 * line) = some (p, pda) → s.mirrored p = false →
      (s.portState p = psACTIVE → s.writeBack line = (s.useSidecar p pda true).bump (portIdx p) 0x26 64 1) ∧
      (s.portState p ≠ psACTIVE → s.writeBack line = s.firstErr p pda)) ∧
    exec (.immutTtl h) s = .next (s.after (s.updShed h (fun x =>
      { x with copies := x.copies.filter (fun c => decide (s.time ≤ c.made + x.immutTtl)) }))) ∧
    (∀ i x, listAt (s.shed h).streams i = some x → (s.shed h).pfEn = true → 2 ≤ x.same →
      exec (.stridePrefetch h i) s = .next (s.after ((upTo (s.shed h).pfDepth).foldl (fun s i => s.prefetchLine h x i) s))) ∧
    (∀ i, (∀ x, listAt (s.shed h).streams i = some x → (s.shed h).pfEn = false ∨ x.same < 2) →
      exec (.stridePrefetch h i) s = .next (s.after s)) ∧
    (∀ (x : Stream) (i : Nat) (va : Int), x.last + lineStride x.stride * (i + 1) = va →
      ((va < x.lo ∨ x.hi < va + 8) → s.prefetchLine h x i = s) ∧
      (∀ s1 pa, x.lo ≤ va → va + 8 ≤ x.hi → s.translate (.core (coreOf x.stall)) x.berth va.toNat = (s1, .ok pa) →
        (s1.lineReady (pa / 64) = true → verOk x.ver (s1.verAt pa) = true → s.prefetchLine h x i = s1.touchRead h x.berth (pa / 64)) ∧
        (verOk x.ver (s1.verAt pa) = false → s.prefetchLine h x i = s1)) ∧
      (∀ s1 f, x.lo ≤ va → va + 8 ≤ x.hi → s.translate (.core (coreOf x.stall)) x.berth va.toNat = (s1, .error f) → s.prefetchLine h x i = s1))

/-- The hayloft window (10 R236 to R240): an operation starts only while none runs and ends with its result, its line or copies written back or gone;
the ways locked, and the ways that lose and regain power, change as the rules admit, and a write that they refuse changes nothing. For every
operand, each command answers the state that its definition gives. -/
def Obligations.HayloftWindowTakesEffect : Prop :=
  (∀ s : State, s.coreRuns = true →
    (∀ (shed : Nat), (Instr.clean shed).absent = none → exec (.clean shed) s = .next (s.after (s.updShed shed (fun h => h.startMaint 1)))) ∧
    (∀ (shed : Nat), (Instr.inval shed).absent = none → exec (.inval shed) s = .next (s.after (s.updShed shed (fun h => h.startMaint 2)))) ∧
    (∀ (shed : Nat), (Instr.cleanShed shed).absent = none → exec (.cleanShed shed) s = .next (s.after (s.updShed shed (fun h => h.startMaint 3)))) ∧
    (∀ (shed : Nat), (Instr.immutDrop shed).absent = none → exec (.immutDrop shed) s = .next (s.after (s.updShed shed (fun h => h.startMaint 4)))) ∧
    (∀ (shed : Nat), (Instr.maintComplete shed).absent = none → exec (.maintComplete shed) s = .next (s.after (doMaintComplete shed s))) ∧
    (∀ (shed : Nat) (value : Word64), (Instr.wayLock shed value).absent = none →
      exec (.wayLock shed value) s = .next (s.after (s.updShed shed (fun h => h.writeLock value)))) ∧
    (∀ (shed : Nat) (value : Word64), (Instr.wayPwr shed value).absent = none →
      exec (.wayPwr shed value) s = .next (s.after (s.updShed shed (fun h => h.writePwr value)))) ∧
    (∀ (shed way : Nat), (Instr.wayCleanDone shed way).absent = none → exec (.wayCleanDone shed way) s = .next (s.after (doWayCleanDone shed way s))) ∧
    (∀ (shed way : Nat), (Instr.wayPowerUpDone shed way).absent = none →
      exec (.wayPowerUpDone shed way) s = .next (s.after (doWayPowerUpDone shed way s)))) ∧
  ∀ (s : State) (h : Nat), h < nSheds → s.coreRuns = true →
    ((s.shed h).maintGo = false →
      exec (.clean h) s = .next (s.after (s.setShed h { s.shed h with maintOp := 1, maintGo := true })) ∧
      exec (.inval h) s = .next (s.after (s.setShed h { s.shed h with maintOp := 2, maintGo := true })) ∧
      exec (.cleanShed h) s = .next (s.after (s.setShed h { s.shed h with maintOp := 3, maintGo := true })) ∧
      exec (.immutDrop h) s = .next (s.after (s.setShed h { s.shed h with maintOp := 4, maintGo := true }))) ∧
    ((s.shed h).maintGo = true → exec (.clean h) s = .next (s.after (s.setShed h (s.shed h))) ∧
      exec (.inval h) s = .next (s.after (s.setShed h (s.shed h))) ∧ exec (.cleanShed h) s = .next (s.after (s.setShed h (s.shed h))) ∧
      exec (.immutDrop h) s = .next (s.after (s.setShed h (s.shed h)))) ∧
    ((s.shed h).maintGo = true → ((s.shed h).maintOp ≤ 2 → s.inVictims ((s.shed h).maintAddr / 64) = false) →
      ∃ x, exec (.maintComplete h) s = .next (s.after x) ∧ (x.shed h).maintGo = false ∧ x.mem = s.mem ∧ x.stalls = s.stalls ∧
        (x.shed h).maintResult = (if (s.shed h).maintOp = 1 ∨ (s.shed h).maintOp = 2 then
            (if (s.locate (64 * ((s.shed h).maintAddr / 64))).isNone then 1
              else if s.dirty ((s.shed h).maintAddr / 64) && s.writeBackFails ((s.shed h).maintAddr / 64) then 2 else 0)
          else if (s.shed h).maintOp = 3 then (if (s.shed h).lines.any (fun l => l.2.st == .M && s.writeBackFails l.1) then 2 else 0) else 0) ∧
        ((s.shed h).maintOp = 2 → (s.locate (64 * ((s.shed h).maintAddr / 64))).isSome = true →
          ∀ e ∈ x.sheds, ∀ l, ((s.shed h).maintAddr / 64, l) ∉ e.2.lines) ∧
        ((s.shed h).maintOp = 3 → ∀ l ∈ (x.shed h).lines, l.2.st ≠ .M) ∧
        ((s.shed h).maintOp = 4 → ∀ e ∈ x.sheds, e.2.copies = [])) ∧
    (∀ v : Word64, countWays (v.setWidth 16) ≤ 12 → (v.setWidth 16 &&& ~~~(s.shed h).pwrState) = 0 →
      4 ≤ countWays ((s.shed h).powered &&& ~~~(v.setWidth 16)) →
      exec (.wayLock h v) s = .next (s.after (s.setShed h { s.shed h with lock := v.setWidth 16, allocWays := (v >>> 16).setWidth 16 }))) ∧
    (∀ v : Word64, (12 < countWays (v.setWidth 16) ∨ (v.setWidth 16 &&& ~~~(s.shed h).pwrState) ≠ 0 ∨
        countWays ((s.shed h).powered &&& ~~~(v.setWidth 16)) < 4) → exec (.wayLock h v) s = .next (s.after (s.setShed h (s.shed h)))) ∧
    (∀ v : Word64, (v.setWidth 16 &&& (s.shed h).lock) = 0 →
      4 ≤ countWays ((s.shed h).pwrState &&& ~~~(s.shed h).cleaning &&& ~~~(v.setWidth 16) &&& ~~~(s.shed h).lock) →
      ∃ x, exec (.wayPwr h v) s = .next (s.after (s.setShed h x)) ∧ x.offReq = v.setWidth 16 ∧ x.pwrState = (s.shed h).pwrState ∧
        x.lines = (s.shed h).lines ∧ x.cleaning = ((s.shed h).cleaning ||| (v.setWidth 16 &&& ~~~(s.shed h).offReq &&& (s.shed h).pwrState)) ∧
        x.powering = (((s.shed h).powering &&& ~~~(v.setWidth 16)) ||| ((s.shed h).offReq &&& ~~~(v.setWidth 16) &&& ~~~(s.shed h).pwrState))) ∧
    (∀ v : Word64, ((v.setWidth 16 &&& (s.shed h).lock) ≠ 0 ∨
        countWays ((s.shed h).pwrState &&& ~~~(s.shed h).cleaning &&& ~~~(v.setWidth 16) &&& ~~~(s.shed h).lock) < 4) →
      exec (.wayPwr h v) s = .next (s.after (s.setShed h (s.shed h)))) ∧
    (∀ w, w < 16 → maskBit (s.shed h).cleaning w = true →
      ∃ x, exec (.wayCleanDone h w) s = .next (s.after x) ∧ (∀ l ∈ (x.shed h).lines, l.2.way ≠ w) ∧ (∀ c ∈ (x.shed h).copies, c.way ≠ w) ∧
        (x.shed h).pwrState = maskClr (s.shed h).pwrState w ∧ (x.shed h).cleaning = maskClr (s.shed h).cleaning w ∧ x.mem = s.mem ∧ x.stalls = s.stalls) ∧
    (∀ w, w < 16 → maskBit (s.shed h).powering w = true →
      exec (.wayPowerUpDone h w) s = .next (s.after (s.setShed h
        { s.shed h with powering := maskClr (s.shed h).powering w, pwrState := maskSet (s.shed h).pwrState w })))

/-! ### Memory ports -/

/-- A port's life (13 R298 to R300, R309, R310): TRAIN of a port that is OFF or FAILED trains it, or waits while another trains; training ends ACTIVE with
no unit initialised, in boot's step 5 with INIT given, or FAILED with its reason; INIT starts at unit 0, each CODED_UNIT_INIT zeroes the next unit, but
for lines that a hayloft holds; OFF ends it; a command in another state reports so. For every operand, each command answers the state that its
definition gives. -/
def Obligations.PortsTrainInitialiseAndStop : Prop :=
  (∀ s : State, s.coreRuns = true →
    (∀ (port : Nat), (Instr.train port).absent = none → exec (.train port) s = .next (s.after (doTrain port s))) ∧
    (∀ (port : Nat) (how : TrainEnd), (Instr.portTrainingEnd port how).absent = none →
      exec (.portTrainingEnd port how) s = .next (s.after ((doPortTrainingEnd port how s).bootInit port))) ∧
    (∀ (port : Nat), (Instr.portInit port).absent = none → exec (.portInit port) s = .next (s.after (doInit port s))) ∧
    (∀ (port : Nat), (Instr.codedUnitInit port).absent = none → exec (.codedUnitInit port) s = .next (s.after (doCodedUnitInit port s))) ∧
    (∀ (port : Nat), (Instr.portOff port).absent = none → exec (.portOff port) s = .next (s.after (doOff port s)))) ∧
  ∀ (s : State) (p : Nat), p < nPorts → s.coreRuns = true →
    ((s.portState p = psOFF ∨ s.portState p = psFAILED) → s.anyTraining = false →
      exec (.train p) s = .next (s.after ((s.setResult p crRUN).beginTraining p))) ∧
    ((s.portState p = psOFF ∨ s.portState p = psFAILED) → s.anyTraining = true →
      exec (.train p) s = .next (s.after ((s.setResult p crRUN).updPort p (fun x => { x with trainWait := true })))) ∧
    (s.portState p ≠ psOFF → s.portState p ≠ psFAILED → exec (.train p) s = .next (s.after (s.setResult p crSTATE))) ∧
    (∀ how, s.portState p = psTRAINING → (s.port p).trainWait = false →
      (how = .noDevice → ∃ x, exec (.portTrainingEnd p how) s = .next (s.after x) ∧ x.portState p = psFAILED ∧ x.ent (portIdx p) 0x02 = 1 ∧ x.mem = s.mem) ∧
      (maskBit s.isoIocs (p % 4) = false → (how = .unsupported ∨ ∃ lanes rate ser, 4 ≤ lanes ∧ 32 ≤ rate ∧ how = .active 0 lanes rate ser) →
        ∃ x, exec (.portTrainingEnd p how) s = .next (s.after x) ∧ x.portState p = psFAILED ∧ x.ent (portIdx p) 0x02 = 2 ∧ x.mem = s.mem) ∧
      (how ≠ .noDevice → (maskBit s.isoIocs (p % 4) = true ∨ how = .link ∨ ∃ cap lanes rate ser, (lanes < 4 ∨ rate < 32) ∧ how = .active cap lanes rate ser) →
        ∃ x, exec (.portTrainingEnd p how) s = .next (s.after x) ∧ x.portState p = psFAILED ∧ x.ent (portIdx p) 0x02 = 3 ∧ x.mem = s.mem)) ∧
    (∀ cap lanes rate ser, maskBit s.isoIocs (p % 4) = false → s.portState p = psTRAINING → (s.port p).trainWait = false → cap ≠ 0 → 4 ≤ lanes → 32 ≤ rate →
      ∃ x, exec (.portTrainingEnd p (.active cap lanes rate ser)) s = .next (s.after
          (if s.bootStep = 5 ∧ s.ent 0x2200 0x03 = 1 then doInit p x else x)) ∧ x.portState p = psACTIVE ∧
        x.ent (portIdx p) 0x04 = min cap (2 ^ 40) ∧ x.ent (portIdx p) 0x05 = min cap (2 ^ 40) / unitRaw ∧
        x.ent (portIdx p) 0x06 = min cap (2 ^ 40) / unitRaw * unitData ∧ x.ent (portIdx p) 0x07 = 0 ∧ x.ent (portIdx p) 0x09 = 0 ∧ x.mem = s.mem) ∧
    (s.portState p ≠ psTRAINING → ∀ how, exec (.portTrainingEnd p how) s = .next (s.after (s.bootInit p))) ∧
    (s.portState p = psACTIVE → (s.port p).initRun = false → 0 < s.ent (portIdx p) 0x05 →
      exec (.portInit p) s = .next (s.after (((s.setEnt (portIdx p) 0x07 0).setResult p crRUN).updPort p (fun x => { x with initRun := true })))) ∧
    (s.portState p ≠ psACTIVE → exec (.portInit p) s = .next (s.after (s.setResult p crSTATE))) ∧
    (s.portState p = psACTIVE → (s.port p).initRun = true → exec (.portInit p) s = .next (s.after s)) ∧
    (s.portState p = psACTIVE → (s.port p).initRun = true →
      ∃ x, exec (.codedUnitInit p) s = .next (s.after x) ∧ x.ent (portIdx p) 0x07 = s.ent (portIdx p) 0x07 + 1 ∧
        (∀ key, mkey p (s.ent (portIdx p) 0x07 * unitData) ≤ key → key < mkey p ((s.ent (portIdx p) 0x07 + 1) * unitData) → s.keyHeld key = false →
          x.mget key = MGran.zero) ∧
        (∀ key, (key < mkey p (s.ent (portIdx p) 0x07 * unitData) ∨ mkey p ((s.ent (portIdx p) 0x07 + 1) * unitData) ≤ key ∨ s.keyHeld key = true) →
          x.mget key = s.mget key)) ∧
    (s.portState p ≠ psTRAINING → s.portState p ≠ psACTIVE →
      exec (.portOff p) s = .next (s.after (((s.setEnt (portIdx p) 0x01 psOFF).setEnt (portIdx p) 0x02 0).setResult p 0))) ∧
    (s.portState p = psTRAINING → exec (.portOff p) s = .next (s.after (s.setResult p crSTATE))) ∧
    (s.portState p = psACTIVE → exec (.portOff p) s = .next (s.after (((s.setResult p crRUN).updPort p
      (fun x => { x with flushing := true, offAfter := true })).flushStep p)))

/-- A port at work (13 R304 to R311): a line that no hayloft holds is read at the port that reads go to, with its sidecar group; a missing group is
fetched; a flush ends when no group's write is outstanding; the device's answers clean a group or report a failure, its event records are counted; a
failure or a silent device fails the port, and a pair it belongs to is degraded; a mirror's copy runs unit by unit. For every operand, each command
answers the state that its definition gives. -/
def Obligations.PortsServeTheirDevices : Prop :=
  (∀ s : State, s.coreRuns = true →
    (∀ (line : Nat) (poison : Bool), exec (.lineRead ⟨line, poison⟩) s = .next (s.after (doLineRead line poison s))) ∧
    (∀ (port group poison : Nat), (Instr.sidecarFetch port ⟨group, poison⟩).absent = none →
      exec (.sidecarFetch port ⟨group, poison⟩) s = .next (s.after (doSidecarFetch port group poison s))) ∧
    (∀ (port : Nat), (Instr.resync port).absent = none → exec (.resync port) s = .next (s.after (doResync port s))) ∧
    (∀ (port : Nat), (Instr.resyncUnitCopied port).absent = none → exec (.resyncUnitCopied port) s = .next (s.after (doResyncUnitCopied port s))) ∧
    (∀ (port : Nat), (Instr.flush port).absent = none → exec (.flush port) s = .next (s.after (doFlush port s))) ∧
    (∀ (port : Nat), (Instr.portFailure port).absent = none → exec (.portFailure port) s = .next (s.after (doPortFailure port s))) ∧
    (∀ (port : Nat), (Instr.portTimeout port).absent = none → exec (.portTimeout port) s = .next (s.after (doPortTimeout port s))) ∧
    (∀ (port : Nat) (kind : NdrKind) (ok : Bool), (Instr.s2mNdr port kind ok).absent = none →
      exec (.s2mNdr port kind ok) s = .next (s.after (doS2mNdr port kind ok s))) ∧
    (∀ (port count : Nat), (Instr.cxlEventRecord port count).absent = none →
      exec (.cxlEventRecord port count) s = .next (s.after (doCxlEventRecord port count s)))) ∧
  ∀ (s : State) (p : Nat), p < nPorts → s.coreRuns = true →
    (s.portState p = psACTIVE → exec (.flush p) s = .next (s.after (((s.setResult p crRUN).updPort p (fun x => { x with flushing := true })).flushStep p))) ∧
    (s.portState p ≠ psACTIVE → exec (.flush p) s = .next (s.after (s.setResult p crSTATE))) ∧
    ((s.port p).flushing = true → (s.port p).offAfter = false → (s.port p).sidecar.any (·.2.isSome) = false → (s.port p).scOut = [] →
      s.flushStep p = (s.updPort p (fun x => { x with flushing := false })).setResult p 0) ∧
    (((s.port p).sidecar.any (·.2.isSome) = true ∨ (s.port p).scOut ≠ []) → s.flushStep p = s) ∧
    (∀ g poison, s.portState p = psACTIVE → g * 512 < s.ent (portIdx p) 0x06 → (s.port p).sidecar.any (fun e => e.1 == g) = false →
      exec (.sidecarFetch p ⟨g, poison⟩) s = .next (s.after (((s.bump (portIdx p) 0x24 64 1).updPort p (fun x => x.touchSidecar g none)).poisonAll p
        (((upTo 32).map (fun i => 512 * g + 16 * i)).filter (fun d => (upTo 3).any (fun j => nbit poison j && inSidecarLine j d)))))) ∧
    (∀ g poison, (s.portState p ≠ psACTIVE ∨ s.ent (portIdx p) 0x06 ≤ g * 512 ∨ (s.port p).sidecar.any (fun e => e.1 == g) = true) →
      exec (.sidecarFetch p ⟨g, poison⟩) s = .next (s.after s)) ∧
    (∀ line q pda, s.locate (64 * line) = some (p, pda) → (s.readPorts p pda).headD p = q →
      (s.portState q = psACTIVE → s.lineHeld line = false →
        exec (.lineRead ⟨line, false⟩) s = .next (s.after ((upTo 4).foldl (fun s i => (s.readPA 0 (64 * line + 16 * i)).1)
          ((s.useSidecar q pda false).bump (portIdx q) 0x25 64 1))) ∧
        exec (.lineRead ⟨line, true⟩) s = .next (s.after ((upTo 4).foldl (fun s i => (s.readPA 0 (64 * line + 16 * i)).1)
          (((s.useSidecar q pda false).bump (portIdx q) 0x25 64 1).poisonAll q ((upTo 4).map (fun i => pda + 16 * i)))))) ∧
      (∀ poison, (s.portState q ≠ psACTIVE ∨ s.lineHeld line = true) → exec (.lineRead ⟨line, poison⟩) s = .next (s.after s))) ∧
    (∀ line poison, s.locate (64 * line) = none → exec (.lineRead ⟨line, poison⟩) s = .next (s.after s)) ∧
    (∀ g a, listFind (fun e : Nat × Nat => e.1 == g) (s.port p).scOut = none → (s.port p).sidecar.find? (fun e => e.1 == g) = some (g, some a) →
      (s.port p).flushing = true → ∀ x, s.updPort p (fun x => { x with sidecar := x.sidecar.map (fun e => if e.1 = g then (g, none) else e) }) = x →
      exec (.s2mNdr p (.sidecar g) true) s = .next (s.after (x.flushStep p)) ∧
      exec (.s2mNdr p (.sidecar g) false) s = .next (s.after ((x.firstErr p a).flushStep p))) ∧
    (∀ g i a, listFind (fun e : Nat × Nat => e.1 == g) (s.port p).scOut = some i → listAt (s.port p).scOut i = some (g, a) →
      ∀ x, s.updPort p (fun x => { x with scOut := listDel x.scOut i }) = x →
      exec (.s2mNdr p (.sidecar g) true) s = .next (s.after (x.flushStep p)) ∧
      exec (.s2mNdr p (.sidecar g) false) s = .next (s.after ((x.firstErr p a).flushStep p))) ∧
    (∀ pda, exec (.s2mNdr p (.dataWrite pda) false) s = .next (s.after (s.firstErr p pda)) ∧
      exec (.s2mNdr p (.dataWrite pda) true) s = .next (s.after s)) ∧
    (∀ n, s.portState p = psACTIVE → exec (.cxlEventRecord p n) s = .next (s.after (s.bump (portIdx p) 0x28 32 n))) ∧
    (∀ n, s.portState p ≠ psACTIVE → exec (.cxlEventRecord p n) s = .next (s.after s)) ∧
    exec (.portFailure p) s = .next (s.after (s.failPort p 5)) ∧
    (s.portState p = psACTIVE → exec (.portTimeout p) s = .next (s.after (s.failPort p 4))) ∧
    (s.portState p ≠ psACTIVE → exec (.portTimeout p) s = .next (s.after s)) ∧
    (∀ r, (s.portState p = psACTIVE ∨ s.portState p = psTRAINING) → (s.port p).trainWait = false →
      (s.failPort p r).portState p = psFAILED ∧ (s.failPort p r).ent (portIdx p) 0x02 = r ∧ (s.failPort p r).ent (portIdx p) 0x07 = 0 ∧
        (s.inPair p = true → (s.failPort p r).ent (portIdx (evenPort p)) 0x18 = 2) ∧ (s.failPort p r).mem = s.mem) ∧
    (p % 2 = 0 → s.ent (portIdx p) 0x18 = 2 → s.portState (s.partner p) = psACTIVE →
      (s.app (portIdx p) 0x12 ≤ s.ent (portIdx (s.partner p)) 0x06 →
        exec (.resync p) s = .next (s.after ((((s.setEnt (portIdx p) 0x18 3).setEnt (portIdx p) 0x19 0).setResult p crRUN).resyncStep p))) ∧
      (s.ent (portIdx (s.partner p)) 0x06 < s.app (portIdx p) 0x12 → exec (.resync p) s = .next (s.after (s.setResult p crSIZE)))) ∧
    (p % 2 = 0 → (s.ent (portIdx p) 0x18 ≠ 2 ∨ s.portState (s.partner p) ≠ psACTIVE) → exec (.resync p) s = .next (s.after (s.setResult p crSTATE))) ∧
    (p % 2 = 0 → s.ent (portIdx p) 0x18 = 3 → s.ent (portIdx p) 0x19 < 2 ^ 23 → Memory.wf s.mem = true → ∃ x, exec (.resyncUnitCopied p) s = .next (s.after x) ∧
      x.ent (portIdx p) 0x19 = s.ent (portIdx p) 0x19 + 1 ∧ x.stalls = s.stalls ∧ x.records = s.records ∧
      (∀ i, i < unitData / 16 → x.mget (mkey (s.partner p) (s.ent (portIdx p) 0x19 * unitData) + i) =
        s.mget (mkey (s.survivor p) (s.ent (portIdx p) 0x19 * unitData) + i)) ∧
      (∀ key, (key < mkey (s.partner p) (s.ent (portIdx p) 0x19 * unitData) ∨
        mkey (s.partner p) ((s.ent (portIdx p) 0x19 + 1) * unitData) ≤ key) → x.mget key = s.mget key))

/-! ### Collectors and berths -/

/-- The groom engine of a berth (12 R278 to R287, Table 12.7): a cycle starts where its conditions hold, its phases end by their commands while the
collector is not halted, a sweep starts, waits or ends, statistics are cleared, a claim is taken up while OBJ_STATUS is not BUSY and answered; a command
that its conditions do not admit changes nothing. For every operand, each command answers the state that its definition gives. -/
def Obligations.CollectorCommandsTakeEffect : Prop :=
  (∀ s : State, s.coreRuns = true →
    (∀ (berth : Nat), (Instr.minorCycle berth).absent = none → exec (.minorCycle berth) s = .next (s.after (doMinorCycle berth s))) ∧
    (∀ (berth : Nat), (Instr.majorCycle berth).absent = none → exec (.majorCycle berth) s = .next (s.after (doMajorCycle berth s))) ∧
    (∀ (berth : Nat), (Instr.sweep berth).absent = none → exec (.sweep berth) s = .next (s.after (doSweep berth s))) ∧
    (∀ (berth : Nat), (Instr.clearStatistics berth).absent = none → exec (.clearStatistics berth) s = .next (s.after (doClearStatistics berth s))) ∧
    (∀ (berth : Nat) (minor : Bool), (Instr.markEnd berth minor).absent = none →
      exec (.markEnd berth minor) s = .next (s.after (doMarkEnd berth minor s))) ∧
    (∀ (berth : Nat) (minor : Bool), (Instr.evacEnd berth minor).absent = none →
      exec (.evacEnd berth minor) s = .next (s.after (doEvacEnd berth minor s))) ∧
    (∀ (berth : Nat) (minor : Bool), (Instr.updateEnd berth minor).absent = none →
      exec (.updateEnd berth minor) s = .next (s.after (doUpdateEnd berth minor s))) ∧
    (∀ (berth : Nat), (Instr.sweepEnd berth).absent = none → exec (.sweepEnd berth) s = .next (s.after (doSweepEnd berth s))) ∧
    (∀ (berth n : Nat), (Instr.objClaim berth n).absent = none → exec (.objClaim berth n) s = .next (s.after (doObjClaim berth n s))) ∧
    (∀ (berth : Nat), (Instr.objStatusDone berth).absent = none → exec (.objStatusDone berth) s = .next (s.after (doObjStatusDone berth s)))) ∧
  ∀ (s : State) (b : Nat), b < nBerths → s.coreRuns = true →
    (s.heapOn b = true → (s.berth b).halted = false → s.minorPhase b = 0 → s.oldPhase b ≠ 0 → s.oldPhase b ≠ 3 → s.oldPhase b ≠ 4 →
      exec (.minorCycle b) s = .next (s.after (({ s := s, b := b } : Gc).startMark true).done)) ∧
    ((s.heapOn b = false ∨ (s.berth b).halted = true ∨ s.minorPhase b ≠ 0 ∨ s.oldPhase b = 0 ∨ s.oldPhase b = 3 ∨ s.oldPhase b = 4) →
      exec (.minorCycle b) s = .next (s.after s)) ∧
    (s.heapOn b = true → (s.berth b).halted = false →
      exec (.majorCycle b) s = .next (s.after ((s.updBerth b (fun x => { x with pendMajor := true })).tryMajor b))) ∧
    ((s.heapOn b = false ∨ (s.berth b).halted = true) → exec (.majorCycle b) s = .next (s.after s)) ∧
    ((s.oldPhase b = 0 ∨ s.oldPhase b = 1) → exec (.sweep b) s = .next (s.after (s.startSweep b))) ∧
    (2 ≤ s.oldPhase b → s.oldPhase b ≠ 5 → exec (.sweep b) s = .next (s.after (s.updBerth b (fun x => { x with pendSweep := true })))) ∧
    (s.oldPhase b = 5 → exec (.sweep b) s = .next (s.after s)) ∧
    (∃ x, exec (.clearStatistics b) s = .next (s.after x) ∧ (∀ e, 0x59 ≤ e → e ≤ 0x5F → x.ent (berthIdx b) e = 0) ∧
      (∀ e, e < 0x59 → x.ent (berthIdx b) e = s.ent (berthIdx b) e) ∧ x.mem = s.mem) ∧
    (s.anyBuffered b = false → (s.berth b).halted = false → s.minorPhase b = 1 → exec (.markEnd b true) s = .next (s.after (doMarkEnd b true s))) ∧
    (s.anyBuffered b = false → (s.berth b).halted = false → s.oldPhase b = 2 → s.minorPhase b = 0 → exec (.markEnd b false) s = .next (s.after (doMarkEnd b false s))) ∧
    ((s.anyBuffered b = true ∨ (s.berth b).halted = true ∨ s.minorPhase b ≠ 1) → exec (.markEnd b true) s = .next (s.after s)) ∧
    ((s.anyBuffered b = true ∨ (s.berth b).halted = true ∨ s.oldPhase b ≠ 2 ∨ s.minorPhase b ≠ 0) → exec (.markEnd b false) s = .next (s.after s)) ∧
    ((s.berth b).halted = false → s.minorPhase b = 2 → exec (.evacEnd b true) s = .next (s.after (s.setPhase b 3 (s.oldPhase b)))) ∧
    ((s.berth b).halted = false → s.oldPhase b = 3 → exec (.evacEnd b false) s = .next (s.after (s.setPhase b (s.minorPhase b) 4))) ∧
    (s.anyBuffered b = false → (s.berth b).halted = false → s.minorPhase b = 3 → exec (.updateEnd b true) s = .next (s.after (doUpdateEnd b true s))) ∧
    (s.anyBuffered b = false → (s.berth b).halted = false → s.oldPhase b = 4 → exec (.updateEnd b false) s = .next (s.after (doUpdateEnd b false s))) ∧
    ((s.anyBuffered b = true ∨ (s.berth b).halted = true ∨ s.minorPhase b ≠ 3) → exec (.updateEnd b true) s = .next (s.after s)) ∧
    (s.oldPhase b = 5 → exec (.sweepEnd b) s = .next (s.after (doSweepEnd b s))) ∧
    (s.oldPhase b ≠ 5 → exec (.sweepEnd b) s = .next (s.after s)) ∧
    (∀ n, s.ent (berthIdx b) 0x56 ≠ 1 →
      exec (.objClaim b n) s = .next (s.after ((s.setEnt (berthIdx b) 0x56 1).updBerth b (fun x => { x with objReq := some n })))) ∧
    (∀ n, s.ent (berthIdx b) 0x56 = 1 → exec (.objClaim b n) s = .next (s.after s)) ∧
    (∀ n, (s.berth b).objReq = some n → (s.heapOn b = false ∨ (s.berth b).halted = true) →
      ∃ x, exec (.objStatusDone b) s = .next (s.after x) ∧ x.ent (berthIdx b) 0x56 = 6 ∧ (x.berth b).objReq = none ∧ x.mem = s.mem) ∧
    (∀ n, (s.berth b).objReq = some n → s.heapOn b = true → (s.berth b).halted = false → s.ent (berthIdx b) 0x54 % 16 ≠ 0 →
      ∃ x, exec (.objStatusDone b) s = .next (s.after x) ∧ x.ent (berthIdx b) 0x56 = 5 ∧ (x.berth b).objReq = none ∧ x.mem = s.mem) ∧
    (∀ n c g0 g, (s.berth b).objReq = some n → s.heapOn b = true → (s.berth b).halted = false → s.ent (berthIdx b) 0x54 % 16 = 0 →
      s.updBerth b (fun x => { x with objReq := none }) = g0 → g0.segOf b (s.ent (berthIdx b) 0x54) = none →
      (g0.verVA b (s.ent (berthIdx b) 0x54)).isSome = true →
      (if n = 0 then Gc.claimChunk { s := g0, b := b } 2 0 else Gc.claimLarge { s := g0, b := b } n 0) = (g, .ok c) → g.bad = none →
      exec (.objStatusDone b) s = .next (s.after ((((g.s.putVA (g.s.engUnit b (s.ent (berthIdx b) 0x54)) b (s.ent (berthIdx b) 0x54)
        (fun m => m.setGran c)).quotaEdge b).tryMinor b).setEnt (berthIdx b) 0x56 2))) ∧
    ((s.berth b).objReq = none → exec (.objStatusDone b) s = .next (s.after s))

/-- START, the resets and the removals of a berth (16 R366, R367, R377): a berth that is CONFIGURED starts or reports why not; a reset or removal
goes through RESETTING, waits for what is outstanding unless it squashes it, and squashes at the limit or at a RESET_SQUASH or REMOVE_SQUASH of its kind;
in other states it is refused, and while a command runs it is ignored. Berth 0 takes none. For every operand, each command answers the state that
its definition gives. -/
def Obligations.BerthCommandsTakeEffect : Prop :=
  (∀ s : State, s.coreRuns = true →
    (∀ (berth : Nat), (Instr.berthStart berth).absent = none → exec (.berthStart berth) s = .next (s.after (doBerthStart berth s))) ∧
    (∀ (berth : Nat), (Instr.resetDrain berth).absent = none → exec (.resetDrain berth) s = .next (s.after (doResetDrain berth s))) ∧
    (∀ (berth : Nat), (Instr.resetSquash berth).absent = none → exec (.resetSquash berth) s = .next (s.after (doResetSquash berth s))) ∧
    (∀ (berth : Nat), (Instr.removeDrain berth).absent = none → exec (.removeDrain berth) s = .next (s.after (doRemoveDrain berth s))) ∧
    (∀ (berth : Nat), (Instr.removeSquash berth).absent = none → exec (.removeSquash berth) s = .next (s.after (doRemoveSquash berth s))) ∧
    (∀ (berth : Nat), (Instr.drainLimit berth).absent = none → exec (.drainLimit berth) s = .next (s.after (doDrainLimit berth s)))) ∧
  ∀ (s : State) (b : Nat), b < nBerths → s.coreRuns = true →
    (b = 0 → s.ent (berthIdx b) 0x03 ≠ 0xFF → exec (.berthStart b) s = .next (s.after (s.berthResult b 0x74)) ∧
      exec (.resetDrain b) s = .next (s.after (s.berthResult b 0x74)) ∧ exec (.resetSquash b) s = .next (s.after (s.berthResult b 0x74)) ∧
      exec (.removeDrain b) s = .next (s.after (s.berthResult b 0x74)) ∧ exec (.removeSquash b) s = .next (s.after (s.berthResult b 0x74))) ∧
    (b ≠ 0 → s.ent (berthIdx b) 0x03 ≠ 0xFF → s.berthState b = bsCONFIGURED → exec (.berthStart b) s = .next (s.after (s.startBerth b))) ∧
    (b ≠ 0 → s.ent (berthIdx b) 0x03 ≠ 0xFF → s.berthState b ≠ bsCONFIGURED → exec (.berthStart b) s = .next (s.after (s.berthResult b 0x71))) ∧
    (b ≠ 0 → s.ent (berthIdx b) 0x03 ≠ 0xFF → (s.berthState b = bsCONFIGURED ∨ s.berthState b = bsACTIVE) →
      exec (.resetDrain b) s = .next (s.after (s.beginReset b 2)) ∧ exec (.resetSquash b) s = .next (s.after (s.beginReset b 3)) ∧
      exec (.removeDrain b) s = .next (s.after (s.beginReset b 4)) ∧ exec (.removeSquash b) s = .next (s.after (s.beginReset b 5))) ∧
    (b ≠ 0 → s.ent (berthIdx b) 0x03 ≠ 0xFF → s.berthState b ≠ bsCONFIGURED → s.berthState b ≠ bsACTIVE →
      exec (.resetDrain b) s = .next (s.after (s.berthResult b 0x71)) ∧ exec (.resetSquash b) s = .next (s.after (s.berthResult b 0x71)) ∧
      exec (.removeDrain b) s = .next (s.after (s.berthResult b 0x71)) ∧ exec (.removeSquash b) s = .next (s.after (s.berthResult b 0x71))) ∧
    (s.ent (berthIdx b) 0x03 = 0xFF →
      exec (.berthStart b) s = .next (s.after s) ∧ exec (.resetDrain b) s = .next (s.after s) ∧ exec (.removeDrain b) s = .next (s.after s) ∧
      ((s.berth b).resetStep = 3 → (s.berth b).cmd = 2 → exec (.resetSquash b) s = .next (s.after (s.fallBack b))) ∧
      ((s.berth b).resetStep = 3 → (s.berth b).cmd = 4 → exec (.removeSquash b) s = .next (s.after (s.fallBack b))) ∧
      ((s.berth b).cmd ≠ 2 → exec (.resetSquash b) s = .next (s.after s)) ∧ ((s.berth b).cmd ≠ 4 → exec (.removeSquash b) s = .next (s.after s))) ∧
    (s.berthState b = bsRESETTING → (s.berth b).resetStep = 3 → exec (.drainLimit b) s = .next (s.after (s.fallBack b))) ∧
    ((s.berthState b ≠ bsRESETTING ∨ (s.berth b).resetStep ≠ 3) → exec (.drainLimit b) s = .next (s.after s))

/-- A reset that is over leaves its berth CONFIGURED, with no reset under way, one more RESETS and the result; a squash by command reports 0. A removal
forgets the berth's entries and reports in the same way (16 R377 to R379). -/
def Obligations.SquashedBerthsAreConfiguredAgain : Prop :=
  ∀ (s : State) (b : Nat), b < nBerths →
    ((s.berth b).cmd < 4 →
      ∃ y : State, s.finishReset b = ((((y.updBerth b (fun x => { x with cmd := 0, resetStep := 0, fellBack := false })).setEnt (berthIdx b) 0x01
        bsCONFIGURED).bump (berthIdx b) 0x1D 32 1).berthResult b (if (s.berth b).fellBack then 0x01 else 0x00)) ∧
        (s.finishReset b).berthState b = bsCONFIGURED ∧ ((s.finishReset b).berth b).resetStep = 0 ∧
        (s.finishReset b).ent (berthIdx b) 0x03 = (if (s.berth b).fellBack then 0x01 else 0x00)) ∧
    (4 ≤ (s.berth b).cmd →
      ∃ y : State, s.finishReset b = (((y.forget b).setEnt (berthIdx b) 0x1D 1).berthResult b (if (s.berth b).fellBack then 0x01 else 0x00)) ∧
        ((s.finishReset b).berth b).resetStep = 0 ∧
        (s.finishReset b).ent (berthIdx b) 0x03 = (if (s.berth b).fellBack then 0x01 else 0x00))

/-- A berth's event joins its queue of 32 behind those there, or, where the queue is full, is lost and counted in EVQ_LOST (16 R375). -/
def Obligations.BerthEventsQueueOrCount : Prop :=
  ∀ (s : State) (b code : Nat) (w0 w1 : Word64),
    ((s.berth b).events.length < 32 → ((s.berthEvent b code w0 w1).berth b).events = (s.berth b).events ++ [⟨code, w0, w1⟩] ∧
      (s.berthEvent b code w0 w1).dict = s.dict) ∧
    (32 ≤ (s.berth b).events.length → (s.berthEvent b code w0 w1).berth b = s.berth b ∧
      (s.berthEvent b code w0 w1).ent (berthIdx b) 0x16 = min (2 ^ 32 - 1) (s.ent (berthIdx b) 0x16 + 1)) ∧
    (s.berthEvent b code w0 w1).mem = s.mem ∧ (s.berthEvent b code w0 w1).stalls = s.stalls

/-! ### Links and sounding -/

/-- A link that runs (14 R315 to R323): an uncorrectable codeword is one flit error of the link; a RETRY_TIMEOUT resends; lanes that the partner
or the receiver reports bad narrow the direction, and no width left takes the link down; a quiet alignment codeword ends DEGRADING. For every
operand, each command answers the state that its definition gives. -/
def Obligations.LinksCarryCodewords : Prop :=
  (∀ s : State, s.coreRuns = true →
    (∀ (link : Nat) (fec : FecResult) (header : BitVec 20) (flits : List (List Byte)), (Instr.dataCodeword link fec header flits).absent = none →
      exec (.dataCodeword link fec header flits) s = .next (s.after (doDataCodeword link fec header flits s))) ∧
    (∀ (link : Nat) (good : BitVec 4), (Instr.alignmentCodeword link good).absent = none →
      exec (.alignmentCodeword link good) s = .next (s.after (doAlignmentCodeword link good s))) ∧
    (∀ (link : Nat), (Instr.retryTimeout link).absent = none → exec (.retryTimeout link) s = .next (s.after (doRetryTimeout link s))) ∧
    (∀ (link lane : Nat), (Instr.laneFailure link lane).absent = none → exec (.laneFailure link lane) s = .next (s.after (doLaneFailure link lane s)))) ∧
  ∀ (s : State) (k : Nat) (hdr : BitVec 20) (flits : List (List Byte)), k < nLinks → s.coreRuns = true → lkRuns (s.lkState k) = true →
    exec (.dataCodeword k .uncorrectable hdr flits) s = .next (s.after ((s.bump (lkIdx k) 0x11 64 1).flitError k)) ∧
    (hdr.toNat / 2 ^ 18 = 1 → exec (.dataCodeword k .clean hdr flits) s = .next (s.after s) ∧
      exec (.dataCodeword k .corrected hdr flits) s = .next (s.after (s.bump (lkIdx k) 0x10 64 1))) ∧
    (∀ x, hdr.toNat / 2 ^ 18 = 0 → (flits.take 5).foldl (fun s f => if lkRuns (s.lkState k) then s.rxFlit k f else s)
        (s.updLink k (fun l => (l.acked (hdr.toNat / 64 % 4096)).credit (hdr.toNat / 16 % 4) (hdr.toNat % 16))) = x → lkRuns (x.lkState k) = true →
      exec (.dataCodeword k .clean hdr flits) s = .next (s.after (x.flushSounds k ((x.linkSt k).outSounds.length + 1)))) ∧
    ((s.linkSt k).retry ≠ [] → exec (.retryTimeout k) s = .next (s.after (s.resend k))) ∧
    (∀ good, (s.linkSt k).txGood &&& good = (s.linkSt k).txGood → s.lkState k = lsDEGRADING →
      exec (.alignmentCodeword k good) s = .next (s.after (s.setEnt (lkIdx k) 0x03 lsUP).adjChanged)) ∧
    (∀ good x, (s.linkSt k).txGood &&& good ≠ (s.linkSt k).txGood → s.updLink k (fun l => { l with txGood := (s.linkSt k).txGood &&& good }) = x →
      x.newWidth k (x.txWidth k) ((s.linkSt k).txGood &&& good) = none → exec (.alignmentCodeword k good) s = .next (s.after (x.linkDown k))) ∧
    (∀ lane g x, lane < 4 → maskBit (s.linkSt k).rxGood lane = true → maskClr (s.linkSt k).rxGood lane = g →
      ((s.updLink k (fun l => { l with rxGood := g })).setEnt (lkIdx k) 0x05 g.toNat).linkReport k = x →
      (x.newWidth k (x.rxWidth k) g = none → exec (.laneFailure k lane) s = .next (s.after (x.linkDown k))) ∧
      (∀ w, x.newWidth k (x.rxWidth k) g = some w → w ≠ x.rxWidth k → x.lkState k = lsUP →
        exec (.laneFailure k lane) s = .next (s.after
          ((((x.setWidths k (x.txWidth k) w).bump (lkIdx k) 0x14 32 1).setEnt (lkIdx k) 0x03 lsDEGRADING).adjChanged))))

/-- A link's training (14 R323 to R325): an enabled link that is not UP trains again; a training that succeeds is UP with its sequence numbers and
credits afresh and HELLO to send; LK_CMD takes an enabled link through DOWN; LK_ENABLE trains or releases it. For every operand, each command
answers the state that its definition gives. -/
def Obligations.LinksTrainAndStop : Prop :=
  (∀ s : State, s.coreRuns = true →
    (∀ (link : Nat), (Instr.lkRetryMs link).absent = none → exec (.lkRetryMs link) s = .next (s.after (doLkRetryMs link s))) ∧
    (∀ (link : Nat), (Instr.linkUp link).absent = none → exec (.linkUp link) s = .next (s.after (doLinkUp link s))) ∧
    (∀ (link : Nat), (Instr.retrain link).absent = none → exec (.retrain link) s = .next (s.after (doRetrain link s))) ∧
    (∀ (link : Nat), (Instr.takeDown link).absent = none → exec (.takeDown link) s = .next (s.after (doTakeDown link s))) ∧
    (∀ (link : Nat), (Instr.retrainFullWidth link).absent = none → exec (.retrainFullWidth link) s = .next (s.after (doRetrainFull link s)))) ∧
  (∀ s : State, s.helmRuns = true →
    (∀ (path : Path) (link : Nat) (enable : Bool), (Instr.lkEnable path link enable).absent = none →
      exec (.lkEnable path link enable) s = .next (s.after ((s.dictWrite path (lkIdx link) 0x01 (.num (b2n enable))).1)))) ∧
  ∀ (s : State) (k : Nat), k < nLinks → s.coreRuns = true →
    (s.ent (lkIdx k) 0x01 = 1 → s.lkState k ≠ lsUP → s.lkState k ≠ lsDEGRADING → maskBit s.isoLinks k = false →
      exec (.lkRetryMs k) s = .next (s.after ((s.linkStop k lsTRAINING).trainLink k false))) ∧
    (∀ x, s.ent (lkIdx k) 0x01 = 1 → s.lkState k = lsTRAINING → maskBit s.isoIocs (k % 4) = false →
      (s.newWidth k 4 (s.linkSt k).txGood).isSome = true → (s.newWidth k 4 (s.linkSt k).rxGood).isSome = true →
      (((s.setLink k
        { txGood := (s.linkSt k).txGood, rxGood := (s.linkSt k).rxGood, role := (s.linkSt k).role }).setEnt (lkIdx k) 0x03 lsUP).setWidths k
        (bestWidth (s.linkSt k).txGood) (bestWidth (s.linkSt k).rxGood)).setEnt (lkIdx k) 0x05 (s.linkSt k).rxGood.toNat = x →
      exec (.linkUp k) s = .next (s.after (x.sendSound k (helloMsg x.myFlags k (s.linkSt k).role x.nodeId mySerial)))) ∧
    (s.ent (lkIdx k) 0x01 = 1 → exec (.retrain k) s = .next (s.after ((s.linkStop k lsTRAINING).trainLink k false)) ∧
      exec (.retrainFullWidth k) s = .next (s.after ((s.linkDown k).trainLink k true)) ∧
      exec (.takeDown k) s = .next (s.after ((s.sendDown k 3).linkDown k))) ∧
    (∀ p, (Instr.lkEnable p k true).absent = none → s.writeTakes p (lkIdx k) 0x01 1 = true → s.ent (lkIdx k) 0x01 ≠ 1 →
      exec (.lkEnable p k true) s = .next (s.after ((s.setEnt (lkIdx k) 0x01 1).trainLink k true))) ∧
    (∀ p, (Instr.lkEnable p k false).absent = none → s.writeTakes p (lkIdx k) 0x01 0 = true →
      exec (.lkEnable p k false) s = .next (s.after ((s.linkStop k lsDISABLED).setEnt (lkIdx k) 0x01 0)))

/-- A link that goes DOWN keeps its lanes and role, loses its channels' and retry buffer's contents, and gives back to the compass every packet
whose last flit was not acknowledged, marked resent; its LINK_DOWNS counts, where no sounding of this node runs (14 R324). -/
def Obligations.DownLinksGiveBackTheirPackets : Prop :=
  ∀ (s : State) (k : Nat), lkRuns (s.lkState k) = true → s.sounding = false →
    (s.linkDown k).lkState k = lsDOWN ∧ ((s.linkDown k).linkSt k).retry = [] ∧ ((s.linkDown k).linkSt k).greeted = false ∧
    ((s.linkDown k).linkSt k).txGood = (s.linkSt k).txGood ∧ ((s.linkDown k).linkSt k).rxGood = (s.linkSt k).rxGood ∧
    (s.linkDown k).compass = s.compass ++ (s.linkSt k).retry.filterMap (fun f => f.pkt.map (fun p => { pkt := { p with resent := true }, since := s.time })) ∧
    (s.linkDown k).mem = s.mem ∧ (s.linkDown k).stalls = s.stalls ∧ (∀ j, j ≠ k → (s.linkDown k).linkSt j = s.linkSt j)

/-- Sounding (14 R326 to R333): HELLO records its peer; a new node's LSA is stored and forwarded; the master assigns, others wait for it; an
ASSIGN whose parts are all here applies; NODEDOWN takes its link down; SOUND_CMD starts, rebuilds, stops. For every operand, each command answers
the state that its definition gives. -/
def Obligations.SoundingCommandsTakeEffect : Prop :=
  (∀ s : State, s.coreRuns = true →
    (∀ (link : Nat) (msg : List Byte), (Instr.hello link msg).absent = none → exec (.hello link msg) s = .next (s.after (doHello link msg s))) ∧
    (∀ (link : Nat) (msg : List Byte), (Instr.lsa link msg).absent = none → exec (.lsa link msg) s = .next (s.after (doLsa link msg s))) ∧
    exec .lsaRefresh s = .next (s.after (doLsaRefresh s)) ∧
    exec .soundQuiet s = .next (s.after (doSoundQuiet s)) ∧
    (∀ (link : Nat) (msg : List Byte), (Instr.assign link msg).absent = none → exec (.assign link msg) s = .next (s.after (doAssign link msg s))) ∧
    (∀ (link : Nat) (msg : List Byte), (Instr.nodedown link msg).absent = none →
      exec (.nodedown link msg) s = .next (s.after (doNodedown link msg s))) ∧
    exec .startSounding s = .next (s.after (doStartSounding s)) ∧
    exec .rebuildCharts s = .next (s.after (doRebuildCharts s)) ∧
    exec .stopSounding s = .next (s.after (doStopSounding s))) ∧
  ∀ (s s1 : State) (k : Nat) (m : List Byte), k < nLinks → s.coreRuns = true → s.takeSound k m = s1 →
    (leAt m 0 1 = 1 → m.length = 16 → lkRuns (s1.lkState k) = true → leAt m 3 1 = (s1.linkSt k).role → leAt m 6 1 = 1 →
      exec (.hello k m) s = .next (s.after ((((s1.setEnt (lkIdx k) 0x08 (leAt m 8 8)).setEnt (lkIdx k) 0x09 (leAt m 2 1)).setEnt (lkIdx k) 0x0A
        (leAt m 4 2)).updLink k (fun l => { l with greeted := true })).adjChanged)) ∧
    (∀ n s2 s3, leAt m 0 1 = 2 → readLsa m = some n → s1.sounding = true → n.serial ≠ mySerial → s1.sound.db.find? (fun x => x.serial == n.serial) = none →
      s1.storeNode n = some s2 → (upTo nLinks).foldl (fun s j => if s.ent (lkIdx j) 0x08 = n.serial ∧ (s.linkSt j).greeted then s.setEnt (lkIdx j) 0x0A n.node
        else s) (s2.flood (some k) m) = s3 →
      exec (.lsa k m) s = .next (s.after (s3.setEnt 0x5000 0x05 (if s3.ent 0x5000 0x05 = 5 then 5 else 1)).dbChanged)) ∧
    (s.sounding = true → exec .lsaRefresh s = .next (s.after s.sendOwnLsa)) ∧
    (∀ n, s.sounding = true → minNat ((s.sound.db.filter (fun n => nbit n.flags 0)).map (·.serial)) = some n → n ≠ mySerial → s.ent 0x5000 0x05 ≠ 5 →
      exec .soundQuiet s = .next (s.after ((s.setEnt 0x5000 0x0B n).setEnt 0x5000 0x05 3))) ∧
    (s.sounding = true → minNat ((s.sound.db.filter (fun n => nbit n.flags 0)).map (·.serial)) = none → (s.setEnt 0x5000 0x0B 0).ent 0x5000 0x02 = 0xFFFF →
      exec .soundQuiet s = .next (s.after (((s.setEnt 0x5000 0x0B 0).setEnt 0x5000 0x05 2).setEnt 0x5000 0x06 1))) ∧
    (∀ s2 ids, leAt m 0 1 = 3 → soundOk m = true → s1.sounding = true → leAt m 8 8 = s1.ent 0x5000 0x0B → s1.ent 0x5000 0x0C < leAt m 4 4 →
      s1.sound.epoch ≠ leAt m 4 4 → (upTo (leAt m 2 2)).map (fun i => (leAt m 16 4 + i, leAt m (24 + 10 * i) 8, leAt m (32 + 10 * i) 2)) = ids →
      leAt m 20 4 ≤ ids.length →
      ({ s1 with sound := { s1.sound with seen := max s1.sound.seen (leAt m 4 4), epoch := leAt m 4 4, part := ids } } : State).flood (some k) m = s2 →
      exec (.assign k m) s = .next (s.after (s2.applyIds (leAt m 4 4) (ids.map (fun e => (e.2.1, e.2.2)))))) ∧
    (leAt m 0 1 = 4 → m.length = 16 → leAt m 1 1 ≠ 1 → leAt m 1 1 ≠ 2 → exec (.nodedown k m) s = .next (s.after ((s1.linkDown k).fabricEvent 32))) ∧
    (s.ent 0x5000 0x08 ≠ 0 → ((s.setEnt 0x5000 0x05 1).setEnt 0x5000 0x06 0).dbRoom ≠ 0 →
      exec .startSounding s = .next (s.after ((s.setEnt 0x5000 0x05 1).setEnt 0x5000 0x06 0).sendOwnLsa)) ∧
    (s.sounding = true → exec .rebuildCharts s = .next (s.after (s.rebuild true))) ∧
    exec .stopSounding s = .next (s.after (s.setEnt 0x5000 0x05 0))

/-! ### Packets and remote operations -/

/-- The compass (15 R338 to R342, R350; 16 R372): a packet for this node is delivered; one with a route leaves by it with its age, and is counted where it
turns to the escape tree or a detour; one that no route may take, or that an older one at its arbiter outranks, waits; one for an invalid entry, or whose hold time is over, is refused or discarded;
and the next request of the berth in turn is sent with the next TGEN of its slot. For every operand, each command answers the state that its
definition gives. -/
def Obligations.PacketsAreRouted : Prop :=
  (∀ s : State, s.coreRuns = true →
    (∀ (index : Nat), exec (.packetRoute index) s = .next (s.after (doPacketRoute index s))) ∧
    (∀ (index : Nat), exec (.routeHold index) s = .next (s.after (doRouteHold index s))) ∧
    exec .requestInjection s = .next (s.after (doRequestInjection s))) ∧
  ∀ (s g : State) (i : Nat) (t : Transit), s.coreRuns = true → listAt s.compass i = some t →
    ({ s with compass := listDel s.compass i } : State).freeBuffers t = g →
    ((t.pkt.dst = s.nodeId ∨ t.pkt.dst = 0xFFFF) → (s.outranked t = false → exec (.packetRoute i) s = .next (s.after (g.arrive t))) ∧
      (s.outranked t = true → exec (.packetRoute i) s = .next (s.after s)) ∧ exec (.routeHold i) s = .next (s.after s)) ∧
    (t.pkt.dst ≠ s.nodeId → t.pkt.dst ≠ 0xFFFF →
      (chValid (s.entryFor t.pkt.dst) = false → (t.pkt.esc = false ∨ s.treeLink t.pkt.dst = none) →
        exec (.packetRoute i) s = .next (s.after (g.noRoute t))) ∧
      ((chValid (s.entryFor t.pkt.dst) = true ∨ (t.pkt.esc = true ∧ (s.treeLink t.pkt.dst).isSome = true)) →
        (s.route t = none ∨ s.outranked t = true → exec (.packetRoute i) s = .next (s.after s)) ∧
        (∀ k p s1 s2, s.route t = some (k, p) → s.outranked t = false → (if p.esc && !t.pkt.esc then g.bump 0x5000 0x1C 64 1 else g) = s1 →
          (if p.nm && !t.pkt.nm then s1.bump 0x5000 0x1D 64 1 else s1) = s2 →
          exec (.packetRoute i) s = .next (s.after (s2.transmit k ftDATA (t.depart s.time k p).vc (t.depart s.time k p).bytes (some (t.depart s.time k p)))))) ∧
      (t.since + s.ent 0x5000 0x12 * 100 ≤ s.time → s.routes t.pkt.dst = [] → s.treeLink t.pkt.dst = none →
        exec (.routeHold i) s = .next (s.after (g.noRoute t))) ∧
      ((s.time < t.since + s.ent 0x5000 0x12 * 100 ∨ s.routes t.pkt.dst ≠ [] ∨ s.treeLink t.pkt.dst ≠ none) →
        exec (.routeHold i) s = .next (s.after s))) ∧
    (∀ b left n x tg, s.injectBerth = some (b, left) → s.oldestSlot b = some (n, x) → (SMap.get (fun _ => 0) s.tgens n + 1) % 256 = tg →
      exec .requestInjection s = .next (s.after ((({ s with tgens := SMap.set (fun _ => 0) s.tgens n tg, injBerth := b, injLeft := left } : State).setSlot n
        (some { x with st := .sent, tick := s.time, pkt := { x.pkt with tgen := tg } })).emit { x.pkt with tgen := tg })))

/-- A home performs a request it accepts (15 R354 to R358, Table 15.4): target first, then the operation on it, the capabilities it carried taken
into the import table, and the answer: DATA or LINE with what the target held, ACK, REFUSE with the operation's exception or the target's, or a waiter
entry where the operation waits. For every operand, each command answers the state that its definition gives. -/
def Obligations.HomesPerformRequests : Prop :=
  (∀ s : State, s.coreRuns = true →
    exec .load s = .next (s.after (homeWith fabricAccess ptLOAD s)) ∧
    exec .store s = .next (s.after (homeWith fabricAccess ptSTORE s)) ∧
    exec .remoteCas s = .next (s.after (homeWith fabricAccess ptCAS s)) ∧
    exec .remoteFadd s = .next (s.after (homeWith fabricAccess ptFADD s)) ∧
    exec .remoteFill s = .next (s.after (homeWith fabricAccess ptFILL s)) ∧
    exec .remoteInvoke s = .next (s.after (homeWith fabricAccess ptINVOKE s))) ∧
  ∀ (s s1 s2 s3 s4 : State) (p : Pkt) (b : Nat) (t : Target) (v g g' : Gran) (fl : Nat), s.coreRuns = true → s1.homeTarget b p.ver p.addr = (s2, .ok t) →
    (s.accepts ptLOAD = some (p, b, [], s1) → p.pt = ptLOAD →
      (s2.homeLoad p b t = (s3, .data v fl) → s3.exportRoom b p.src v = true → exec .load s = .next (s.after (s3.sendData p b v fl))) ∧
      (∀ gs, s2.homeLoad p b t = (s3, .line gs) → exec .load s = .next (s.after (s3.sendLine p b gs))) ∧
      (s2.homeLoad p b t = (s3, .waits) → exec .load s = .next (s.after (s3.homeRegister { p with cgs := [] } t))) ∧
      (∀ e, s2.homeLoad p b t = (s3, .refuse e) → exec .load s = .next (s.after (s3.refusePkt p e)))) ∧
    (s.accepts ptSTORE = some (p, b, [g], s1) → p.pt = ptSTORE → p.badOperand (s2.capIn g) = false →
      (s2.importCaps b p.src [g] = some s3 →
        exec .store s = .next (s.after ((s3.homeWrite p b t (s2.capIn g)).respond p ptACK 0 0 []))) ∧
      (s2.importCaps b p.src [g] = none →
        exec .store s = .next (s.after ((s2.refusePkt p (reason 0x05)).dropUncounted b p.src [g])))) ∧
    (s.accepts ptCAS = some (p, b, [g, g'], s1) → p.pt = ptCAS → p.badOperand (s2.capIn g) = false → p.badOperand (s2.capIn g') = false →
      ((s2.homeCas p b t (s2.capIn g) (s2.capIn g')).2 = .data v fl → s2.importCaps b p.src [g, g'] = some s3 →
        (s3.homeCas p b t (s2.capIn g) (s2.capIn g')).1 = s4 → s4.exportRoom b p.src v = true →
        exec .remoteCas s = .next (s.after (s4.sendData p b v fl))) ∧
      (∀ e, (s2.homeCas p b t (s2.capIn g) (s2.capIn g')).2 = .refuse e → exec .remoteCas s = .next (s.after (s2.refusePkt p e)))) ∧
    (s.accepts ptFADD = some (p, b, [g], s1) → p.pt = ptFADD → p.badOperand (s2.capIn g) = false →
      ((s2.homeFadd p b t (s2.capIn g).lo).2 = .data v fl → s2.importCaps b p.src [g] = some s3 →
        (s3.homeFadd p b t (s2.capIn g).lo).1 = s4 → s4.exportRoom b p.src v = true →
        exec .remoteFadd s = .next (s.after (s4.sendData p b v fl))) ∧
      (s2.homeFadd p b t (s2.capIn g).lo = (s3, .waits) →
        exec .remoteFadd s = .next (s.after (s3.homeRegister { p with cgs := [CG.of g] } t))) ∧
      (∀ e, (s2.homeFadd p b t (s2.capIn g).lo).2 = .refuse e → exec .remoteFadd s = .next (s.after (s2.refusePkt p e)))) ∧
    (s.accepts ptFILL = some (p, b, [g], s1) → p.pt = ptFILL → p.badOperand (s2.capIn g) = false →
      ((s2.homeFill p b t (s2.capIn g)).2 = .ack → s2.importCaps b p.src [g] = some s3 →
        (s3.homeFill p b t (s2.capIn g)).1 = s4 → exec .remoteFill s = .next (s.after (s4.respond p ptACK 0 0 []))) ∧
      (∀ e, (s2.homeFill p b t (s2.capIn g)).2 = .refuse e → exec .remoteFill s = .next (s.after (s2.refusePkt p e)))) ∧
    (s.accepts ptINVOKE = some (p, b, [g, g'], s1) → p.pt = ptINVOKE → s2.importCaps b p.src [g, g'] = some s3 →
      (s3.invokeHome .compass b p.src (s2.capIn g) (s2.capIn g') = (s4, .ok ()) →
        exec .remoteInvoke s = .next (s.after (s4.respond p ptACK 0 0 []))) ∧
      (∀ e, s3.invokeHome .compass b p.src (s2.capIn g) (s2.capIn g') = (s4, .error e) →
        exec .remoteInvoke s = .next (s.after (s4.refusePkt p e))))

/-- Reference listing (12 R290, R291; 15 R360): LIST gives its sender an entry for the key, or adds to the one it has, and is answered XACK; DROP
takes its COUNT away; a resent DROP or XACK is discarded and counted; an XACK from the home counts the pending import and tells the node it came from;
one from a receiver ends its relay entry and lowers HOLD; an entry of the resent table ends after 1,024 microseconds. For every operand, each
command answers the state that its definition gives. -/
def Obligations.ReferencesAreListed : Prop :=
  (∀ s : State, s.coreRuns = true →
    exec .list s = .next (s.after (doList s)) ∧
    exec .drop s = .next (s.after (doDrop s)) ∧
    exec .xack s = .next (s.after (doXack s)) ∧
    (∀ (index : Nat), exec (.resentEntryExpiry index) s = .next (s.after (doResentEntryExpiry index s)))) ∧
  ∀ (s s1 : State) (p : Pkt) (b : Nat), s.coreRuns = true →
    (s.nextOf ptLIST = some (p, s1) → s1.charterBerth p.charter = some b →
      ∃ x : State, exec .list s = .next (s.after (x.keyed ptXACK p.src p.charter (p.key / 2 ^ 48) (p.key % 2 ^ 44) p.count)) ∧
        ((s1.berth b).exports.any (fun e => e.home == p.key / 2 ^ 48 && e.gran == p.key % 2 ^ 44 && e.peer == p.src) = true →
          (x.berth b).exports.map (fun e => (e.home, e.gran, e.peer, e.count)) = (s1.berth b).exports.map (fun e => (e.home, e.gran, e.peer,
            if e.home = p.key / 2 ^ 48 ∧ e.gran = p.key % 2 ^ 44 ∧ e.peer = p.src then e.count + p.count else e.count))) ∧
        ((s1.berth b).exports.any (fun e => e.home == p.key / 2 ^ 48 && e.gran == p.key % 2 ^ 44 && e.peer == p.src) = false →
          (x.berth b).exports.map (fun e => (e.home, e.gran, e.peer, e.count)) = (s1.berth b).exports.map (fun e => (e.home, e.gran, e.peer, e.count)) ++
            [(p.key / 2 ^ 48, p.key % 2 ^ 44, p.src, p.count)])) ∧
    (s.nextOf ptDROP = some (p, s1) → p.resent = false → s1.charterBerth p.charter = some b →
      exec .drop s = .next (s.after (s1.onExport b (p.key / 2 ^ 48) (p.key % 2 ^ 44) p.src (· - p.count)))) ∧
    (s.nextOf ptDROP = some (p, s1) → p.resent = true → exec .drop s = .next (s.after (s1.bump 0x5000 0x1E 64 1))) ∧
    (s.nextOf ptXACK = some (p, s1) → p.resent = true → exec .xack s = .next (s.after (s1.bump 0x5000 0x1E 64 1))) ∧
    (∀ e x, s.nextOf ptXACK = some (p, s1) → p.resent = false → s1.charterBerth p.charter = some b → (s1.berth b).imports.find? (fun e =>
      (e.home == p.key / 2 ^ 48 && e.gran == p.key % 2 ^ 44) && e.pending && p.src == p.key / 2 ^ 48) = some e →
      s1.setBerth b { s1.berth b with imports := (s1.berth b).imports.map (fun i =>
        if i.home == p.key / 2 ^ 48 && i.gran == p.key % 2 ^ 44 then { i with count := i.count + p.count, pending := false, waitAck := none } else i) } = x →
      (e.waitAck = none → exec .xack s = .next (s.after x)) ∧
      (∀ n ch, e.waitAck = some (n, ch) → exec .xack s = .next (s.after (x.keyed ptXACK n ch (p.key / 2 ^ 48) (p.key % 2 ^ 44) 1)))) ∧
    (s.nextOf ptXACK = some (p, s1) → p.resent = false → s1.charterBerth p.charter = some b → (s1.berth b).imports.find? (fun e =>
      (e.home == p.key / 2 ^ 48 && e.gran == p.key % 2 ^ 44) && e.pending && p.src == p.key / 2 ^ 48) = none →
      (s1.berth b).exports.any (fun e => (e.home == p.key / 2 ^ 48 && e.gran == p.key % 2 ^ 44) && e.peer == p.src) = true → p.key / 2 ^ 48 ≠ s1.nodeId →
      exec .xack s = .next (s.after ((s1.onExport b (p.key / 2 ^ 48) (p.key % 2 ^ 44) p.src (· - p.count)).updBerth b (fun y =>
        { y with imports := y.imports.map (fun i =>
          if i.home == p.key / 2 ^ 48 && i.gran == p.key % 2 ^ 44 then { i with hold := i.hold - p.count } else i) })))) ∧
    (∀ i e, listAt s.resent i = some e → e.2.2.2 + 102400 ≤ s.time →
      exec (.resentEntryExpiry i) s = .next (s.after { s with resent := listDel s.resent i })) ∧
    (∀ i e, listAt s.resent i = some e → s.time < e.2.2.2 + 102400 → exec (.resentEntryExpiry i) s = .next (s.after s))

/-- A response acts on the live slot its TAG and TGEN match (15 R350 to R352, R356; 02 R22; 06 R124): DATA and LINE give the register its value, FADD's
flags going to FSTATUS, and an uncorrectable granule or a reserved tag refuses it; ACK frees the slot; REFUSE gives the refusal it stands for, RETRY polls
again, WAITING ends the time limit; a slot whose limit has passed is refused UNCERTAIN. A response with no live slot is dropped. For every operand,
each command answers the state that its definition gives. -/
def Obligations.ResponsesReachTheirSlot : Prop :=
  (∀ s : State, s.coreRuns = true →
    exec .data s = .next (s.after (doData s)) ∧
    exec .line s = .next (s.after (doLine s)) ∧
    exec .ack s = .next (s.after (doAck s)) ∧
    exec .refuse s = .next (s.after (doRefuse s)) ∧
    exec .retry s = .next (s.after (doRetry s)) ∧
    exec .waiting s = .next (s.after (doWaiting s)) ∧
    (∀ (slot : Nat), (Instr.remoteTimeout slot).absent = none → exec (.remoteTimeout slot) s = .next (s.after (doRemoteTimeout slot s)))) ∧
  ∀ (s s1 s2 s3 : State) (p : Pkt) (x : Slot) (gs : List Gran), s.coreRuns = true →
    (s.nextOf ptDATA = some (p, s1) → s1.liveSlot p = some x → s1.decodeCGs p.src (p.cgs.take 1) = (s2, .ok gs) →
      (gs.any x.badValue = false → s2.slotImports p x gs = .ok s3 →
        (x.pkt.pt ≠ ptFADD → exec .data s = .next (s.after (s3.slotGives p.tag x (x.value (s3.capIn (gs.headD Gran.zero)))))) ∧
        (x.pkt.pt = ptFADD → exec .data s = .next (s.after ((s3.slotGives p.tag x (x.value (s3.capIn (gs.headD Gran.zero)))).orFstatus x.cid
          (nbits p.param 28 24))))) ∧
      (gs.any x.badValue = true → exec .data s = .next (s.after (s2.refuseSlot p.tag { cause := cTAG, subcode := 0x01 })))) ∧
    (∀ e, s.nextOf ptDATA = some (p, s1) → s1.liveSlot p = some x → s1.decodeCGs p.src (p.cgs.take 1) = (s2, .error e) →
      exec .data s = .next (s.after (s2.refuseSlot p.tag { cause := cBUS, subcode := e }))) ∧
    (∀ y ls, s.nextOf ptLINE = some (p, s1) → s1.liveSlot p = some x → s1.decodeCGs p.src p.cgs = (s2, .ok gs) → s2.slotImports p x gs = .ok s3 →
      gs.map s3.capIn = ls → (if x.pkt.line then s3.keepCopy x p ls else s3) = y →
      (∀ v, (if x.pkt.cap then readGran ((listAt ls (x.pkt.addr / 16 % 4)).getD Gran.zero) false
          else readWord ((listAt ls (x.pkt.addr / 16 % 4)).getD Gran.zero) (decide (x.pkt.addr % 16 ≥ 8)) false) = .value v →
        exec .line s = .next (s.after (y.slotGives p.tag x v))) ∧
      (∀ sub, (if x.pkt.cap then readGran ((listAt ls (x.pkt.addr / 16 % 4)).getD Gran.zero) false
          else readWord ((listAt ls (x.pkt.addr / 16 % 4)).getD Gran.zero) (decide (x.pkt.addr % 16 ≥ 8)) false) = .bad sub →
        exec .line s = .next (s.after (y.refuseSlot p.tag { cause := cTAG, subcode := sub })))) ∧
    (s.nextOf ptACK = some (p, s1) → s1.liveSlot p = some x →
      (x.reg = none → exec .ack s = .next (s.after (s1.setSlot p.tag none))) ∧
      exec .ack s = .next (s.after (s1.slotGives p.tag x (match x.pkt.cgs with | c :: _ => x.value (s1.capIn c.g) | [] => Gran.zero)))) ∧
    (s.nextOf ptREFUSE = some (p, s1) → s1.liveSlot p = some x → exec .refuse s = .next (s.after (s1.refuseSlot p.tag p.refusal))) ∧
    (s.nextOf ptRETRY = some (p, s1) → s1.liveSlot p = some x →
      exec .retry s = .next (s.after (s1.setSlot p.tag (some { x with st := .poll, tick := s1.time })))) ∧
    (s.nextOf ptWAITING = some (p, s1) → s1.liveSlot p = some x →
      exec .waiting s = .next (s.after (s1.setSlot p.tag (some { x with st := .exempt })))) ∧
    (s1.liveSlot p = none →
      (s.nextOf ptDATA = some (p, s1) → exec .data s = .next (s.after s1)) ∧ (s.nextOf ptLINE = some (p, s1) → exec .line s = .next (s.after s1)) ∧
      (s.nextOf ptACK = some (p, s1) → exec .ack s = .next (s.after s1)) ∧ (s.nextOf ptREFUSE = some (p, s1) → exec .refuse s = .next (s.after s1)) ∧
      (s.nextOf ptRETRY = some (p, s1) → exec .retry s = .next (s.after s1)) ∧ (s.nextOf ptWAITING = some (p, s1) → exec .waiting s = .next (s.after s1))) ∧
    (∀ n, n < 32768 → s.slot n = some x → x.st = .sent → x.tick + s.ent 0x5000 0x13 * 100000 ≤ s.time →
      exec (.remoteTimeout n) s = .next (s.after (s.refuseSlot n { cause := cREFUSED, subcode := 0x08 }))) ∧
    (∀ n, n < 32768 → s.slot n = some x → (x.st ≠ .sent ∨ s.time < x.tick + s.ent 0x5000 0x13 * 100000) →
      exec (.remoteTimeout n) s = .next (s.after s))

/-- The time base (15 R345 to R347): a request goes to the parent, its answer carries the parent's stamps, and an answer to the request outstanding
gives TIME_OFFSET; before the first lock a large offset steps TIME forward. For every operand, each command answers the state that its definition
gives. -/
def Obligations.TimeIsExchanged : Prop :=
  (∀ s : State, s.coreRuns = true →
    exec .tsyncInterval s = .next (s.after (doTsyncInterval s)) ∧
    (∀ (link : Nat) (t1 t2 t3 : Nat), (Instr.tsyncReq link t1 t2 t3).absent = none →
      exec (.tsyncReq link t1 t2 t3) s = .next (s.after (doTsyncReq link t1 t2 t3 s))) ∧
    (∀ (t1 t2 t3 t4 : Nat), exec (.tsyncRsp t1 t2 t3 t4) s = .next (s.after (doTsyncRsp t1 t2 t3 t4 s)))) ∧
  ∀ (s : State) (k t1 t2 t3 t4 : Nat), k < nLinks → s.coreRuns = true →
    (s.ent 0x5000 0x15 = k → s.lkState k = lsUP → 1 ≤ ((s.linkSt k).ch 2).credits → (s.linkSt k).room 1 = true →
      exec .tsyncInterval s = .next (s.after (({ s with tsOut := some (s.time * 2 ^ 16) } : State).transmit k ftDATA 2
        ({ pt := ptTSREQ, dst := 0xFFFF, src := s.nodeId, times := [s.time * 2 ^ 16, 0, 0] } : Pkt).bytes none))) ∧
    (s.lkState k = lsUP → 1 ≤ ((s.linkSt k).ch 2).credits → (s.linkSt k).room 1 = true →
      exec (.tsyncReq k t1 t2 t3) s = .next (s.after (s.transmit k ftDATA 2
        ({ pt := ptTSRSP, dst := 0xFFFF, src := s.nodeId, times := [t1, t2, t3] } : Pkt).bytes none))) ∧
    (s.tsOut = some t1 → s.ent 0x5000 0x17 = 0 → 10000000 < tsOffset t1 t2 t3 t4 →
      ∃ x, exec (.tsyncRsp t1 t2 t3 t4) s = .next (s.after x) ∧ x.time = s.time + (tsOffset t1 t2 t3 t4 / 10000).toNat ∧ x.ent 0x5000 0x17 = 1 ∧
        x.tsOut = none ∧ x.mem = s.mem) ∧
    (s.tsOut = some t1 → s.ent 0x5000 0x17 = 1 → (tsOffset t1 t2 t3 t4).natAbs < 5000 → s.tsGood = 15 →
      ∃ x, exec (.tsyncRsp t1 t2 t3 t4) s = .next (s.after x) ∧ x.time = s.time ∧ x.ent 0x5000 0x17 = 2 ∧ x.mem = s.mem)

/-! ### The dictionary -/

/-- A write that nothing stands against is applied; a write that the path may not make, or that LOCK keeps off, leaves everything but the
REFUSED_WRITES count; a value out of range leaves everything (17 R387, R389 to R391, R410). For every operand, the command answers the state that
its definition gives. -/
def Obligations.WritesAreAppliedOrRefused : Prop :=
  (∀ s : State, s.helmRuns = true →
    (∀ (path : Path) (index sub : Nat) (value : EVal), (Instr.entryWrite path index sub value).absent = none →
      exec (.entryWrite path index sub value) s = .next (s.after ((s.dictWrite path index sub value).1)))) ∧
  ∀ (s : State) (p : Path) (idx sub v : Nat) (e : EType × EAcc), p.units.find? (fun u => !u.1.has u.2) = none → s.helmRuns = true →
    (s.writeTakes p idx sub v = true → exec (.entryWrite p idx sub (.num v)) s = .next (s.after (s.applyEntry p idx sub v).1)) ∧
    (idx ≠ 0x9000 → s.pathWorks p = true → s.served idx = true → pathReaches p idx = true → entryInfo idx sub = some e → pathWrites p idx sub = false →
      exec (.entryWrite p idx sub (.num v)) s = .next (s.after (s.bump 0x1000 0x16 32 1))) ∧
    (idx ≠ 0x9000 → s.pathWorks p = true → s.served idx = true → pathReaches p idx = true → entryInfo idx sub = some e → pathWrites p idx sub = true →
      s.ent 0x6000 0x02 ≠ 1 → e.1 ≠ .dom → e.2 ≠ .tal → e.2 ≠ .ro → entryRange idx sub v = false →
      exec (.entryWrite p idx sub (.num v)) s = .next (s.after s)) ∧
    (∀ g, g < 64 → s.pathWorks p = true → s.served (0x7000 + g) = true → pathReaches p (0x7000 + g) = true → pathWrites p (0x7000 + g) 0x04 = true →
      s.ent 0x6000 0x02 ≠ 1 → v < 2 ^ 8 → s.ent (0x7000 + g) 0x06 = 1 →
      exec (.entryWrite p (0x7000 + g) 0x04 (.num v)) s = .next (s.after (s.bump 0x1000 0x16 32 1)))

/-- The rows that are writes of one entry take that entry's effect (17 R408 to R411; 18 R419, R420, R425; 19 R431, R439, R446, R448, R449). For
every operand, each command answers the state that its definition gives. -/
def Obligations.WriteRowsTakeTheirEffect : Prop :=
  (∀ s : State, s.helmRuns = true →
    (∀ (path : Path) (slot value : Nat), (Instr.winBase path slot value).absent = none →
      exec (.winBase path slot value) s = .next (s.after ((s.dictWrite path (0x7000 + slot) 0x03 (.num value)).1))) ∧
    (∀ (path : Path) (slot : Nat) (value : Nat), (Instr.lock path slot value).absent = none →
      exec (.lock path slot value) s = .next (s.after ((s.dictWrite path (0x7000 + slot) 0x06 (.num value)).1))) ∧
    (∀ (path : Path) (slot : Nat) (value : Nat), (Instr.violClear path slot value).absent = none →
      exec (.violClear path slot value) s = .next (s.after ((s.dictWrite path (0x7000 + slot) 0x13 (.num value)).1))) ∧
    (∀ (path : Path), (Instr.gateFence path).absent = none → exec (.gateFence path) s = .next (s.after ((s.dictWrite path 0x7000 0xF0 (.num 1)).1))) ∧
    (∀ (path : Path) (value : Nat), (Instr.moorCmd path value).absent = none →
      exec (.moorCmd path value) s = .next (s.after ((s.dictWrite path 0x6000 0x05 (.num value)).1))) ∧
    (∀ (path : Path) (value : Nat), (Instr.feClear path value).absent = none →
      exec (.feClear path value) s = .next (s.after ((s.dictWrite path 0x6000 0x0B (.num value)).1))) ∧
    (∀ (path : Path) (value : BitVec 32), (Instr.injectCorr path value).absent = none →
      exec (.injectCorr path value) s = .next (s.after ((s.dictWrite path 0x6000 0x0C (.num (injectValue 1 value))).1))) ∧
    (∀ (path : Path) (value : BitVec 32), (Instr.injectUncorr path value).absent = none →
      exec (.injectUncorr path value) s = .next (s.after ((s.dictWrite path 0x6000 0x0C (.num (injectValue 2 value))).1))) ∧
    (∀ (path : Path) (value : BitVec 32), (Instr.injectPoison path value).absent = none →
      exec (.injectPoison path value) s = .next (s.after ((s.dictWrite path 0x6000 0x0C (.num (injectValue 3 value))).1))) ∧
    (∀ (path : Path) (value : BitVec 32), (Instr.injectUnit path value).absent = none →
      exec (.injectUnit path value) s = .next (s.after ((s.dictWrite path 0x6000 0x0C (.num (injectValue 4 value))).1))) ∧
    (∀ (path : Path) (value : Nat), (Instr.coreDivReq path value).absent = none →
      exec (.coreDivReq path value) s = .next (s.after ((s.dictWrite path 0x2000 0x02 (.num value)).1))) ∧
    (∀ (path : Path) (value : Nat), (Instr.resetCmd path value).absent = none →
      exec (.resetCmd path value) s = .next (s.after ((s.dictWrite path 0x2200 0x01 (.num value)).1))) ∧
    (∀ (path : Path) (value : Nat), (Instr.yardGo path value).absent = none →
      exec (.yardGo path value) s = .next (s.after ((s.dictWrite path 0x2200 0x07 (.num value)).1))) ∧
    (∀ (path : Path) (value : Nat), (Instr.tallyArm path value).absent = none →
      exec (.tallyArm path value) s = .next (s.after ((s.dictWrite path 0x1100 0x10 (.num value)).1))) ∧
    (∀ (path : Path) (tally value : Nat), (Instr.tallyWrite path tally value).absent = none →
      exec (.tallyWrite path tally value) s = .next (s.after ((s.dictWrite path 0x1100 tally (.num value)).1)))) ∧
  ∀ (s : State) (p : Path), p.units.find? (fun u => !u.1.has u.2) = none → s.helmRuns = true →
    (∀ g v, g < 64 → s.writeTakes p (0x7000 + g) 0x03 v = true → exec (.winBase p g v) s = .next (s.after (s.writeBase g v).1)) ∧
    (∀ g v, g < 64 → s.writeTakes p (0x7000 + g) 0x06 v = true → exec (.lock p g v) s = .next (s.after (s.setEnt (0x7000 + g) 0x06 v))) ∧
    (∀ g, g < 64 → s.writeTakes p (0x7000 + g) 0x13 1 = true → exec (.violClear p g 1) s = .next (s.after
      (((s.setEnt (0x7000 + g) 0x10 0).setEnt (0x7000 + g) 0x11 0).setEnt (0x7000 + g) 0x12 0))) ∧
    (s.writeTakes p 0x7000 0xF0 1 = true → exec (.gateFence p) s = .next (s.after (s.setEnt 0x7000 0xF1 1))) ∧
    (s.writeTakes p 0x6000 0x05 0x4D = true → exec (.moorCmd p 0x4D) s = .next (s.after (s.moor 0x41))) ∧
    (s.writeTakes p 0x6000 0x0B 1 = true → exec (.feClear p 1) s = .next (s.after
      (((((s.setEnt 0x6000 0x06 0xFF).setEnt 0x6000 0x07 0).setEnt 0x6000 0x08 0).setEnt 0x6000 0x09 0).setEnt 0x6000 0x0A 0))) ∧
    (∀ v, nbit (s.ent 0x6000 0x0C) 31 = false →
      (s.writeTakes p 0x6000 0x0C (injectValue 1 v) = true → exec (.injectCorr p v) s = .next (s.after (s.setEnt 0x6000 0x0C (entryMask 0x6000 0x0C (injectValue 1 v))))) ∧
      (s.writeTakes p 0x6000 0x0C (injectValue 2 v) = true → exec (.injectUncorr p v) s = .next (s.after (s.setEnt 0x6000 0x0C (entryMask 0x6000 0x0C (injectValue 2 v))))) ∧
      (s.writeTakes p 0x6000 0x0C (injectValue 3 v) = true → exec (.injectPoison p v) s = .next (s.after (s.setEnt 0x6000 0x0C (entryMask 0x6000 0x0C (injectValue 3 v))))) ∧
      (s.writeTakes p 0x6000 0x0C (injectValue 4 v) = true → v.getLsbD 31 = true → ∃ x r, exec (.injectUnit p v) s = .next (s.after x) ∧
        x.errorLines = s.errorLines ++ [r] ∧ r.bit = v.toNat % 64 ∧ r.kind = .unit ∧ nbit (x.ent 0x6000 0x0C) 31 = false)) ∧
    (∀ v, s.writeTakes p 0x2000 0x02 v = true → s.clkRun = none →
      (v < s.coreDiv → ∃ x, exec (.coreDivReq p v) s = .next (s.after x) ∧ x.clkRun = some v ∧ x.coreDiv = s.coreDiv ∧ x.ent 0x2000 0x04 = 0xFF ∧
        x.ent 0x2100 0x04 = vddCore s.ceiling v) ∧
      (s.coreDiv ≤ v → ∃ x, exec (.coreDivReq p v) s = .next (s.after x) ∧ x.clkRun = none ∧ x.coreDiv = v ∧ x.ent 0x2000 0x04 = 0 ∧
        x.ent 0x2100 0x04 = vddCore s.ceiling v)) ∧
    (s.writeTakes p 0x2200 0x01 0xA5 = true → exec (.resetCmd p 0xA5) s = .next (s.after (s.deviceReset 2))) ∧
    (s.writeTakes p 0x2200 0x07 1 = true → exec (.yardGo p 1) s = .next (s.after (s.yardGo 1))) ∧
    (∀ t, s.writeTakes p 0x1100 0x10 t = true → exec (.tallyArm p t) s = .next (s.after
      { s with arms := s.arms.filter (fun a => a.path != armPath p) ++ [{ path := armPath p, tally := t, tick := s.time }] })) ∧
    (∀ t v, 1 ≤ t → t ≤ 5 → s.pathWorks p = true → s.served 0x1100 = true → pathReaches p 0x1100 = true → pathWrites p 0x1100 t = true →
      s.ent 0x6000 0x02 ≠ 1 → p ≠ .jtag → s.armed p t = true → s.tally 5 ≠ 2 → s.tallyRun = none → s.tallyOk t v = true →
      exec (.tallyWrite p t v) s = .next (s.after { s with
        arms := s.arms.filter (fun a => a.path != armPath p), tallyRun := some { tally := t, value := v },
        logbook := s.logbook ++ [logEntry t (pathAuth p).1 (pathAuth p).2 s.time (s.tally t) v] }))

/-- Commit groups (17 R392, R393; 14 R333; 13 R302; 16 R382) and the patch check (09 R213, R214): a write of COMMIT that passes its checks runs,
its quiescent point applies and counts it, its limit refuses and counts it; DISCARD stages what is applied; a check ends with its result. For every
operand, each command answers the state that its definition gives. -/
def Obligations.CommitsRunToTheirPoint : Prop :=
  (∀ s : State, s.helmRuns = true →
    (∀ (path : Path) (berth : Nat), (Instr.berthCommit path berth).absent = none →
      exec (.berthCommit path berth) s = .next (s.after ((s.dictWrite path (berthIdx berth) 0xFF (.num 1)).1))) ∧
    (∀ (path : Path), (Instr.mapCommit path).absent = none → exec (.mapCommit path) s = .next (s.after ((s.dictWrite path 0x4000 0xFF (.num 1)).1))) ∧
    (∀ (path : Path), (Instr.chartCommit path).absent = none →
      exec (.chartCommit path) s = .next (s.after ((s.dictWrite path 0x5100 0xFF (.num 1)).1))) ∧
    (∀ (index : Nat), exec (.quiescentPoint index) s = .next (s.after (doQuiescentPoint index s))) ∧
    (∀ (index : Nat), exec (.quiesceLimit index) s = .next (s.after (doQuiesceLimit index s))) ∧
    (∀ (path : Path) (index : Nat), (Instr.discard path index).absent = none →
      exec (.discard path index) s = .next (s.after ((s.dictWrite path 0xF000 0x06 (.num index)).1))) ∧
    (∀ (path : Path), (Instr.verifyAndLoad path).absent = none →
      exec (.verifyAndLoad path) s = .next (s.after ((s.dictWrite path 0x8000 0x06 (.num 1)).1))) ∧
    (∀ (path : Path), (Instr.verifyOnly path).absent = none → exec (.verifyOnly path) s = .next (s.after ((s.dictWrite path 0x8000 0x06 (.num 2)).1))) ∧
    exec .patchCheckEnd s = .next (s.after (doPatchCheckEnd s))) ∧
  ∀ (s : State) (p : Path), p.units.find? (fun u => !u.1.has u.2) = none → s.helmRuns = true →
    (∀ b, b < nBerths → s.writeTakes p (berthIdx b) 0xFF 1 = true → exec (.berthCommit p b) s = .next (s.after (s.startCommit p (berthIdx b)))) ∧
    (s.writeTakes p 0x4000 0xFF 1 = true → exec (.mapCommit p) s = .next (s.after (s.startCommit p 0x4000))) ∧
    (s.writeTakes p 0x5100 0xFF 1 = true → exec (.chartCommit p) s = .next (s.after (s.startCommit p 0x5100))) ∧
    (∀ g, (s.startCommit p g).commits = (if (s.setEnt 0xF000 0x01 g).commitCheck g = 0 then s.commits ++ [{ index := g, path := p }] else s.commits) ∧
      (s.startCommit p g).mem = s.mem ∧ (s.startCommit p g).applied = s.applied) ∧
    (∀ g, s.commits.any (fun c => c.index == g) = true →
      exec (.quiescentPoint g) s = .next (s.after ((((({ s with commits := s.commits.filter (fun c => c.index != g) } : State).commitApply g).bump
        0xF000 0x03 32 1)).commitResult g 0)) ∧
      exec (.quiesceLimit g) s = .next (s.after ((({ s with commits := s.commits.filter (fun c => c.index != g) } : State).bump 0xF000 0x04 32 1).commitResult
        g 0x01))) ∧
    (∀ g, s.writeTakes p 0xF000 0x06 g = true → exec (.discard p g) s = .next (s.after (s.discardGroup g))) ∧
    (s.patchRun = none →
      (s.writeTakes p 0x8000 0x06 1 = true → ∃ x, exec (.verifyAndLoad p) s = .next (s.after x) ∧ x.patchRun = some true ∧ x.ent 0x8000 0x07 = 0xFF) ∧
      (s.writeTakes p 0x8000 0x06 2 = true → ∃ x, exec (.verifyOnly p) s = .next (s.after x) ∧ x.patchRun = some false ∧ x.ent 0x8000 0x07 = 0xFF)) ∧
    (s.patchRun = some false → ∃ x, exec .patchCheckEnd s = .next (s.after x) ∧ x.patchRun = none ∧ x.ent 0x8000 0x07 = (s.patchCheck false).1 ∧
      x.patchRam = s.patchRam ∧ x.ent 0x8000 0x02 = s.ent 0x8000 0x02) ∧
    (s.patchRun = some true → ∃ x, exec .patchCheckEnd s = .next (s.after x) ∧ x.patchRun = none ∧ x.ent 0x8000 0x07 = (s.patchCheck true).1 ∧
      ((s.patchCheck true).1 = 0 → x.ent 0x8000 0x02 = leAt (s.staged 0 64) 0x0C 4 ∧ x.ent 0x8000 0x08 = leAt (s.patchCheck true).2 0 2) ∧
      ((s.patchCheck true).1 ≠ 0 → x.patchRam = s.patchRam ∧ x.ent 0x8000 0x02 = s.ent 0x8000 0x02))

/-! ### The Helm bus and the data port -/

/-- Requests of a manager that the SEQ rules perform (17 R399 to R401): OPEN makes a session with a fresh data-port state, CLOSE ends it; READ and
CTRL_RD answer with the value or the status; WRITE and CTRL_WR write and answer. The response is kept with the session. For every operand, each
command answers the state that its definition gives. -/
def Obligations.HelmRequestsAreAnswered : Prop :=
  (∀ s : State, s.helmRuns = true →
    (∀ (node seqn : Nat), (Instr.helmOpen node seqn).absent = none → exec (.helmOpen node seqn) s = .next (s.after (doHelmOpen node seqn s))) ∧
    (∀ (node seqn : Nat), (Instr.helmClose node seqn).absent = none → exec (.helmClose node seqn) s = .next (s.after (doHelmClose node seqn s))) ∧
    (∀ (node seqn index sub : Nat), (Instr.helmRead node seqn index sub).absent = none →
      exec (.helmRead node seqn index sub) s = .next (s.after (doHelmRead node seqn index sub s))) ∧
    (∀ (node seqn index sub : Nat) (value : EVal), (Instr.helmWrite node seqn index sub value).absent = none →
      exec (.helmWrite node seqn index sub value) s = .next (s.after (doHelmWrite node seqn index sub value s))) ∧
    (∀ (node seqn offset : Nat), (Instr.ctrlRd node seqn offset).absent = none →
      exec (.ctrlRd node seqn offset) s = .next (s.after (doCtrlRd node seqn offset s))) ∧
    (∀ (node seqn offset : Nat) (value : Word64), (Instr.ctrlWr node seqn offset value).absent = none →
      exec (.ctrlWr node seqn offset value) s = .next (s.after (doCtrlWr node seqn offset value s)))) ∧
  ∀ (s x : State) (n q idx sub : Nat), 1 ≤ n → n < 128 → s.helmRuns = true →
    (s.busOff = false → s.session n = none → s.sessions.length < 8 → ∃ x, exec (.helmOpen n 0) s = .next (s.after x) ∧
      (∃ y, x.session n = some y ∧ y.lastSeq = 0 ∧ y.xfer = none ∧ y.seen = s.time) ∧ (x.dport (.helm n)).burst = none ∧ x.mem = s.mem ∧ x.stalls = s.stalls) ∧
    (s.busOff = false → s.session n = none → exec (.helmRead n q idx sub) s = .next (s.after (s.answerOnly n 0x03 q 0x05))) ∧
    (s.reqTakes n q = true →
      exec (.helmClose n q) s = .next (s.after ((((s.reqState n q).endSession n).helmEvent 1).reply n 0x02 q 0 [])) ∧
      (∀ e, (s.reqState n q).dictReadAll (.helm n) idx sub = .error e → exec (.helmRead n q idx sub) s = .next (s.after ((s.reqState n q).reply n 0x03 q e []))) ∧
      (∀ b, (s.reqState n q).dictReadAll (.helm n) idx sub = .ok (.bytes b) →
        exec (.helmRead n q idx sub) s = .next (s.after ((s.reqState n q).reply n 0x03 q 0 b))) ∧
      (∀ v t a, (s.reqState n q).dictReadAll (.helm n) idx sub = .ok (.num v) → entryInfo idx sub = some (t, a) →
        exec (.helmRead n q idx sub) s = .next (s.after ((s.reqState n q).reply n 0x03 q 0 (leBytes t.bytes v)))) ∧
      (∀ v st, (s.reqState n q).dictWrite (.helm n) idx sub v = (x, st) → x.inReset = false →
        exec (.helmWrite n q idx sub v) s = .next (s.after (x.reply n 0x04 q st []))) ∧
      (∀ off r, (s.reqState n q).helmCtl n off none = (x, r) → x.inReset = false →
        exec (.ctrlRd n q off) s = .next (s.after (x.reply n 0x05 q r.1 r.2))) ∧
      (∀ off v r, (s.reqState n q).helmCtl n off (some v) = (x, r) → x.inReset = false →
        exec (.ctrlWr n q off v) s = .next (s.after (x.reply n 0x06 q r.1 r.2))))

/-- Transfers and the data port (17 R395 to R403): DP_ADDR and DP_LEN set the burst that the aperture, or a session's segments in windows of 16,
moves; a session silent too long ends, four repeats without progress end a transfer; ALIVE tells the state; a bus that was off recovers. For every
operand, each command answers the state that its definition gives. -/
def Obligations.TransfersMoveTheirBurst : Prop :=
  (∀ s : State, s.helmRuns = true →
    (∀ (node seqn : Nat), (Instr.dpWrite node seqn).absent = none → exec (.dpWrite node seqn) s = .next (s.after (doDpWrite node seqn s))) ∧
    (∀ (node seqn : Nat), (Instr.dpRead node seqn).absent = none → exec (.dpRead node seqn) s = .next (s.after (doDpRead node seqn s))) ∧
    (∀ (node seqn next : Nat), (Instr.dpAck node seqn next).absent = none →
      exec (.dpAck node seqn next) s = .next (s.after (doDpAck node seqn next s))) ∧
    (∀ (node segno : Nat) (bytes : List Byte), (Instr.seg node segno bytes).absent = none →
      exec (.seg node segno bytes) s = .next (s.after (doSeg node segno bytes s))) ∧
    (∀ (node : Nat), (Instr.sessionTimeout node).absent = none → exec (.sessionTimeout node) s = .next (s.after (doSessionTimeout node s))) ∧
    (∀ (node : Nat), (Instr.helmAckTimeout node).absent = none → exec (.helmAckTimeout node) s = .next (s.after (doHelmAckTimeout node s))) ∧
    exec .alive s = .next (s.after (doAlive s)) ∧
    exec .busOffRecovery s = .next (s.after (doBusOffRecovery s)) ∧
    (∀ (busOff : Bool), exec (.canErrorFrame busOff) s = .next (s.after (doCanErrorFrame busOff s))) ∧
    (∀ (inst : DpInst) (value : Word64), (Instr.dpAddr inst value).absent = none →
      exec (.dpAddr inst value) s = .next (s.after (if s.instWorks inst then (s.dpSetEntry inst 0x01 value.toNat).1 else s))) ∧
    (∀ (inst : DpInst) (value : Nat), (Instr.dpLen inst value).absent = none →
      exec (.dpLen inst value) s = .next (s.after (if s.instWorks inst then (s.dpSetEntry inst 0x02 value).1 else s))) ∧
    (∀ (inst : DpInst) (wr : Bool) (bytes : List Byte) (count : Nat), (Instr.dpData inst wr bytes count).absent = none →
      exec (.dpData inst wr bytes count) s
        = .next (s.after (if s.instWorks inst then (if wr then s.dpPut inst (instPath inst) bytes else (s.dpLoad inst count).1) else s)))) ∧
  ∀ (s x : State) (n q : Nat) (i : DpInst), 1 ≤ n → n < 128 → s.helmRuns = true →
    (∀ st, s.reqTakes n q = true →
      ((s.reqState n q).startXfer n q true = (x, none) → exec (.dpWrite n q) s = .next (s.after x)) ∧
      ((s.reqState n q).startXfer n q false = (x, none) → exec (.dpRead n q) s = .next (s.after x)) ∧
      ((s.reqState n q).startXfer n q true = (x, some (st, [])) → x.inReset = false → exec (.dpWrite n q) s = .next (s.after (x.reply n 0x07 q st [])))) ∧
    (∀ y t d t', s.busOff = false → s.session n = some y → y.xfer = some t → t.wr = false → t.seqn = q →
      (upTo 17).find? (fun e => decide (t.base + e ≤ t.next) && (t.base + e) % 65536 == t.next % 65536) = some d →
      { t with base := t.base + d, next := t.base + d, buf := t.buf.drop (d * 64), repeats := if d = 0 then t.repeats else 0 } = t' →
      t'.buf = [] → t'.left = 0 → s.setSession { y with seen := s.time } = x →
      exec (.dpAck n q t.next) s = .next (s.after (x.endXfer n t' (x.burstStatus n)))) ∧
    (∀ y t bytes t', s.busOff = false → s.session n = some y → y.xfer = some t → t.wr = true → bytes.length = t.left → t.left ≤ 64 →
      { t with base := t.base + 1, next := t.base + 1, left := 0, since := t.since + 1, repeats := 0 } = t' →
      (s.setSession { y with seen := s.time }).dpPush (.helm n) (.helm n) bytes = x → x.inReset = false →
      exec (.seg n (t.base % 2048) bytes) s = .next (s.after ((x.sendAck n t').endXfer n t' (x.burstStatus n)))) ∧
    (∀ y, s.session n = some y → y.seen + s.ent 0x1000 0x11 * 100000000 ≤ s.time →
      exec (.sessionTimeout n) s = .next (s.after ((s.endSession n).helmEvent 1))) ∧
    (∀ y t, s.session n = some y → y.xfer = some t → 4 ≤ t.repeats → (s.dport (.helm n)).burst = none →
      exec (.helmAckTimeout n) s = .next (s.after ((s.setDport (.helm n) { s.dport (.helm n) with status := dpABORTED }).endXfer n t 0x0A))) ∧
    (∀ y t, s.session n = some y → y.xfer = some t → t.repeats < 4 → t.wr = true →
      exec (.helmAckTimeout n) s = .next (s.after ((s.setSession { y with xfer := some { t with repeats := t.repeats + 1, since := 0 } }).sendAck n
        { t with repeats := t.repeats + 1 }))) ∧
    (∀ now, (if s.ent 0x6000 0x02 = 1 then 2 else if s.ent 0x2200 0x03 = 2 then 1 else 0) = now →
      exec .alive s = .next (s.after (s.sendFrame
        { func := 2, dst := 0, payload := leBytes 2 (s.ent 0x1000 0x07) ++ leBytes 1 (s.tally 5) ++ leBytes 1 now ++ leBytes 4 s.time }))) ∧
    exec .busOffRecovery s = .next (s.after { s with busOff := false }) ∧
    (s.busOff = false → ∃ x, exec (.canErrorFrame true) s = .next (s.after x) ∧ x.busOff = true ∧ x.stalls = s.stalls ∧ x.mem = s.mem) ∧
    (i.units.find? (fun u => !u.1.has u.2) = none → s.instWorks i = true →
      (∀ v : Word64, v.toNat % 8 = 0 → v.toNat / 2 ^ 56 ≤ 4 → (s.dport i).burst = none →
        exec (.dpAddr i v) s = .next (s.after (s.setDport i { s.dport i with addr := v.toNat }))) ∧
      (∀ v, 0 < v → v < 2 ^ 32 → v % 8 = 0 → (s.dport i).burst = none → s.spaceOk i ((s.dport i).addr / 2 ^ 56) = true →
        exec (.dpLen i v) s = .next (s.after (s.setDport i { s.dport i with len := v, remain := v, status := 0xFF, burst := some { left := v } }))) ∧
      (∀ bytes c, s.dpTurn i true = (x, true) → exec (.dpData i true bytes c) s = .next (s.after (x.dpPush i (instPath i) bytes))) ∧
      (∀ c, s.dpTurn i false = (x, true) → exec (.dpData i false [] c) s = .next (s.after (x.dpPull i c).1)))

/-! ### Watch, host, power -/

/-- The watch, its pins and the host port (07 R159; 16 R384; 17 R411; 18 R412 to R424): a report is latched, counted and, the first, captured; the
two halves' disagreement and MOOR_N moor; mooring sets its registers, drops LANTERN and ends commits; the link's ends and resets are told. For every
operand, each command answers the state that its definition gives. -/
def Obligations.WatchAndHostCommandsTakeEffect : Prop :=
  (∀ s : State, s.helmRuns = true →
    (∀ (hw : Option Report), exec (.watchReport hw) s = .next (s.after (doWatchReport hw s))) ∧
    exec .watchDisagreement s = .next (s.after (doWatchDisagreement s)) ∧
    exec .lanternToggle s = .next (s.after (doLanternToggle s)) ∧
    exec .gateFenceComplete s = .next (s.after (doGateFenceComplete s)) ∧
    (∀ (value : Word64), exec (.hostDoorbell value) s = .next (s.after (doHostDoorbell value s))) ∧
    exec .hostLinkDown s = .next (s.after (doHostLinkDown s)) ∧
    exec .hostLinkUp s = .next (s.after (doHostLinkUp s)) ∧
    (∀ (vf : Nat), (Instr.functionLevelReset vf).absent = none → exec (.functionLevelReset vf) s = .next (s.after (doFunctionLevelReset vf s)))) ∧
  (∀ s : State,
    (∀ (level : Bool) (widthNs : Nat), exec (.moorN level widthNs) s = .next (s.after (doMoorN level widthNs s))) ∧
    (∀ (level : Bool), exec (.pePerstN level) s = .next (s.after (doPePerstN level s)))) ∧
  ∀ (s : State), s.helmRuns = true →
    (∀ r, r.bit < 56 → s.errorLines = [] → s.level r = 0 → s.ent 0x6000 0x06 = 0xFF → ∃ x, exec (.watchReport (some r)) s = .next (s.after x) ∧
      x.ent 0x6000 0x01 = Nat.lor (s.ent 0x6000 0x01) (2 ^ r.bit) ∧ x.ent 0x6000 0x06 = r.bit ∧ x.ent 0x6000 0x0A = s.time ∧
      x.ent 0x6000 (0xC0 + r.bit) = min (2 ^ 32 - 1) (s.ent 0x6000 (0xC0 + r.bit) + 1) ∧ x.stalls = s.stalls ∧ x.mem = s.mem) ∧
    (∀ r, r.bit < 56 → s.errorLines = [] → exec (.watchReport (some r)) s = .next (s.after (s.latch r))) ∧
    (∀ c, s.ent 0x6000 0x02 ≠ 1 → (s.moor c).ent 0x6000 0x02 = 1 ∧ (s.moor c).ent 0x6000 0x03 = c ∧ (s.moor c).ent 0x6000 0x04 = s.time ∧
      (s.moor c).pins.lantern = false ∧ (s.moor c).commits = [] ∧ (s.moor c).mem = s.mem ∧ (s.moor c).stalls = s.stalls) ∧
    (∀ c, s.ent 0x6000 0x02 = 1 → s.moor c = s) ∧
    exec .watchDisagreement s = .next (s.after (s.moor 0x43)) ∧
    (∀ ns, 100 ≤ ns → exec (.moorN false ns) s = .next (s.after (({ s with pins := { s.pins with moorN := false } } : State).moor 0x40))) ∧
    (∀ ns, ns < 20 → exec (.moorN false ns) s = .next (s.after { s with pins := { s.pins with moorN := false } })) ∧
    (s.bootStep ≠ 0 → s.ent 0x6000 0x02 ≠ 1 → exec .lanternToggle s = .next (s.after { s with pins := { s.pins with lantern := !s.pins.lantern } })) ∧
    exec .gateFenceComplete s = .next (s.after (s.setEnt 0x7000 0xF1 0)) ∧
    (∀ v : Word64, s.writeTakes .pf 0x1000 0x19 v.toNat = true → exec (.hostDoorbell v) s = .next (s.after
      (((s.setEnt 0x1000 0x19 v.toNat).setEnt 0x1000 0x18 (Nat.lor ((s.setEnt 0x1000 0x19 v.toNat).ent 0x1000 0x18) 1)).signalDev 23 42))) ∧
    (s.host.link = true → ∃ x, exec .hostLinkDown s = .next (s.after x) ∧ x.host.link = false ∧ x.ent 0x1000 0x18 = Nat.lor (s.ent 0x1000 0x18) 2 ∧ x.mem = s.mem) ∧
    (s.host.link = false → s.pins.perstN = true → maskBit s.isoIocs 0 = false → ∃ x, exec .hostLinkUp s = .next (s.after x) ∧ x.host.link = true ∧
      x.ent 0x1000 0x18 = Nat.lor (s.ent 0x1000 0x18) 4 ∧ x.mem = s.mem) ∧
    (s.host.link = true → exec (.functionLevelReset 0) s = .next (s.after (s.hostEvent 3)) ∧
      (∀ v, 1 ≤ v → v < 64 → exec (.functionLevelReset v) s = .next (s.after ((s.setEnt 0x1000 0x1A v).hostEvent 4)))) ∧
    (∃ x, exec (.pePerstN false) s = .next (s.after x) ∧ x.host = {} ∧ x.pins.perstN = false ∧ x.mem = s.mem ∧ x.stalls = s.stalls)

/-- Clocks, heat and regulators (19 R431 to R435, R442): a faster divisor takes effect once the voltage has settled, or is abandoned; a shed throttles
and stops; a sensor at 110 degrees moors and holds THERMTRIP_N; a regulator's fault is reported; an ageing margin below 3.0 % sets its alarm. For
every operand, each command answers the state that its definition gives. -/
def Obligations.PowerCommandsTakeEffect : Prop :=
  (∀ s : State, s.helmRuns = true →
    exec .voutSettled s = .next (s.after (doVoutSettled s)) ∧
    exec .voutTimeout s = .next (s.after (doVoutTimeout s)) ∧
    (∀ (shed : Nat) (tenths : Int), (Instr.throttle shed tenths).absent = none → exec (.throttle shed tenths) s = .next (s.after (doThrottle shed tenths s))) ∧
    (∀ (shed : Nat) (tenths : Int), (Instr.throttleExit shed tenths).absent = none →
      exec (.throttleExit shed tenths) s = .next (s.after (doThrottleExit shed tenths s))) ∧
    (∀ (sensor : Nat) (tenths : Int), (Instr.thermalTrip sensor tenths).absent = none →
      exec (.thermalTrip sensor tenths) s = .next (s.after (doThermalTrip sensor tenths s))) ∧
    (∀ (status : List (Nat × BitVec 16)), exec (.pmbusPoll status) s = .next (s.after (doPmbusPoll status s))) ∧
    (∀ (status : List (Nat × BitVec 16)), exec (.pmbAlertN status) s = .next (s.after (doPmbusPoll status s))) ∧
    (∀ (shed : Nat) (margin : Int), (Instr.ageAlarm shed margin).absent = none → exec (.ageAlarm shed margin) s = .next (s.after (doAgeAlarm shed margin s)))) ∧
  (∀ s : State,
    (∀ (level : Bool) (widthNs : Nat), exec (.thermtripN level widthNs) s = .next (s.after (doThermtripN level widthNs s)))) ∧
  ∀ (s : State), s.helmRuns = true →
    (∀ d, s.clkRun = some d → s.clkWant = none →
      (∃ x, exec .voutSettled s = .next (s.after x) ∧ x.coreDiv = d ∧ x.clkRun = none ∧ x.ent 0x2000 0x04 = 0 ∧ x.ent 0x2100 0x04 = vddCore s.ceiling d) ∧
      (∃ x, exec .voutTimeout s = .next (s.after x) ∧ x.coreDiv = s.coreDiv ∧ x.clkRun = none ∧ x.ent 0x2000 0x04 = 1 ∧
        x.ent 0x2100 0x04 = vddCore s.ceiling s.coreDiv)) ∧
    (∀ (h : Nat) (tenths : Int), h < nSheds →
      ((s.shed h).throttled = false → 10 * (s.ent 0x2100 0x03 : Int) ≤ tenths → ∃ x, exec (.throttle h tenths) s = .next (s.after x) ∧
        (x.shed h).throttled = true ∧ x.ent 0xA000 0x04 = min (2 ^ 32 - 1) (s.ent 0xA000 0x04 + 1) ∧ x.mem = s.mem ∧ x.stalls = s.stalls) ∧
      (tenths + 50 < 10 * (s.ent 0x2100 0x03 : Int) → ∃ x, exec (.throttleExit h tenths) s = .next (s.after x) ∧ (x.shed h).throttled = false ∧
        x.mem = s.mem ∧ x.stalls = s.stalls)) ∧
    (∀ (n : Nat) (tenths : Int), n < 20 → 1100 ≤ tenths → exec (.thermalTrip n tenths) s = .next (s.after
      (({ s.setTemp n tenths with pins := { s.pins with thermOut := true } } : State).moor 0x42))) ∧
    (∀ ns, 100 ≤ ns → exec (.thermtripN false ns) s = .next (s.after (({ s with pins := { s.pins with thermIn := false } } : State).moor 0x42))) ∧
    (∀ rail w, rail < 11 → s.ent 0x2100 (0x10 + rail) ≠ 0 → pmbFault w = true →
      exec (.pmbusPoll [(rail, w)]) s = .next (s.after (s.raise (pmbReport rail))) ∧ exec (.pmbAlertN [(rail, w)]) s = .next (s.after (s.raise (pmbReport rail)))) ∧
    (∀ (h : Nat) (margin : Int), h < nSheds → margin < 30 → ∃ x, exec (.ageAlarm h margin) s = .next (s.after x) ∧ nbit (x.ent 0xA000 0x05) h = true ∧
      x.ent 0xA000 (0x30 + h) = i32 margin ∧ x.mem = s.mem ∧ x.stalls = s.stalls)

/-- Resets, boot, tallies and the test access port (19 R438 to R449; 20 R462, R465): what a reset keeps and what it sets, how it is left, the steps
of boot, a tally programmed with one change fewer, and what each JTAG instruction shifts. For every operand, each command answers the state that its
definition gives. -/
def Obligations.ResetBootAndTapCommandsTakeEffect : Prop :=
  (∀ s : State, s.helmRuns = true →
    (∀ (flash : FlashImages), exec (.boot flash) s = .next (s.after (doBoot flash s))) ∧
    (∀ (offset : Nat) (wr : Option Word64), exec (.dbgAccess offset wr) s = .next (s.after (doDbgAccess offset wr s)))) ∧
  (∀ s : State,
    exec .resetExit s = .next (s.after (doResetExit s)) ∧
    (∀ (thermtripLow : Bool), exec (.powerOnReset thermtripLow) s = .next (s.after (doPowerOnReset thermtripLow s))) ∧
    exec .pwrgoodFall s = .next (s.after (doPwrgoodFall s)) ∧
    (∀ (level : Bool) (widthNs : Nat), exec (.resetN level widthNs) s = .next (s.after (doResetN level widthNs s))) ∧
    exec .tallyProgrammed s = .next (s.after (doTallyProgrammed s)) ∧
    exec .bypass s = .next (s.after (doBypass s)) ∧
    exec .idcode s = .next (s.after (doIdcode s)) ∧
    (∀ (shift : List Bool), exec (.samplePreload shift) s = .next (s.after (doSamplePreload shift s))) ∧
    exec .extest s = .next (s.after (doExtest s)) ∧
    (∀ (level : Bool), exec (.trstN level) s = .next (s.after (doTrstN level s)))) ∧
  ∀ (s : State),
    (∀ low, s.tallyRun = none → ∃ x, exec (.powerOnReset low) s = .next (s.after x) ∧ x.inReset = true ∧ x.time = 0 ∧ x.stalls = [] ∧ x.records = [] ∧
      x.applied = [] ∧ x.tallies = s.tallies ∧ x.logbook = s.logbook ∧ x.ent 0x5000 0x02 = s.tally 1 ∧ x.pins.pwrgood = true ∧ x.pins.thermOut = false ∧
      x.ent 0x2200 0x03 = 0 ∧ x.ent 0x6000 0x02 = 0) ∧
    (∃ x, exec .pwrgoodFall s = .next (s.after x) ∧ x.inReset = true ∧ x.pins.pwrgood = false ∧ x.stalls = [] ∧ x.time = s.time ∧ x.tallies = s.tallies) ∧
    (∀ ns, 1000 ≤ ns → s.inReset = false →
      exec (.resetN false ns) s = .next (s.after (({ s with pins := { s.pins with resetN := false } } : State).deviceReset 1))) ∧
    (∀ c, (s.deviceReset c).inReset = true ∧ (s.deviceReset c).stalls = [] ∧ (s.deviceReset c).records = [] ∧ (s.deviceReset c).applied = [] ∧
      (s.deviceReset c).time = s.time ∧ (s.deviceReset c).tallies = s.tallies ∧ (s.deviceReset c).ent 0x2200 0x02 = c ∧
      (s.deviceReset c).ent 0x1000 0x07 = (s.ent 0x1000 0x07 + 1) % 65536 ∧ (s.deviceReset c).ent 0x5000 0x02 = s.tally 1 ∧
      (s.deviceReset c).ent 0x6000 0x02 = 0 ∧ (s.deviceReset c).ent 0x6000 0x01 = s.ent 0x6000 0x01) ∧
    (s.inReset = true → s.pins.resetN = true → s.pins.pwrgood = true →
      (s.pins.moorN = true → s.pins.thermIn = true → exec .resetExit s = .next (s.after { s with inReset := false })) ∧
      (s.pins.moorN = false → exec .resetExit s = .next (s.after (({ s with inReset := false } : State).moor 0x40)))) ∧
    (∀ f, s.helmRuns = true → s.ent 0x6000 0x02 = 0 → s.ent 0x2200 0x03 < 2 →
      (s.bootStep = 0 → ∃ x, exec (.boot f) s = .next (s.after x) ∧ x.bootStep = 1 ∧ x.ent 0x2000 0x01 = 1 ∧ x.mem = s.mem) ∧
      (s.bootStep = 2 → ∃ x, exec (.boot f) s = .next (s.after x) ∧ x.bootStep = 3 ∧ x.ent 0x2200 0x03 = 1 ∧ x.coreDiv = lowestDiv s.ceiling ∧
        x.ent 0x2100 0x04 = vddCore s.ceiling (lowestDiv s.ceiling) ∧ x.mem = s.mem)) ∧
    (∀ r, s.tallyRun = some r → 1 ≤ r.tally → r.tally ≤ 5 → r.tally ≠ 4 → ∃ x, exec .tallyProgrammed s = .next (s.after x) ∧ x.tallyRun = none ∧
      x.tally r.tally = r.value ∧ x.tally (0x10 + r.tally) = s.tally (0x10 + r.tally) - 1 ∧ x.dict = s.dict ∧ x.mem = s.mem) ∧
    exec .bypass s = .next (s.after { s with tap := { s.tap with ir := .bypass, dr := [false] } }) ∧
    exec .idcode s = .next (s.after { s with tap := { s.tap with ir := .idcode, dr := bitsOf 0xB5160E37 32 } }) ∧
    (∀ bits, exec (.samplePreload bits) s = .next (s.after { s with tap := { s.tap with ir := .samplePreload, dr := s.pins.sample, boundary := bits } })) ∧
    exec .extest s = .next (s.after { s with tap := { s.tap with ir := .extest, dr := s.pins.sample } }) ∧
    (∀ off wr x v, s.helmRuns = true → off % 8 = 0 → s.romHalted = false → s.ent 0x6000 0x02 ≠ 1 → s.ctlAccess .debug off wr = (x, .ok v) →
      exec (.dbgAccess off wr) s = .next (s.after { x with tap := { x.tap with ir := .dbgAccess, dbgErr := false, dbgData := v } })) ∧
    exec (.trstN false) s = .next (s.after { s with tap := {} })
end

