-- ==== Sys2Proof/Laws/Command.lean ====
section
/-!
SUPPORT. What every command can answer, said once: a fault for a unit that is absent, the state as it is where it does not run, and else
its effect with the consequences.
-/

namespace Sys2Proof.Machine

theorem command_absent (c : Instr) (on : State → Bool) (f : State → State) (s : State) (u : UnitKind × Nat) (h : c.absent = some u) :
    command c on f s = .fault .noSuchUnit := by
  simp [command, h]

theorem command_runs (c : Instr) (on : State → Bool) (f : State → State) (s : State) (h : c.absent = none) (ho : on s = true) :
    command c on f s = .next (s.after (f s)) := by
  simp [command, h, ho]

theorem command_idle (c : Instr) (on : State → Bool) (f : State → State) (s : State) (h : c.absent = none) (ho : on s = false) :
    command c on f s = .next s := by
  simp [command, h, ho]

/-- Every meaning is a command of one of the three domains. -/
theorem exec_is_command (c : Instr) :
    ∃ on f, (on = State.coreRuns ∨ on = State.helmRuns ∨ on = fun _ => true) ∧ ∀ s, exec c s = command c on f s := by
  cases c <;> first
    | exact ⟨State.coreRuns, _, .inl rfl, fun _ => rfl⟩
    | exact ⟨State.helmRuns, _, .inr (.inl rfl), fun _ => rfl⟩
    | exact ⟨fun _ => true, _, .inr (.inr rfl), fun _ => rfl⟩

@[simp] theorem after_pending (s t : State) : (s.after t).pending = s.pending := rfl

theorem step_front (s : State) (c : Instr) (rest : List Instr) (h : s.pending = c :: rest) : step s = exec c { s with pending := rest } := by
  simp [step, h]

theorem step_empty (s : State) (h : s.pending = []) : step s = .next s.tick := by
  simp [step, h]

end Sys2Proof.Machine
end

