-- ==== Sys2Proof/Laws/Exec.lean ====
section
/-!
SUPPORT. What each command answers where the part has its units and where it acts: its effect, with the consequences. A proof about a
command starts from its lemma here and never unfolds exec.
-/

namespace Sys2Proof

theorem UnitKind.has_iff (k : UnitKind) (n : Nat) : k.has n = true ↔ k.range.1 ≤ n ∧ n < k.range.2 := by
  simp [UnitKind.has]

theorem Instr.absent_of_wf {c : Instr} (h : c.wf = true) : c.absent = none := by
  unfold Instr.wf at h
  unfold Instr.absent
  rw [List.find?_eq_none]
  intro x hx
  simp only [List.all_eq_true] at h
  simpa using h x hx

end Sys2Proof

namespace Sys2Proof.Machine

theorem exec_bundleIssue (stall : Nat) (s : State) (ha : (Instr.bundleIssue stall).absent = none) (ho : s.coreRuns = true) :
    exec (.bundleIssue stall) s = .next (s.after (issueWith ctl stall s)) :=
  command_runs (.bundleIssue stall) State.coreRuns (issueWith ctl stall) s ha ho

theorem exec_microwordWait (core seqr : Nat) (s : State) (ha : (Instr.microwordWait core seqr).absent = none) (ho : s.coreRuns = true) :
    exec (.microwordWait core seqr) s = .next (s.after (microWith ctl core seqr s)) :=
  command_runs (.microwordWait core seqr) State.coreRuns (microWith ctl core seqr) s ha ho

theorem exec_vz3Nop (stall : Nat) (s : State) (ha : (Instr.vz3Nop stall).absent = none) (ho : s.coreRuns = true) :
    exec (.vz3Nop stall) s = .next (s.after (vzIssue ctl stall (· == 0x00) s)) :=
  command_runs (.vz3Nop stall) State.coreRuns (vzIssue ctl stall (· == 0x00)) s ha ho

theorem exec_vz3Pushb (stall : Nat) (s : State) (ha : (Instr.vz3Pushb stall).absent = none) (ho : s.coreRuns = true) :
    exec (.vz3Pushb stall) s = .next (s.after (vzIssue ctl stall (· == 0x01) s)) :=
  command_runs (.vz3Pushb stall) State.coreRuns (vzIssue ctl stall (· == 0x01)) s ha ho

theorem exec_vz3Pushw (stall : Nat) (s : State) (ha : (Instr.vz3Pushw stall).absent = none) (ho : s.coreRuns = true) :
    exec (.vz3Pushw stall) s = .next (s.after (vzIssue ctl stall (· == 0x02) s)) :=
  command_runs (.vz3Pushw stall) State.coreRuns (vzIssue ctl stall (· == 0x02)) s ha ho

theorem exec_vz3Pushnil (stall : Nat) (s : State) (ha : (Instr.vz3Pushnil stall).absent = none) (ho : s.coreRuns = true) :
    exec (.vz3Pushnil stall) s = .next (s.after (vzIssue ctl stall (· == 0x03) s)) :=
  command_runs (.vz3Pushnil stall) State.coreRuns (vzIssue ctl stall (· == 0x03)) s ha ho

theorem exec_vz3Pusht (stall : Nat) (s : State) (ha : (Instr.vz3Pusht stall).absent = none) (ho : s.coreRuns = true) :
    exec (.vz3Pusht stall) s = .next (s.after (vzIssue ctl stall (· == 0x04) s)) :=
  command_runs (.vz3Pusht stall) State.coreRuns (vzIssue ctl stall (· == 0x04)) s ha ho

theorem exec_vz3Pushf (stall : Nat) (s : State) (ha : (Instr.vz3Pushf stall).absent = none) (ho : s.coreRuns = true) :
    exec (.vz3Pushf stall) s = .next (s.after (vzIssue ctl stall (· == 0x05) s)) :=
  command_runs (.vz3Pushf stall) State.coreRuns (vzIssue ctl stall (· == 0x05)) s ha ho

theorem exec_vz3Pushk (stall : Nat) (s : State) (ha : (Instr.vz3Pushk stall).absent = none) (ho : s.coreRuns = true) :
    exec (.vz3Pushk stall) s = .next (s.after (vzIssue ctl stall (· == 0x06) s)) :=
  command_runs (.vz3Pushk stall) State.coreRuns (vzIssue ctl stall (· == 0x06)) s ha ho

theorem exec_vz3Pushkw (stall : Nat) (s : State) (ha : (Instr.vz3Pushkw stall).absent = none) (ho : s.coreRuns = true) :
    exec (.vz3Pushkw stall) s = .next (s.after (vzIssue ctl stall (· == 0x07) s)) :=
  command_runs (.vz3Pushkw stall) State.coreRuns (vzIssue ctl stall (· == 0x07)) s ha ho

theorem exec_vz3Loadl (stall : Nat) (s : State) (ha : (Instr.vz3Loadl stall).absent = none) (ho : s.coreRuns = true) :
    exec (.vz3Loadl stall) s = .next (s.after (vzIssue ctl stall (· == 0x08) s)) :=
  command_runs (.vz3Loadl stall) State.coreRuns (vzIssue ctl stall (· == 0x08)) s ha ho

theorem exec_vz3Storel (stall : Nat) (s : State) (ha : (Instr.vz3Storel stall).absent = none) (ho : s.coreRuns = true) :
    exec (.vz3Storel stall) s = .next (s.after (vzIssue ctl stall (· == 0x09) s)) :=
  command_runs (.vz3Storel stall) State.coreRuns (vzIssue ctl stall (· == 0x09)) s ha ho

theorem exec_vz3Loadlw (stall : Nat) (s : State) (ha : (Instr.vz3Loadlw stall).absent = none) (ho : s.coreRuns = true) :
    exec (.vz3Loadlw stall) s = .next (s.after (vzIssue ctl stall (· == 0x0A) s)) :=
  command_runs (.vz3Loadlw stall) State.coreRuns (vzIssue ctl stall (· == 0x0A)) s ha ho

theorem exec_vz3Storelw (stall : Nat) (s : State) (ha : (Instr.vz3Storelw stall).absent = none) (ho : s.coreRuns = true) :
    exec (.vz3Storelw stall) s = .next (s.after (vzIssue ctl stall (· == 0x0B) s)) :=
  command_runs (.vz3Storelw stall) State.coreRuns (vzIssue ctl stall (· == 0x0B)) s ha ho

theorem exec_vz3Dup (stall : Nat) (s : State) (ha : (Instr.vz3Dup stall).absent = none) (ho : s.coreRuns = true) :
    exec (.vz3Dup stall) s = .next (s.after (vzIssue ctl stall (· == 0x0C) s)) :=
  command_runs (.vz3Dup stall) State.coreRuns (vzIssue ctl stall (· == 0x0C)) s ha ho

theorem exec_vz3Drop (stall : Nat) (s : State) (ha : (Instr.vz3Drop stall).absent = none) (ho : s.coreRuns = true) :
    exec (.vz3Drop stall) s = .next (s.after (vzIssue ctl stall (· == 0x0D) s)) :=
  command_runs (.vz3Drop stall) State.coreRuns (vzIssue ctl stall (· == 0x0D)) s ha ho

theorem exec_vz3Swap (stall : Nat) (s : State) (ha : (Instr.vz3Swap stall).absent = none) (ho : s.coreRuns = true) :
    exec (.vz3Swap stall) s = .next (s.after (vzIssue ctl stall (· == 0x0E) s)) :=
  command_runs (.vz3Swap stall) State.coreRuns (vzIssue ctl stall (· == 0x0E)) s ha ho

theorem exec_vz3Over (stall : Nat) (s : State) (ha : (Instr.vz3Over stall).absent = none) (ho : s.coreRuns = true) :
    exec (.vz3Over stall) s = .next (s.after (vzIssue ctl stall (· == 0x0F) s)) :=
  command_runs (.vz3Over stall) State.coreRuns (vzIssue ctl stall (· == 0x0F)) s ha ho

theorem exec_vz3Add (stall : Nat) (s : State) (ha : (Instr.vz3Add stall).absent = none) (ho : s.coreRuns = true) :
    exec (.vz3Add stall) s = .next (s.after (vzIssue ctl stall (· == 0x10) s)) :=
  command_runs (.vz3Add stall) State.coreRuns (vzIssue ctl stall (· == 0x10)) s ha ho

theorem exec_vz3Sub (stall : Nat) (s : State) (ha : (Instr.vz3Sub stall).absent = none) (ho : s.coreRuns = true) :
    exec (.vz3Sub stall) s = .next (s.after (vzIssue ctl stall (· == 0x11) s)) :=
  command_runs (.vz3Sub stall) State.coreRuns (vzIssue ctl stall (· == 0x11)) s ha ho

theorem exec_vz3Mul (stall : Nat) (s : State) (ha : (Instr.vz3Mul stall).absent = none) (ho : s.coreRuns = true) :
    exec (.vz3Mul stall) s = .next (s.after (vzIssue ctl stall (· == 0x12) s)) :=
  command_runs (.vz3Mul stall) State.coreRuns (vzIssue ctl stall (· == 0x12)) s ha ho

theorem exec_vz3Div (stall : Nat) (s : State) (ha : (Instr.vz3Div stall).absent = none) (ho : s.coreRuns = true) :
    exec (.vz3Div stall) s = .next (s.after (vzIssue ctl stall (· == 0x13) s)) :=
  command_runs (.vz3Div stall) State.coreRuns (vzIssue ctl stall (· == 0x13)) s ha ho

theorem exec_vz3Rem (stall : Nat) (s : State) (ha : (Instr.vz3Rem stall).absent = none) (ho : s.coreRuns = true) :
    exec (.vz3Rem stall) s = .next (s.after (vzIssue ctl stall (· == 0x14) s)) :=
  command_runs (.vz3Rem stall) State.coreRuns (vzIssue ctl stall (· == 0x14)) s ha ho

theorem exec_vz3Neg (stall : Nat) (s : State) (ha : (Instr.vz3Neg stall).absent = none) (ho : s.coreRuns = true) :
    exec (.vz3Neg stall) s = .next (s.after (vzIssue ctl stall (· == 0x15) s)) :=
  command_runs (.vz3Neg stall) State.coreRuns (vzIssue ctl stall (· == 0x15)) s ha ho

theorem exec_vz3Ash (stall : Nat) (s : State) (ha : (Instr.vz3Ash stall).absent = none) (ho : s.coreRuns = true) :
    exec (.vz3Ash stall) s = .next (s.after (vzIssue ctl stall (· == 0x16) s)) :=
  command_runs (.vz3Ash stall) State.coreRuns (vzIssue ctl stall (· == 0x16)) s ha ho

theorem exec_vz3Eq (stall : Nat) (s : State) (ha : (Instr.vz3Eq stall).absent = none) (ho : s.coreRuns = true) :
    exec (.vz3Eq stall) s = .next (s.after (vzIssue ctl stall (· == 0x17) s)) :=
  command_runs (.vz3Eq stall) State.coreRuns (vzIssue ctl stall (· == 0x17)) s ha ho

theorem exec_vz3Ne (stall : Nat) (s : State) (ha : (Instr.vz3Ne stall).absent = none) (ho : s.coreRuns = true) :
    exec (.vz3Ne stall) s = .next (s.after (vzIssue ctl stall (· == 0x18) s)) :=
  command_runs (.vz3Ne stall) State.coreRuns (vzIssue ctl stall (· == 0x18)) s ha ho

theorem exec_vz3Lt (stall : Nat) (s : State) (ha : (Instr.vz3Lt stall).absent = none) (ho : s.coreRuns = true) :
    exec (.vz3Lt stall) s = .next (s.after (vzIssue ctl stall (· == 0x19) s)) :=
  command_runs (.vz3Lt stall) State.coreRuns (vzIssue ctl stall (· == 0x19)) s ha ho

theorem exec_vz3Ge (stall : Nat) (s : State) (ha : (Instr.vz3Ge stall).absent = none) (ho : s.coreRuns = true) :
    exec (.vz3Ge stall) s = .next (s.after (vzIssue ctl stall (· == 0x1A) s)) :=
  command_runs (.vz3Ge stall) State.coreRuns (vzIssue ctl stall (· == 0x1A)) s ha ho

theorem exec_vz3Le (stall : Nat) (s : State) (ha : (Instr.vz3Le stall).absent = none) (ho : s.coreRuns = true) :
    exec (.vz3Le stall) s = .next (s.after (vzIssue ctl stall (· == 0x1B) s)) :=
  command_runs (.vz3Le stall) State.coreRuns (vzIssue ctl stall (· == 0x1B)) s ha ho

theorem exec_vz3Gt (stall : Nat) (s : State) (ha : (Instr.vz3Gt stall).absent = none) (ho : s.coreRuns = true) :
    exec (.vz3Gt stall) s = .next (s.after (vzIssue ctl stall (· == 0x1C) s)) :=
  command_runs (.vz3Gt stall) State.coreRuns (vzIssue ctl stall (· == 0x1C)) s ha ho

theorem exec_vz3And (stall : Nat) (s : State) (ha : (Instr.vz3And stall).absent = none) (ho : s.coreRuns = true) :
    exec (.vz3And stall) s = .next (s.after (vzIssue ctl stall (· == 0x1D) s)) :=
  command_runs (.vz3And stall) State.coreRuns (vzIssue ctl stall (· == 0x1D)) s ha ho

theorem exec_vz3Or (stall : Nat) (s : State) (ha : (Instr.vz3Or stall).absent = none) (ho : s.coreRuns = true) :
    exec (.vz3Or stall) s = .next (s.after (vzIssue ctl stall (· == 0x1E) s)) :=
  command_runs (.vz3Or stall) State.coreRuns (vzIssue ctl stall (· == 0x1E)) s ha ho

theorem exec_vz3Xor (stall : Nat) (s : State) (ha : (Instr.vz3Xor stall).absent = none) (ho : s.coreRuns = true) :
    exec (.vz3Xor stall) s = .next (s.after (vzIssue ctl stall (· == 0x1F) s)) :=
  command_runs (.vz3Xor stall) State.coreRuns (vzIssue ctl stall (· == 0x1F)) s ha ho

theorem exec_vz3Jmp (stall : Nat) (s : State) (ha : (Instr.vz3Jmp stall).absent = none) (ho : s.coreRuns = true) :
    exec (.vz3Jmp stall) s = .next (s.after (vzIssue ctl stall (· == 0x20) s)) :=
  command_runs (.vz3Jmp stall) State.coreRuns (vzIssue ctl stall (· == 0x20)) s ha ho

theorem exec_vz3Jf (stall : Nat) (s : State) (ha : (Instr.vz3Jf stall).absent = none) (ho : s.coreRuns = true) :
    exec (.vz3Jf stall) s = .next (s.after (vzIssue ctl stall (· == 0x21) s)) :=
  command_runs (.vz3Jf stall) State.coreRuns (vzIssue ctl stall (· == 0x21)) s ha ho

theorem exec_vz3Jt (stall : Nat) (s : State) (ha : (Instr.vz3Jt stall).absent = none) (ho : s.coreRuns = true) :
    exec (.vz3Jt stall) s = .next (s.after (vzIssue ctl stall (· == 0x22) s)) :=
  command_runs (.vz3Jt stall) State.coreRuns (vzIssue ctl stall (· == 0x22)) s ha ho

theorem exec_vz3Tag (stall : Nat) (s : State) (ha : (Instr.vz3Tag stall).absent = none) (ho : s.coreRuns = true) :
    exec (.vz3Tag stall) s = .next (s.after (vzIssue ctl stall (· == 0x23) s)) :=
  command_runs (.vz3Tag stall) State.coreRuns (vzIssue ctl stall (· == 0x23)) s ha ho

theorem exec_vz3Loadx (stall : Nat) (s : State) (ha : (Instr.vz3Loadx stall).absent = none) (ho : s.coreRuns = true) :
    exec (.vz3Loadx stall) s = .next (s.after (vzIssue ctl stall (· == 0x24) s)) :=
  command_runs (.vz3Loadx stall) State.coreRuns (vzIssue ctl stall (· == 0x24)) s ha ho

theorem exec_vz3Storex (stall : Nat) (s : State) (ha : (Instr.vz3Storex stall).absent = none) (ho : s.coreRuns = true) :
    exec (.vz3Storex stall) s = .next (s.after (vzIssue ctl stall (· == 0x25) s)) :=
  command_runs (.vz3Storex stall) State.coreRuns (vzIssue ctl stall (· == 0x25)) s ha ho

theorem exec_vz3Callk (stall : Nat) (s : State) (ha : (Instr.vz3Callk stall).absent = none) (ho : s.coreRuns = true) :
    exec (.vz3Callk stall) s = .next (s.after (vzIssue ctl stall (· == 0x26) s)) :=
  command_runs (.vz3Callk stall) State.coreRuns (vzIssue ctl stall (· == 0x26)) s ha ho

theorem exec_vz3Retn (stall : Nat) (s : State) (ha : (Instr.vz3Retn stall).absent = none) (ho : s.coreRuns = true) :
    exec (.vz3Retn stall) s = .next (s.after (vzIssue ctl stall (· == 0x27) s)) :=
  command_runs (.vz3Retn stall) State.coreRuns (vzIssue ctl stall (· == 0x27)) s ha ho

theorem exec_vz3Exit (stall : Nat) (s : State) (ha : (Instr.vz3Exit stall).absent = none) (ho : s.coreRuns = true) :
    exec (.vz3Exit stall) s = .next (s.after (vzIssue ctl stall (· == 0xFD) s)) :=
  command_runs (.vz3Exit stall) State.coreRuns (vzIssue ctl stall (· == 0xFD)) s ha ho

theorem exec_vz3Native (stall : Nat) (s : State) (ha : (Instr.vz3Native stall).absent = none) (ho : s.coreRuns = true) :
    exec (.vz3Native stall) s = .next (s.after (vzIssue ctl stall (· == 0xFE) s)) :=
  command_runs (.vz3Native stall) State.coreRuns (vzIssue ctl stall (· == 0xFE)) s ha ho

theorem exec_vz3Break (stall : Nat) (s : State) (ha : (Instr.vz3Break stall).absent = none) (ho : s.coreRuns = true) :
    exec (.vz3Break stall) s = .next (s.after (vzIssue ctl stall (· == 0xFF) s)) :=
  command_runs (.vz3Break stall) State.coreRuns (vzIssue ctl stall (· == 0xFF)) s ha ho

theorem exec_excEntry (stall : Nat) (s : State) (ha : (Instr.excEntry stall).absent = none) (ho : s.coreRuns = true) :
    exec (.excEntry stall) s = .next (s.after (excEntryMicro stall s)) :=
  command_runs (.excEntry stall) State.coreRuns (excEntryMicro stall) s ha ho

theorem exec_deviceEvent (core : Nat) (s : State) (ha : (Instr.deviceEvent core).absent = none) (ho : s.coreRuns = true) :
    exec (.deviceEvent core) s = .next (s.after (doDeviceEvent core s)) :=
  command_runs (.deviceEvent core) State.coreRuns (doDeviceEvent core) s ha ho

theorem exec_timer (stall : Nat) (s : State) (ha : (Instr.timer stall).absent = none) (ho : s.coreRuns = true) :
    exec (.timer stall) s = .next (s.after (doTimer stall s)) :=
  command_runs (.timer stall) State.coreRuns (doTimer stall) s ha ho

theorem exec_resultDelivery (cid reg : Nat) (s : State) (ha : (Instr.resultDelivery cid reg).absent = none) (ho : s.coreRuns = true) :
    exec (.resultDelivery cid reg) s = .next (s.after (doResultDelivery cid reg s)) :=
  command_runs (.resultDelivery cid reg) State.coreRuns (doResultDelivery cid reg) s ha ho

theorem exec_waiterWake (agent index : Nat) (s : State) (ha : (Instr.waiterWake agent index).absent = none) (ho : s.coreRuns = true) :
    exec (.waiterWake agent index) s = .next (s.after (doWaiterWake agent index s)) :=
  command_runs (.waiterWake agent index) State.coreRuns (doWaiterWake agent index) s ha ho

theorem exec_pollRetry (cid reg : Nat) (s : State) (ha : (Instr.pollRetry cid reg).absent = none) (ho : s.coreRuns = true) :
    exec (.pollRetry cid reg) s = .next (s.after (doPollRetry cid reg s)) :=
  command_runs (.pollRetry cid reg) State.coreRuns (doPollRetry cid reg) s ha ho

theorem exec_bufferDrain (core line : Nat) (s : State) (ha : (Instr.bufferDrain core line).absent = none) (ho : s.coreRuns = true) :
    exec (.bufferDrain core line) s = .next (s.after (doBufferDrain core line s)) :=
  command_runs (.bufferDrain core line) State.coreRuns (doBufferDrain core line) s ha ho

theorem exec_parkCut (stall : Nat) (s : State) (ha : (Instr.parkCut stall).absent = none) (ho : s.coreRuns = true) :
    exec (.parkCut stall) s = .next (s.after (doParkCut stall s)) :=
  command_runs (.parkCut stall) State.coreRuns (doParkCut stall) s ha ho

theorem exec_parkComplete (stall : Nat) (s : State) (ha : (Instr.parkComplete stall).absent = none) (ho : s.coreRuns = true) :
    exec (.parkComplete stall) s = .next (s.after (doParkComplete stall s)) :=
  command_runs (.parkComplete stall) State.coreRuns (doParkComplete stall) s ha ho

theorem exec_preemption (stall : Nat) (s : State) (ha : (Instr.preemption stall).absent = none) (ho : s.coreRuns = true) :
    exec (.preemption stall) s = .next (s.after (doPreemption stall s)) :=
  command_runs (.preemption stall) State.coreRuns (doPreemption stall) s ha ho

theorem exec_stallAssign (stall : Nat) (s : State) (ha : (Instr.stallAssign stall).absent = none) (ho : s.coreRuns = true) :
    exec (.stallAssign stall) s = .next (s.after (doStallAssign stall s)) :=
  command_runs (.stallAssign stall) State.coreRuns (doStallAssign stall) s ha ho

theorem exec_frameReload (stall reg : Nat) (s : State) (ha : (Instr.frameReload stall reg).absent = none) (ho : s.coreRuns = true) :
    exec (.frameReload stall reg) s = .next (s.after (doFrameReload stall reg s)) :=
  command_runs (.frameReload stall reg) State.coreRuns (doFrameReload stall reg) s ha ho

theorem exec_floatStateSwitch (stall : Nat) (s : State) (ha : (Instr.floatStateSwitch stall).absent = none) (ho : s.coreRuns = true) :
    exec (.floatStateSwitch stall) s = .next (s.after (floatSwitchWith ctl stall s)) :=
  command_runs (.floatStateSwitch stall) State.coreRuns (floatSwitchWith ctl stall) s ha ho

theorem exec_tlbWalk (unit : TlbUnit) (berth va : Nat) (speculative : Bool) (s : State) (ha : (Instr.tlbWalk unit berth va speculative).absent = none) (ho : s.coreRuns = true) :
    exec (.tlbWalk unit berth va speculative) s = .next (s.after (doTlbWalk unit berth va s)) :=
  command_runs (.tlbWalk unit berth va speculative) State.coreRuns (doTlbWalk unit berth va) s ha ho

theorem exec_stridePrefetch (shed stream : Nat) (s : State) (ha : (Instr.stridePrefetch shed stream).absent = none) (ho : s.coreRuns = true) :
    exec (.stridePrefetch shed stream) s = .next (s.after (doStridePrefetch shed stream s)) :=
  command_runs (.stridePrefetch shed stream) State.coreRuns (doStridePrefetch shed stream) s ha ho

theorem exec_ownershipRequest (shed line : Nat) (s : State) (ha : (Instr.ownershipRequest shed line).absent = none) (ho : s.coreRuns = true) :
    exec (.ownershipRequest shed line) s = .next (s.after (doOwnershipRequest shed line s)) :=
  command_runs (.ownershipRequest shed line) State.coreRuns (doOwnershipRequest shed line) s ha ho

theorem exec_directoryEviction (line : Nat) (s : State) (ho : s.coreRuns = true) :
    exec (.directoryEviction line) s = .next (s.after (doDirectoryEviction line s)) :=
  command_runs (.directoryEviction line) State.coreRuns (doDirectoryEviction line) s rfl ho

theorem exec_writeBackAck (shed line : Nat) (s : State) (ha : (Instr.writeBackAck shed line).absent = none) (ho : s.coreRuns = true) :
    exec (.writeBackAck shed line) s = .next (s.after (doWriteBackAck shed line s)) :=
  command_runs (.writeBackAck shed line) State.coreRuns (doWriteBackAck shed line) s ha ho

theorem exec_lineRead (line : DeviceLine) (s : State) (ho : s.coreRuns = true) :
    exec (.lineRead line) s = .next (s.after (doLineRead line.line line.poison s)) :=
  command_runs (.lineRead line) State.coreRuns (doLineRead line.line line.poison) s rfl ho

theorem exec_sidecarFetch (port : Nat) (group : DeviceGroup) (s : State) (ha : (Instr.sidecarFetch port group).absent = none) (ho : s.coreRuns = true) :
    exec (.sidecarFetch port group) s = .next (s.after (doSidecarFetch port group.group group.poison s)) :=
  command_runs (.sidecarFetch port group) State.coreRuns (doSidecarFetch port group.group group.poison) s ha ho

theorem exec_immutTtl (shed : Nat) (s : State) (ha : (Instr.immutTtl shed).absent = none) (ho : s.coreRuns = true) :
    exec (.immutTtl shed) s = .next (s.after (doImmutTtl shed s)) :=
  command_runs (.immutTtl shed) State.coreRuns (doImmutTtl shed) s ha ho

theorem exec_clean (shed : Nat) (s : State) (ha : (Instr.clean shed).absent = none) (ho : s.coreRuns = true) :
    exec (.clean shed) s = .next (s.after (s.updShed shed (fun h => h.startMaint 1))) :=
  command_runs (.clean shed) State.coreRuns (fun s => s.updShed shed (fun h => h.startMaint 1)) s ha ho

theorem exec_inval (shed : Nat) (s : State) (ha : (Instr.inval shed).absent = none) (ho : s.coreRuns = true) :
    exec (.inval shed) s = .next (s.after (s.updShed shed (fun h => h.startMaint 2))) :=
  command_runs (.inval shed) State.coreRuns (fun s => s.updShed shed (fun h => h.startMaint 2)) s ha ho

theorem exec_cleanShed (shed : Nat) (s : State) (ha : (Instr.cleanShed shed).absent = none) (ho : s.coreRuns = true) :
    exec (.cleanShed shed) s = .next (s.after (s.updShed shed (fun h => h.startMaint 3))) :=
  command_runs (.cleanShed shed) State.coreRuns (fun s => s.updShed shed (fun h => h.startMaint 3)) s ha ho

theorem exec_immutDrop (shed : Nat) (s : State) (ha : (Instr.immutDrop shed).absent = none) (ho : s.coreRuns = true) :
    exec (.immutDrop shed) s = .next (s.after (s.updShed shed (fun h => h.startMaint 4))) :=
  command_runs (.immutDrop shed) State.coreRuns (fun s => s.updShed shed (fun h => h.startMaint 4)) s ha ho

theorem exec_wayLock (shed : Nat) (value : Word64) (s : State) (ha : (Instr.wayLock shed value).absent = none) (ho : s.coreRuns = true) :
    exec (.wayLock shed value) s = .next (s.after (s.updShed shed (fun h => h.writeLock value))) :=
  command_runs (.wayLock shed value) State.coreRuns (fun s => s.updShed shed (fun h => h.writeLock value)) s ha ho

theorem exec_wayPwr (shed : Nat) (value : Word64) (s : State) (ha : (Instr.wayPwr shed value).absent = none) (ho : s.coreRuns = true) :
    exec (.wayPwr shed value) s = .next (s.after (s.updShed shed (fun h => h.writePwr value))) :=
  command_runs (.wayPwr shed value) State.coreRuns (fun s => s.updShed shed (fun h => h.writePwr value)) s ha ho

theorem exec_wayCleanDone (shed way : Nat) (s : State) (ha : (Instr.wayCleanDone shed way).absent = none) (ho : s.coreRuns = true) :
    exec (.wayCleanDone shed way) s = .next (s.after (doWayCleanDone shed way s)) :=
  command_runs (.wayCleanDone shed way) State.coreRuns (doWayCleanDone shed way) s ha ho

theorem exec_xcommit (berth : Nat) (s : State) (ha : (Instr.xcommit berth).absent = none) (ho : s.coreRuns = true) :
    exec (.xcommit berth) s = .next (s.after (doXcommit berth s)) :=
  command_runs (.xcommit berth) State.coreRuns (doXcommit berth) s ha ho

theorem exec_tlbiAll (berth : Nat) (s : State) (ha : (Instr.tlbiAll berth).absent = none) (ho : s.coreRuns = true) :
    exec (.tlbiAll berth) s = .next (s.after (doTlbiAll berth s)) :=
  command_runs (.tlbiAll berth) State.coreRuns (doTlbiAll berth) s ha ho

theorem exec_tlbiAddr (berth : Nat) (s : State) (ha : (Instr.tlbiAddr berth).absent = none) (ho : s.coreRuns = true) :
    exec (.tlbiAddr berth) s = .next (s.after (doTlbiAddr berth s)) :=
  command_runs (.tlbiAddr berth) State.coreRuns (doTlbiAddr berth) s ha ho

theorem exec_tlbiComplete (berth : Nat) (s : State) (ha : (Instr.tlbiComplete berth).absent = none) (ho : s.coreRuns = true) :
    exec (.tlbiComplete berth) s = .next (s.after (doTlbiComplete berth s)) :=
  command_runs (.tlbiComplete berth) State.coreRuns (doTlbiComplete berth) s ha ho

theorem exec_minorCycle (berth : Nat) (s : State) (ha : (Instr.minorCycle berth).absent = none) (ho : s.coreRuns = true) :
    exec (.minorCycle berth) s = .next (s.after (doMinorCycle berth s)) :=
  command_runs (.minorCycle berth) State.coreRuns (doMinorCycle berth) s ha ho

theorem exec_majorCycle (berth : Nat) (s : State) (ha : (Instr.majorCycle berth).absent = none) (ho : s.coreRuns = true) :
    exec (.majorCycle berth) s = .next (s.after (doMajorCycle berth s)) :=
  command_runs (.majorCycle berth) State.coreRuns (doMajorCycle berth) s ha ho

theorem exec_sweep (berth : Nat) (s : State) (ha : (Instr.sweep berth).absent = none) (ho : s.coreRuns = true) :
    exec (.sweep berth) s = .next (s.after (doSweep berth s)) :=
  command_runs (.sweep berth) State.coreRuns (doSweep berth) s ha ho

theorem exec_clearStatistics (berth : Nat) (s : State) (ha : (Instr.clearStatistics berth).absent = none) (ho : s.coreRuns = true) :
    exec (.clearStatistics berth) s = .next (s.after (doClearStatistics berth s)) :=
  command_runs (.clearStatistics berth) State.coreRuns (doClearStatistics berth) s ha ho

theorem exec_markEnd (berth : Nat) (minor : Bool) (s : State) (ha : (Instr.markEnd berth minor).absent = none) (ho : s.coreRuns = true) :
    exec (.markEnd berth minor) s = .next (s.after (doMarkEnd berth minor s)) :=
  command_runs (.markEnd berth minor) State.coreRuns (doMarkEnd berth minor) s ha ho

theorem exec_evacEnd (berth : Nat) (minor : Bool) (s : State) (ha : (Instr.evacEnd berth minor).absent = none) (ho : s.coreRuns = true) :
    exec (.evacEnd berth minor) s = .next (s.after (doEvacEnd berth minor s)) :=
  command_runs (.evacEnd berth minor) State.coreRuns (doEvacEnd berth minor) s ha ho

theorem exec_updateEnd (berth : Nat) (minor : Bool) (s : State) (ha : (Instr.updateEnd berth minor).absent = none) (ho : s.coreRuns = true) :
    exec (.updateEnd berth minor) s = .next (s.after (doUpdateEnd berth minor s)) :=
  command_runs (.updateEnd berth minor) State.coreRuns (doUpdateEnd berth minor) s ha ho

theorem exec_sweepEnd (berth : Nat) (s : State) (ha : (Instr.sweepEnd berth).absent = none) (ho : s.coreRuns = true) :
    exec (.sweepEnd berth) s = .next (s.after (doSweepEnd berth s)) :=
  command_runs (.sweepEnd berth) State.coreRuns (doSweepEnd berth) s ha ho

theorem exec_objClaim (berth n : Nat) (s : State) (ha : (Instr.objClaim berth n).absent = none) (ho : s.coreRuns = true) :
    exec (.objClaim berth n) s = .next (s.after (doObjClaim berth n s)) :=
  command_runs (.objClaim berth n) State.coreRuns (doObjClaim berth n) s ha ho

theorem exec_berthStart (berth : Nat) (s : State) (ha : (Instr.berthStart berth).absent = none) (ho : s.coreRuns = true) :
    exec (.berthStart berth) s = .next (s.after (doBerthStart berth s)) :=
  command_runs (.berthStart berth) State.coreRuns (doBerthStart berth) s ha ho

theorem exec_resetDrain (berth : Nat) (s : State) (ha : (Instr.resetDrain berth).absent = none) (ho : s.coreRuns = true) :
    exec (.resetDrain berth) s = .next (s.after (doResetDrain berth s)) :=
  command_runs (.resetDrain berth) State.coreRuns (doResetDrain berth) s ha ho

theorem exec_resetSquash (berth : Nat) (s : State) (ha : (Instr.resetSquash berth).absent = none) (ho : s.coreRuns = true) :
    exec (.resetSquash berth) s = .next (s.after (doResetSquash berth s)) :=
  command_runs (.resetSquash berth) State.coreRuns (doResetSquash berth) s ha ho

theorem exec_removeDrain (berth : Nat) (s : State) (ha : (Instr.removeDrain berth).absent = none) (ho : s.coreRuns = true) :
    exec (.removeDrain berth) s = .next (s.after (doRemoveDrain berth s)) :=
  command_runs (.removeDrain berth) State.coreRuns (doRemoveDrain berth) s ha ho

theorem exec_removeSquash (berth : Nat) (s : State) (ha : (Instr.removeSquash berth).absent = none) (ho : s.coreRuns = true) :
    exec (.removeSquash berth) s = .next (s.after (doRemoveSquash berth s)) :=
  command_runs (.removeSquash berth) State.coreRuns (doRemoveSquash berth) s ha ho

theorem exec_drainLimit (berth : Nat) (s : State) (ha : (Instr.drainLimit berth).absent = none) (ho : s.coreRuns = true) :
    exec (.drainLimit berth) s = .next (s.after (doDrainLimit berth s)) :=
  command_runs (.drainLimit berth) State.coreRuns (doDrainLimit berth) s ha ho

theorem exec_berthCommit (path : Path) (berth : Nat) (s : State) (ha : (Instr.berthCommit path berth).absent = none) (ho : s.helmRuns = true) :
    exec (.berthCommit path berth) s = .next (s.after ((s.dictWrite path (berthIdx berth) 0xFF (.num 1)).1)) :=
  command_runs (.berthCommit path berth) State.helmRuns (fun s => (s.dictWrite path (berthIdx berth) 0xFF (.num 1)).1) s ha ho

theorem exec_quiescentPoint (index : Nat) (s : State) (ho : s.helmRuns = true) :
    exec (.quiescentPoint index) s = .next (s.after (doQuiescentPoint index s)) :=
  command_runs (.quiescentPoint index) State.helmRuns (doQuiescentPoint index) s rfl ho

theorem exec_quiesceLimit (index : Nat) (s : State) (ho : s.helmRuns = true) :
    exec (.quiesceLimit index) s = .next (s.after (doQuiesceLimit index s)) :=
  command_runs (.quiesceLimit index) State.helmRuns (doQuiesceLimit index) s rfl ho

theorem exec_discard (path : Path) (index : Nat) (s : State) (ha : (Instr.discard path index).absent = none) (ho : s.helmRuns = true) :
    exec (.discard path index) s = .next (s.after ((s.dictWrite path 0xF000 0x06 (.num index)).1)) :=
  command_runs (.discard path index) State.helmRuns (fun s => (s.dictWrite path 0xF000 0x06 (.num index)).1) s ha ho

theorem exec_entryWrite (path : Path) (index sub : Nat) (value : EVal) (s : State) (ha : (Instr.entryWrite path index sub value).absent = none) (ho : s.helmRuns = true) :
    exec (.entryWrite path index sub value) s = .next (s.after ((s.dictWrite path index sub value).1)) :=
  command_runs (.entryWrite path index sub value) State.helmRuns (fun s => (s.dictWrite path index sub value).1) s ha ho

theorem exec_train (port : Nat) (s : State) (ha : (Instr.train port).absent = none) (ho : s.coreRuns = true) :
    exec (.train port) s = .next (s.after (doTrain port s)) :=
  command_runs (.train port) State.coreRuns (doTrain port) s ha ho

theorem exec_portInit (port : Nat) (s : State) (ha : (Instr.portInit port).absent = none) (ho : s.coreRuns = true) :
    exec (.portInit port) s = .next (s.after (doInit port s)) :=
  command_runs (.portInit port) State.coreRuns (doInit port) s ha ho

theorem exec_codedUnitInit (port : Nat) (s : State) (ha : (Instr.codedUnitInit port).absent = none) (ho : s.coreRuns = true) :
    exec (.codedUnitInit port) s = .next (s.after (doCodedUnitInit port s)) :=
  command_runs (.codedUnitInit port) State.coreRuns (doCodedUnitInit port) s ha ho

theorem exec_portOff (port : Nat) (s : State) (ha : (Instr.portOff port).absent = none) (ho : s.coreRuns = true) :
    exec (.portOff port) s = .next (s.after (doOff port s)) :=
  command_runs (.portOff port) State.coreRuns (doOff port) s ha ho

theorem exec_resync (port : Nat) (s : State) (ha : (Instr.resync port).absent = none) (ho : s.coreRuns = true) :
    exec (.resync port) s = .next (s.after (doResync port s)) :=
  command_runs (.resync port) State.coreRuns (doResync port) s ha ho

theorem exec_flush (port : Nat) (s : State) (ha : (Instr.flush port).absent = none) (ho : s.coreRuns = true) :
    exec (.flush port) s = .next (s.after (doFlush port s)) :=
  command_runs (.flush port) State.coreRuns (doFlush port) s ha ho

theorem exec_mapCommit (path : Path) (s : State) (ha : (Instr.mapCommit path).absent = none) (ho : s.helmRuns = true) :
    exec (.mapCommit path) s = .next (s.after ((s.dictWrite path 0x4000 0xFF (.num 1)).1)) :=
  command_runs (.mapCommit path) State.helmRuns (fun s => (s.dictWrite path 0x4000 0xFF (.num 1)).1) s ha ho

theorem exec_portFailure (port : Nat) (s : State) (ha : (Instr.portFailure port).absent = none) (ho : s.coreRuns = true) :
    exec (.portFailure port) s = .next (s.after (doPortFailure port s)) :=
  command_runs (.portFailure port) State.coreRuns (doPortFailure port) s ha ho

theorem exec_portTimeout (port : Nat) (s : State) (ha : (Instr.portTimeout port).absent = none) (ho : s.coreRuns = true) :
    exec (.portTimeout port) s = .next (s.after (doPortTimeout port s)) :=
  command_runs (.portTimeout port) State.coreRuns (doPortTimeout port) s ha ho

theorem exec_dataCodeword (link : Nat) (fec : FecResult) (header : BitVec 20) (flits : List (List Byte)) (s : State) (ha : (Instr.dataCodeword link fec header flits).absent = none) (ho : s.coreRuns = true) :
    exec (.dataCodeword link fec header flits) s = .next (s.after (doDataCodeword link fec header flits s)) :=
  command_runs (.dataCodeword link fec header flits) State.coreRuns (doDataCodeword link fec header flits) s ha ho

theorem exec_alignmentCodeword (link : Nat) (good : BitVec 4) (s : State) (ha : (Instr.alignmentCodeword link good).absent = none) (ho : s.coreRuns = true) :
    exec (.alignmentCodeword link good) s = .next (s.after (doAlignmentCodeword link good s)) :=
  command_runs (.alignmentCodeword link good) State.coreRuns (doAlignmentCodeword link good) s ha ho

theorem exec_retryTimeout (link : Nat) (s : State) (ha : (Instr.retryTimeout link).absent = none) (ho : s.coreRuns = true) :
    exec (.retryTimeout link) s = .next (s.after (doRetryTimeout link s)) :=
  command_runs (.retryTimeout link) State.coreRuns (doRetryTimeout link) s ha ho

theorem exec_laneFailure (link lane : Nat) (s : State) (ha : (Instr.laneFailure link lane).absent = none) (ho : s.coreRuns = true) :
    exec (.laneFailure link lane) s = .next (s.after (doLaneFailure link lane s)) :=
  command_runs (.laneFailure link lane) State.coreRuns (doLaneFailure link lane) s ha ho

theorem exec_lkRetryMs (link : Nat) (s : State) (ha : (Instr.lkRetryMs link).absent = none) (ho : s.coreRuns = true) :
    exec (.lkRetryMs link) s = .next (s.after (doLkRetryMs link s)) :=
  command_runs (.lkRetryMs link) State.coreRuns (doLkRetryMs link) s ha ho

theorem exec_linkUp (link : Nat) (s : State) (ha : (Instr.linkUp link).absent = none) (ho : s.coreRuns = true) :
    exec (.linkUp link) s = .next (s.after (doLinkUp link s)) :=
  command_runs (.linkUp link) State.coreRuns (doLinkUp link) s ha ho

theorem exec_lkEnable (path : Path) (link : Nat) (enable : Bool) (s : State) (ha : (Instr.lkEnable path link enable).absent = none) (ho : s.helmRuns = true) :
    exec (.lkEnable path link enable) s = .next (s.after ((s.dictWrite path (lkIdx link) 0x01 (.num (b2n enable))).1)) :=
  command_runs (.lkEnable path link enable) State.helmRuns (fun s => (s.dictWrite path (lkIdx link) 0x01 (.num (b2n enable))).1) s ha ho

theorem exec_retrain (link : Nat) (s : State) (ha : (Instr.retrain link).absent = none) (ho : s.coreRuns = true) :
    exec (.retrain link) s = .next (s.after (doRetrain link s)) :=
  command_runs (.retrain link) State.coreRuns (doRetrain link) s ha ho

theorem exec_takeDown (link : Nat) (s : State) (ha : (Instr.takeDown link).absent = none) (ho : s.coreRuns = true) :
    exec (.takeDown link) s = .next (s.after (doTakeDown link s)) :=
  command_runs (.takeDown link) State.coreRuns (doTakeDown link) s ha ho

theorem exec_retrainFullWidth (link : Nat) (s : State) (ha : (Instr.retrainFullWidth link).absent = none) (ho : s.coreRuns = true) :
    exec (.retrainFullWidth link) s = .next (s.after (doRetrainFull link s)) :=
  command_runs (.retrainFullWidth link) State.coreRuns (doRetrainFull link) s ha ho

theorem exec_hello (link : Nat) (msg : List Byte) (s : State) (ha : (Instr.hello link msg).absent = none) (ho : s.coreRuns = true) :
    exec (.hello link msg) s = .next (s.after (doHello link msg s)) :=
  command_runs (.hello link msg) State.coreRuns (doHello link msg) s ha ho

theorem exec_lsa (link : Nat) (msg : List Byte) (s : State) (ha : (Instr.lsa link msg).absent = none) (ho : s.coreRuns = true) :
    exec (.lsa link msg) s = .next (s.after (doLsa link msg s)) :=
  command_runs (.lsa link msg) State.coreRuns (doLsa link msg) s ha ho

theorem exec_lsaRefresh (s : State) (ho : s.coreRuns = true) :
    exec .lsaRefresh s = .next (s.after (doLsaRefresh s)) :=
  command_runs .lsaRefresh State.coreRuns doLsaRefresh s rfl ho

theorem exec_soundQuiet (s : State) (ho : s.coreRuns = true) :
    exec .soundQuiet s = .next (s.after (doSoundQuiet s)) :=
  command_runs .soundQuiet State.coreRuns doSoundQuiet s rfl ho

theorem exec_assign (link : Nat) (msg : List Byte) (s : State) (ha : (Instr.assign link msg).absent = none) (ho : s.coreRuns = true) :
    exec (.assign link msg) s = .next (s.after (doAssign link msg s)) :=
  command_runs (.assign link msg) State.coreRuns (doAssign link msg) s ha ho

theorem exec_nodedown (link : Nat) (msg : List Byte) (s : State) (ha : (Instr.nodedown link msg).absent = none) (ho : s.coreRuns = true) :
    exec (.nodedown link msg) s = .next (s.after (doNodedown link msg s)) :=
  command_runs (.nodedown link msg) State.coreRuns (doNodedown link msg) s ha ho

theorem exec_startSounding (s : State) (ho : s.coreRuns = true) :
    exec .startSounding s = .next (s.after (doStartSounding s)) :=
  command_runs .startSounding State.coreRuns doStartSounding s rfl ho

theorem exec_rebuildCharts (s : State) (ho : s.coreRuns = true) :
    exec .rebuildCharts s = .next (s.after (doRebuildCharts s)) :=
  command_runs .rebuildCharts State.coreRuns doRebuildCharts s rfl ho

theorem exec_stopSounding (s : State) (ho : s.coreRuns = true) :
    exec .stopSounding s = .next (s.after (doStopSounding s)) :=
  command_runs .stopSounding State.coreRuns doStopSounding s rfl ho

theorem exec_chartCommit (path : Path) (s : State) (ha : (Instr.chartCommit path).absent = none) (ho : s.helmRuns = true) :
    exec (.chartCommit path) s = .next (s.after ((s.dictWrite path 0x5100 0xFF (.num 1)).1)) :=
  command_runs (.chartCommit path) State.helmRuns (fun s => (s.dictWrite path 0x5100 0xFF (.num 1)).1) s ha ho

theorem exec_packetRoute (index : Nat) (s : State) (ho : s.coreRuns = true) :
    exec (.packetRoute index) s = .next (s.after (doPacketRoute index s)) :=
  command_runs (.packetRoute index) State.coreRuns (doPacketRoute index) s rfl ho

theorem exec_routeHold (index : Nat) (s : State) (ho : s.coreRuns = true) :
    exec (.routeHold index) s = .next (s.after (doRouteHold index s)) :=
  command_runs (.routeHold index) State.coreRuns (doRouteHold index) s rfl ho

theorem exec_requestInjection (s : State) (ho : s.coreRuns = true) :
    exec .requestInjection s = .next (s.after (doRequestInjection s)) :=
  command_runs .requestInjection State.coreRuns doRequestInjection s rfl ho

theorem exec_load (s : State) (ho : s.coreRuns = true) :
    exec .load s = .next (s.after (homeWith fabricAccess ptLOAD s)) :=
  command_runs .load State.coreRuns (homeWith fabricAccess ptLOAD) s rfl ho

theorem exec_store (s : State) (ho : s.coreRuns = true) :
    exec .store s = .next (s.after (homeWith fabricAccess ptSTORE s)) :=
  command_runs .store State.coreRuns (homeWith fabricAccess ptSTORE) s rfl ho

theorem exec_remoteCas (s : State) (ho : s.coreRuns = true) :
    exec .remoteCas s = .next (s.after (homeWith fabricAccess ptCAS s)) :=
  command_runs .remoteCas State.coreRuns (homeWith fabricAccess ptCAS) s rfl ho

theorem exec_remoteFadd (s : State) (ho : s.coreRuns = true) :
    exec .remoteFadd s = .next (s.after (homeWith fabricAccess ptFADD s)) :=
  command_runs .remoteFadd State.coreRuns (homeWith fabricAccess ptFADD) s rfl ho

theorem exec_remoteFill (s : State) (ho : s.coreRuns = true) :
    exec .remoteFill s = .next (s.after (homeWith fabricAccess ptFILL s)) :=
  command_runs .remoteFill State.coreRuns (homeWith fabricAccess ptFILL) s rfl ho

theorem exec_remoteInvoke (s : State) (ho : s.coreRuns = true) :
    exec .remoteInvoke s = .next (s.after (homeWith fabricAccess ptINVOKE s)) :=
  command_runs .remoteInvoke State.coreRuns (homeWith fabricAccess ptINVOKE) s rfl ho

theorem exec_list (s : State) (ho : s.coreRuns = true) :
    exec .list s = .next (s.after (doList s)) :=
  command_runs .list State.coreRuns doList s rfl ho

theorem exec_drop (s : State) (ho : s.coreRuns = true) :
    exec .drop s = .next (s.after (doDrop s)) :=
  command_runs .drop State.coreRuns doDrop s rfl ho

theorem exec_data (s : State) (ho : s.coreRuns = true) :
    exec .data s = .next (s.after (doData s)) :=
  command_runs .data State.coreRuns doData s rfl ho

theorem exec_ack (s : State) (ho : s.coreRuns = true) :
    exec .ack s = .next (s.after (doAck s)) :=
  command_runs .ack State.coreRuns doAck s rfl ho

theorem exec_line (s : State) (ho : s.coreRuns = true) :
    exec .line s = .next (s.after (doLine s)) :=
  command_runs .line State.coreRuns doLine s rfl ho

theorem exec_refuse (s : State) (ho : s.coreRuns = true) :
    exec .refuse s = .next (s.after (doRefuse s)) :=
  command_runs .refuse State.coreRuns doRefuse s rfl ho

theorem exec_retry (s : State) (ho : s.coreRuns = true) :
    exec .retry s = .next (s.after (doRetry s)) :=
  command_runs .retry State.coreRuns doRetry s rfl ho

theorem exec_waiting (s : State) (ho : s.coreRuns = true) :
    exec .waiting s = .next (s.after (doWaiting s)) :=
  command_runs .waiting State.coreRuns doWaiting s rfl ho

theorem exec_xack (s : State) (ho : s.coreRuns = true) :
    exec .xack s = .next (s.after (doXack s)) :=
  command_runs .xack State.coreRuns doXack s rfl ho

theorem exec_remoteTimeout (slot : Nat) (s : State) (ha : (Instr.remoteTimeout slot).absent = none) (ho : s.coreRuns = true) :
    exec (.remoteTimeout slot) s = .next (s.after (doRemoteTimeout slot s)) :=
  command_runs (.remoteTimeout slot) State.coreRuns (doRemoteTimeout slot) s ha ho

theorem exec_resentEntryExpiry (index : Nat) (s : State) (ho : s.coreRuns = true) :
    exec (.resentEntryExpiry index) s = .next (s.after (doResentEntryExpiry index s)) :=
  command_runs (.resentEntryExpiry index) State.coreRuns (doResentEntryExpiry index) s rfl ho

theorem exec_tsyncInterval (s : State) (ho : s.coreRuns = true) :
    exec .tsyncInterval s = .next (s.after (doTsyncInterval s)) :=
  command_runs .tsyncInterval State.coreRuns doTsyncInterval s rfl ho

theorem exec_tsyncReq (link : Nat) (t1 t2 t3 : Nat) (s : State) (ha : (Instr.tsyncReq link t1 t2 t3).absent = none) (ho : s.coreRuns = true) :
    exec (.tsyncReq link t1 t2 t3) s = .next (s.after (doTsyncReq link t1 t2 t3 s)) :=
  command_runs (.tsyncReq link t1 t2 t3) State.coreRuns (doTsyncReq link t1 t2 t3) s ha ho

theorem exec_tsyncRsp (t1 t2 t3 t4 : Nat) (s : State) (ho : s.coreRuns = true) :
    exec (.tsyncRsp t1 t2 t3 t4) s = .next (s.after (doTsyncRsp t1 t2 t3 t4 s)) :=
  command_runs (.tsyncRsp t1 t2 t3 t4) State.coreRuns (doTsyncRsp t1 t2 t3 t4) s rfl ho

theorem exec_stallWindowAccess (stall offset : Nat) (op : WinOp) (s : State) (ha : (Instr.stallWindowAccess stall offset op).absent = none) (ho : s.coreRuns = true) :
    exec (.stallWindowAccess stall offset op) s = .next (s.after (doStallWindowAccess stall offset op s)) :=
  command_runs (.stallWindowAccess stall offset op) State.coreRuns (doStallWindowAccess stall offset op) s ha ho

theorem exec_halt (stall : Nat) (s : State) (ha : (Instr.halt stall).absent = none) (ho : s.coreRuns = true) :
    exec (.halt stall) s = .next (s.after (doHalt stall s)) :=
  command_runs (.halt stall) State.coreRuns (doHalt stall) s ha ho

theorem exec_stallctlStart (core : Nat) (s : State) (ha : (Instr.stallctlStart core).absent = none) (ho : s.coreRuns = true) :
    exec (.stallctlStart core) s = .next (s.after (s.startInt core)) :=
  command_runs (.stallctlStart core) State.coreRuns (fun s => s.startInt core) s ha ho

theorem exec_kill (stall : Nat) (s : State) (ha : (Instr.kill stall).absent = none) (ho : s.coreRuns = true) :
    exec (.kill stall) s = .next (s.after (doKill stall s)) :=
  command_runs (.kill stall) State.coreRuns (doKill stall) s ha ho

theorem exec_helmOpen (node seqn : Nat) (s : State) (ha : (Instr.helmOpen node seqn).absent = none) (ho : s.helmRuns = true) :
    exec (.helmOpen node seqn) s = .next (s.after (doHelmOpen node seqn s)) :=
  command_runs (.helmOpen node seqn) State.helmRuns (doHelmOpen node seqn) s ha ho

theorem exec_helmClose (node seqn : Nat) (s : State) (ha : (Instr.helmClose node seqn).absent = none) (ho : s.helmRuns = true) :
    exec (.helmClose node seqn) s = .next (s.after (doHelmClose node seqn s)) :=
  command_runs (.helmClose node seqn) State.helmRuns (doHelmClose node seqn) s ha ho

theorem exec_helmRead (node seqn index sub : Nat) (s : State) (ha : (Instr.helmRead node seqn index sub).absent = none) (ho : s.helmRuns = true) :
    exec (.helmRead node seqn index sub) s = .next (s.after (doHelmRead node seqn index sub s)) :=
  command_runs (.helmRead node seqn index sub) State.helmRuns (doHelmRead node seqn index sub) s ha ho

theorem exec_helmWrite (node seqn index sub : Nat) (value : EVal) (s : State) (ha : (Instr.helmWrite node seqn index sub value).absent = none) (ho : s.helmRuns = true) :
    exec (.helmWrite node seqn index sub value) s = .next (s.after (doHelmWrite node seqn index sub value s)) :=
  command_runs (.helmWrite node seqn index sub value) State.helmRuns (doHelmWrite node seqn index sub value) s ha ho

theorem exec_ctrlRd (node seqn offset : Nat) (s : State) (ha : (Instr.ctrlRd node seqn offset).absent = none) (ho : s.helmRuns = true) :
    exec (.ctrlRd node seqn offset) s = .next (s.after (doCtrlRd node seqn offset s)) :=
  command_runs (.ctrlRd node seqn offset) State.helmRuns (doCtrlRd node seqn offset) s ha ho

theorem exec_ctrlWr (node seqn offset : Nat) (value : Word64) (s : State) (ha : (Instr.ctrlWr node seqn offset value).absent = none) (ho : s.helmRuns = true) :
    exec (.ctrlWr node seqn offset value) s = .next (s.after (doCtrlWr node seqn offset value s)) :=
  command_runs (.ctrlWr node seqn offset value) State.helmRuns (doCtrlWr node seqn offset value) s ha ho

theorem exec_dpWrite (node seqn : Nat) (s : State) (ha : (Instr.dpWrite node seqn).absent = none) (ho : s.helmRuns = true) :
    exec (.dpWrite node seqn) s = .next (s.after (doDpWrite node seqn s)) :=
  command_runs (.dpWrite node seqn) State.helmRuns (doDpWrite node seqn) s ha ho

theorem exec_dpRead (node seqn : Nat) (s : State) (ha : (Instr.dpRead node seqn).absent = none) (ho : s.helmRuns = true) :
    exec (.dpRead node seqn) s = .next (s.after (doDpRead node seqn s)) :=
  command_runs (.dpRead node seqn) State.helmRuns (doDpRead node seqn) s ha ho

theorem exec_dpAck (node seqn next : Nat) (s : State) (ha : (Instr.dpAck node seqn next).absent = none) (ho : s.helmRuns = true) :
    exec (.dpAck node seqn next) s = .next (s.after (doDpAck node seqn next s)) :=
  command_runs (.dpAck node seqn next) State.helmRuns (doDpAck node seqn next) s ha ho

theorem exec_seg (node segno : Nat) (bytes : List Byte) (s : State) (ha : (Instr.seg node segno bytes).absent = none) (ho : s.helmRuns = true) :
    exec (.seg node segno bytes) s = .next (s.after (doSeg node segno bytes s)) :=
  command_runs (.seg node segno bytes) State.helmRuns (doSeg node segno bytes) s ha ho

theorem exec_sessionTimeout (node : Nat) (s : State) (ha : (Instr.sessionTimeout node).absent = none) (ho : s.helmRuns = true) :
    exec (.sessionTimeout node) s = .next (s.after (doSessionTimeout node s)) :=
  command_runs (.sessionTimeout node) State.helmRuns (doSessionTimeout node) s ha ho

theorem exec_helmAckTimeout (node : Nat) (s : State) (ha : (Instr.helmAckTimeout node).absent = none) (ho : s.helmRuns = true) :
    exec (.helmAckTimeout node) s = .next (s.after (doHelmAckTimeout node s)) :=
  command_runs (.helmAckTimeout node) State.helmRuns (doHelmAckTimeout node) s ha ho

theorem exec_alive (s : State) (ho : s.helmRuns = true) :
    exec .alive s = .next (s.after (doAlive s)) :=
  command_runs .alive State.helmRuns doAlive s rfl ho

theorem exec_busOffRecovery (s : State) (ho : s.helmRuns = true) :
    exec .busOffRecovery s = .next (s.after (doBusOffRecovery s)) :=
  command_runs .busOffRecovery State.helmRuns doBusOffRecovery s rfl ho

theorem exec_dpAddr (inst : DpInst) (value : Word64) (s : State) (ha : (Instr.dpAddr inst value).absent = none) (ho : s.helmRuns = true) :
    exec (.dpAddr inst value) s = .next (s.after (if s.instWorks inst then (s.dpSetEntry inst 0x01 value.toNat).1 else s)) :=
  command_runs (.dpAddr inst value) State.helmRuns (fun s => if s.instWorks inst then (s.dpSetEntry inst 0x01 value.toNat).1 else s) s ha ho

theorem exec_dpLen (inst : DpInst) (value : Nat) (s : State) (ha : (Instr.dpLen inst value).absent = none) (ho : s.helmRuns = true) :
    exec (.dpLen inst value) s = .next (s.after (if s.instWorks inst then (s.dpSetEntry inst 0x02 value).1 else s)) :=
  command_runs (.dpLen inst value) State.helmRuns (fun s => if s.instWorks inst then (s.dpSetEntry inst 0x02 value).1 else s) s ha ho

theorem exec_dpData (inst : DpInst) (wr : Bool) (bytes : List Byte) (count : Nat) (s : State) (ha : (Instr.dpData inst wr bytes count).absent = none) (ho : s.helmRuns = true) :
    exec (.dpData inst wr bytes count) s = .next (s.after (if s.instWorks inst then (if wr then s.dpPut inst (instPath inst) bytes else (s.dpLoad inst count).1) else s)) :=
  command_runs (.dpData inst wr bytes count) State.helmRuns (fun s => if s.instWorks inst then (if wr then s.dpPut inst (instPath inst) bytes else (s.dpLoad inst count).1) else s) s ha ho

theorem exec_verifyAndLoad (path : Path) (s : State) (ha : (Instr.verifyAndLoad path).absent = none) (ho : s.helmRuns = true) :
    exec (.verifyAndLoad path) s = .next (s.after ((s.dictWrite path 0x8000 0x06 (.num 1)).1)) :=
  command_runs (.verifyAndLoad path) State.helmRuns (fun s => (s.dictWrite path 0x8000 0x06 (.num 1)).1) s ha ho

theorem exec_verifyOnly (path : Path) (s : State) (ha : (Instr.verifyOnly path).absent = none) (ho : s.helmRuns = true) :
    exec (.verifyOnly path) s = .next (s.after ((s.dictWrite path 0x8000 0x06 (.num 2)).1)) :=
  command_runs (.verifyOnly path) State.helmRuns (fun s => (s.dictWrite path 0x8000 0x06 (.num 2)).1) s ha ho

theorem exec_winBase (path : Path) (slot value : Nat) (s : State) (ha : (Instr.winBase path slot value).absent = none) (ho : s.helmRuns = true) :
    exec (.winBase path slot value) s = .next (s.after ((s.dictWrite path (0x7000 + slot) 0x03 (.num value)).1)) :=
  command_runs (.winBase path slot value) State.helmRuns (fun s => (s.dictWrite path (0x7000 + slot) 0x03 (.num value)).1) s ha ho

theorem exec_lock (path : Path) (slot : Nat) (value : Nat) (s : State) (ha : (Instr.lock path slot value).absent = none) (ho : s.helmRuns = true) :
    exec (.lock path slot value) s = .next (s.after ((s.dictWrite path (0x7000 + slot) 0x06 (.num value)).1)) :=
  command_runs (.lock path slot value) State.helmRuns (fun s => (s.dictWrite path (0x7000 + slot) 0x06 (.num value)).1) s ha ho

theorem exec_violClear (path : Path) (slot : Nat) (value : Nat) (s : State) (ha : (Instr.violClear path slot value).absent = none) (ho : s.helmRuns = true) :
    exec (.violClear path slot value) s = .next (s.after ((s.dictWrite path (0x7000 + slot) 0x13 (.num value)).1)) :=
  command_runs (.violClear path slot value) State.helmRuns (fun s => (s.dictWrite path (0x7000 + slot) 0x13 (.num value)).1) s ha ho

theorem exec_gateFence (path : Path) (s : State) (ha : (Instr.gateFence path).absent = none) (ho : s.helmRuns = true) :
    exec (.gateFence path) s = .next (s.after ((s.dictWrite path 0x7000 0xF0 (.num 1)).1)) :=
  command_runs (.gateFence path) State.helmRuns (fun s => (s.dictWrite path 0x7000 0xF0 (.num 1)).1) s ha ho

theorem exec_gateFenceComplete (s : State) (ho : s.helmRuns = true) :
    exec .gateFenceComplete s = .next (s.after (doGateFenceComplete s)) :=
  command_runs .gateFenceComplete State.helmRuns doGateFenceComplete s rfl ho

theorem exec_hostDoorbell (value : Word64) (s : State) (ho : s.helmRuns = true) :
    exec (.hostDoorbell value) s = .next (s.after (doHostDoorbell value s)) :=
  command_runs (.hostDoorbell value) State.helmRuns (doHostDoorbell value) s rfl ho

theorem exec_hostLinkDown (s : State) (ho : s.helmRuns = true) :
    exec .hostLinkDown s = .next (s.after (doHostLinkDown s)) :=
  command_runs .hostLinkDown State.helmRuns doHostLinkDown s rfl ho

theorem exec_hostLinkUp (s : State) (ho : s.helmRuns = true) :
    exec .hostLinkUp s = .next (s.after (doHostLinkUp s)) :=
  command_runs .hostLinkUp State.helmRuns doHostLinkUp s rfl ho

theorem exec_functionLevelReset (vf : Nat) (s : State) (ha : (Instr.functionLevelReset vf).absent = none) (ho : s.helmRuns = true) :
    exec (.functionLevelReset vf) s = .next (s.after (doFunctionLevelReset vf s)) :=
  command_runs (.functionLevelReset vf) State.helmRuns (doFunctionLevelReset vf) s ha ho

theorem exec_pePerstN (level : Bool) (s : State) :
    exec (.pePerstN level) s = .next (s.after (doPePerstN level s)) :=
  command_runs (.pePerstN level) (fun _ => true) (doPePerstN level) s rfl rfl

theorem exec_watchReport (hw : Option Report) (s : State) (ho : s.helmRuns = true) :
    exec (.watchReport hw) s = .next (s.after (doWatchReport hw s)) :=
  command_runs (.watchReport hw) State.helmRuns (doWatchReport hw) s rfl ho

theorem exec_watchDisagreement (s : State) (ho : s.helmRuns = true) :
    exec .watchDisagreement s = .next (s.after (doWatchDisagreement s)) :=
  command_runs .watchDisagreement State.helmRuns doWatchDisagreement s rfl ho

theorem exec_moorCmd (path : Path) (value : Nat) (s : State) (ha : (Instr.moorCmd path value).absent = none) (ho : s.helmRuns = true) :
    exec (.moorCmd path value) s = .next (s.after ((s.dictWrite path 0x6000 0x05 (.num value)).1)) :=
  command_runs (.moorCmd path value) State.helmRuns (fun s => (s.dictWrite path 0x6000 0x05 (.num value)).1) s ha ho

theorem exec_moorN (level : Bool) (widthNs : Nat) (s : State) :
    exec (.moorN level widthNs) s = .next (s.after (doMoorN level widthNs s)) :=
  command_runs (.moorN level widthNs) (fun _ => true) (doMoorN level widthNs) s rfl rfl

theorem exec_feClear (path : Path) (value : Nat) (s : State) (ha : (Instr.feClear path value).absent = none) (ho : s.helmRuns = true) :
    exec (.feClear path value) s = .next (s.after ((s.dictWrite path 0x6000 0x0B (.num value)).1)) :=
  command_runs (.feClear path value) State.helmRuns (fun s => (s.dictWrite path 0x6000 0x0B (.num value)).1) s ha ho

theorem exec_injectCorr (path : Path) (value : BitVec 32) (s : State) (ha : (Instr.injectCorr path value).absent = none) (ho : s.helmRuns = true) :
    exec (.injectCorr path value) s = .next (s.after ((s.dictWrite path 0x6000 0x0C (.num (injectValue 1 value))).1)) :=
  command_runs (.injectCorr path value) State.helmRuns (fun s => (s.dictWrite path 0x6000 0x0C (.num (injectValue 1 value))).1) s ha ho

theorem exec_injectUncorr (path : Path) (value : BitVec 32) (s : State) (ha : (Instr.injectUncorr path value).absent = none) (ho : s.helmRuns = true) :
    exec (.injectUncorr path value) s = .next (s.after ((s.dictWrite path 0x6000 0x0C (.num (injectValue 2 value))).1)) :=
  command_runs (.injectUncorr path value) State.helmRuns (fun s => (s.dictWrite path 0x6000 0x0C (.num (injectValue 2 value))).1) s ha ho

theorem exec_injectPoison (path : Path) (value : BitVec 32) (s : State) (ha : (Instr.injectPoison path value).absent = none) (ho : s.helmRuns = true) :
    exec (.injectPoison path value) s = .next (s.after ((s.dictWrite path 0x6000 0x0C (.num (injectValue 3 value))).1)) :=
  command_runs (.injectPoison path value) State.helmRuns (fun s => (s.dictWrite path 0x6000 0x0C (.num (injectValue 3 value))).1) s ha ho

theorem exec_injectUnit (path : Path) (value : BitVec 32) (s : State) (ha : (Instr.injectUnit path value).absent = none) (ho : s.helmRuns = true) :
    exec (.injectUnit path value) s = .next (s.after ((s.dictWrite path 0x6000 0x0C (.num (injectValue 4 value))).1)) :=
  command_runs (.injectUnit path value) State.helmRuns (fun s => (s.dictWrite path 0x6000 0x0C (.num (injectValue 4 value))).1) s ha ho

theorem exec_lanternToggle (s : State) (ho : s.helmRuns = true) :
    exec .lanternToggle s = .next (s.after (doLanternToggle s)) :=
  command_runs .lanternToggle State.helmRuns doLanternToggle s rfl ho

theorem exec_coreDivReq (path : Path) (value : Nat) (s : State) (ha : (Instr.coreDivReq path value).absent = none) (ho : s.helmRuns = true) :
    exec (.coreDivReq path value) s = .next (s.after ((s.dictWrite path 0x2000 0x02 (.num value)).1)) :=
  command_runs (.coreDivReq path value) State.helmRuns (fun s => (s.dictWrite path 0x2000 0x02 (.num value)).1) s ha ho

theorem exec_voutSettled (s : State) (ho : s.helmRuns = true) :
    exec .voutSettled s = .next (s.after (doVoutSettled s)) :=
  command_runs .voutSettled State.helmRuns doVoutSettled s rfl ho

theorem exec_voutTimeout (s : State) (ho : s.helmRuns = true) :
    exec .voutTimeout s = .next (s.after (doVoutTimeout s)) :=
  command_runs .voutTimeout State.helmRuns doVoutTimeout s rfl ho

theorem exec_throttle (shed : Nat) (tenths : Int) (s : State) (ha : (Instr.throttle shed tenths).absent = none) (ho : s.helmRuns = true) :
    exec (.throttle shed tenths) s = .next (s.after (doThrottle shed tenths s)) :=
  command_runs (.throttle shed tenths) State.helmRuns (doThrottle shed tenths) s ha ho

theorem exec_throttleExit (shed : Nat) (tenths : Int) (s : State) (ha : (Instr.throttleExit shed tenths).absent = none) (ho : s.helmRuns = true) :
    exec (.throttleExit shed tenths) s = .next (s.after (doThrottleExit shed tenths s)) :=
  command_runs (.throttleExit shed tenths) State.helmRuns (doThrottleExit shed tenths) s ha ho

theorem exec_thermalTrip (sensor : Nat) (tenths : Int) (s : State) (ha : (Instr.thermalTrip sensor tenths).absent = none) (ho : s.helmRuns = true) :
    exec (.thermalTrip sensor tenths) s = .next (s.after (doThermalTrip sensor tenths s)) :=
  command_runs (.thermalTrip sensor tenths) State.helmRuns (doThermalTrip sensor tenths) s ha ho

theorem exec_thermtripN (level : Bool) (widthNs : Nat) (s : State) :
    exec (.thermtripN level widthNs) s = .next (s.after (doThermtripN level widthNs s)) :=
  command_runs (.thermtripN level widthNs) (fun _ => true) (doThermtripN level widthNs) s rfl rfl

theorem exec_pmbusPoll (status : List (Nat × BitVec 16)) (s : State) (ho : s.helmRuns = true) :
    exec (.pmbusPoll status) s = .next (s.after (doPmbusPoll status s)) :=
  command_runs (.pmbusPoll status) State.helmRuns (doPmbusPoll status) s rfl ho

theorem exec_pmbAlertN (status : List (Nat × BitVec 16)) (s : State) (ho : s.helmRuns = true) :
    exec (.pmbAlertN status) s = .next (s.after (doPmbusPoll status s)) :=
  command_runs (.pmbAlertN status) State.helmRuns (doPmbusPoll status) s rfl ho

theorem exec_ageAlarm (shed : Nat) (margin : Int) (s : State) (ha : (Instr.ageAlarm shed margin).absent = none) (ho : s.helmRuns = true) :
    exec (.ageAlarm shed margin) s = .next (s.after (doAgeAlarm shed margin s)) :=
  command_runs (.ageAlarm shed margin) State.helmRuns (doAgeAlarm shed margin) s ha ho

theorem exec_powerOnReset (thermtripLow : Bool) (s : State) :
    exec (.powerOnReset thermtripLow) s = .next (s.after (doPowerOnReset thermtripLow s)) :=
  command_runs (.powerOnReset thermtripLow) (fun _ => true) (doPowerOnReset thermtripLow) s rfl rfl

theorem exec_pwrgoodFall (s : State) :
    exec .pwrgoodFall s = .next (s.after (doPwrgoodFall s)) :=
  command_runs .pwrgoodFall (fun _ => true) doPwrgoodFall s rfl rfl

theorem exec_resetN (level : Bool) (widthNs : Nat) (s : State) :
    exec (.resetN level widthNs) s = .next (s.after (doResetN level widthNs s)) :=
  command_runs (.resetN level widthNs) (fun _ => true) (doResetN level widthNs) s rfl rfl

theorem exec_resetCmd (path : Path) (value : Nat) (s : State) (ha : (Instr.resetCmd path value).absent = none) (ho : s.helmRuns = true) :
    exec (.resetCmd path value) s = .next (s.after ((s.dictWrite path 0x2200 0x01 (.num value)).1)) :=
  command_runs (.resetCmd path value) State.helmRuns (fun s => (s.dictWrite path 0x2200 0x01 (.num value)).1) s ha ho

theorem exec_resetExit (s : State) :
    exec .resetExit s = .next (s.after (doResetExit s)) :=
  command_runs .resetExit (fun _ => true) doResetExit s rfl rfl

theorem exec_boot (flash : FlashImages) (s : State) (ho : s.helmRuns = true) :
    exec (.boot flash) s = .next (s.after (doBoot flash s)) :=
  command_runs (.boot flash) State.helmRuns (doBoot flash) s rfl ho

theorem exec_yardGo (path : Path) (value : Nat) (s : State) (ha : (Instr.yardGo path value).absent = none) (ho : s.helmRuns = true) :
    exec (.yardGo path value) s = .next (s.after ((s.dictWrite path 0x2200 0x07 (.num value)).1)) :=
  command_runs (.yardGo path value) State.helmRuns (fun s => (s.dictWrite path 0x2200 0x07 (.num value)).1) s ha ho

theorem exec_tallyArm (path : Path) (value : Nat) (s : State) (ha : (Instr.tallyArm path value).absent = none) (ho : s.helmRuns = true) :
    exec (.tallyArm path value) s = .next (s.after ((s.dictWrite path 0x1100 0x10 (.num value)).1)) :=
  command_runs (.tallyArm path value) State.helmRuns (fun s => (s.dictWrite path 0x1100 0x10 (.num value)).1) s ha ho

theorem exec_tallyWrite (path : Path) (tally value : Nat) (s : State) (ha : (Instr.tallyWrite path tally value).absent = none) (ho : s.helmRuns = true) :
    exec (.tallyWrite path tally value) s = .next (s.after ((s.dictWrite path 0x1100 tally (.num value)).1)) :=
  command_runs (.tallyWrite path tally value) State.helmRuns (fun s => (s.dictWrite path 0x1100 tally (.num value)).1) s ha ho

theorem exec_bypass (s : State) :
    exec .bypass s = .next (s.after (doBypass s)) :=
  command_runs .bypass (fun _ => true) doBypass s rfl rfl

theorem exec_idcode (s : State) :
    exec .idcode s = .next (s.after (doIdcode s)) :=
  command_runs .idcode (fun _ => true) doIdcode s rfl rfl

theorem exec_samplePreload (shift : List Bool) (s : State) :
    exec (.samplePreload shift) s = .next (s.after (doSamplePreload shift s)) :=
  command_runs (.samplePreload shift) (fun _ => true) (doSamplePreload shift) s rfl rfl

theorem exec_extest (s : State) :
    exec .extest s = .next (s.after (doExtest s)) :=
  command_runs .extest (fun _ => true) doExtest s rfl rfl

theorem exec_dbgAccess (offset : Nat) (wr : Option Word64) (s : State) (ho : s.helmRuns = true) :
    exec (.dbgAccess offset wr) s = .next (s.after (doDbgAccess offset wr s)) :=
  command_runs (.dbgAccess offset wr) State.helmRuns (doDbgAccess offset wr) s rfl ho

theorem exec_trstN (level : Bool) (s : State) :
    exec (.trstN level) s = .next (s.after (doTrstN level s)) :=
  command_runs (.trstN level) (fun _ => true) (doTrstN level) s rfl rfl

theorem exec_vz3Undefined (stall : Nat) (s : State) (ha : (Instr.vz3Undefined stall).absent = none) (ho : s.coreRuns = true) :
    exec (.vz3Undefined stall) s = .next (s.after (vzIssue ctl stall (fun b => decide (0x28 ≤ b) && decide (b ≤ 0xFC)) s)) :=
  command_runs (.vz3Undefined stall) State.coreRuns (vzIssue ctl stall (fun b => decide (0x28 ≤ b) && decide (b ≤ 0xFC))) s ha ho

theorem exec_portTrainingEnd (port : Nat) (how : TrainEnd) (s : State) (ha : (Instr.portTrainingEnd port how).absent = none) (ho : s.coreRuns = true) :
    exec (.portTrainingEnd port how) s = .next (s.after ((doPortTrainingEnd port how s).bootInit port)) :=
  command_runs (.portTrainingEnd port how) State.coreRuns (fun s => (doPortTrainingEnd port how s).bootInit port) s ha ho

theorem exec_resyncUnitCopied (port : Nat) (s : State) (ha : (Instr.resyncUnitCopied port).absent = none) (ho : s.coreRuns = true) :
    exec (.resyncUnitCopied port) s = .next (s.after (doResyncUnitCopied port s)) :=
  command_runs (.resyncUnitCopied port) State.coreRuns (doResyncUnitCopied port) s ha ho

theorem exec_maintComplete (shed : Nat) (s : State) (ha : (Instr.maintComplete shed).absent = none) (ho : s.coreRuns = true) :
    exec (.maintComplete shed) s = .next (s.after (doMaintComplete shed s)) :=
  command_runs (.maintComplete shed) State.coreRuns (doMaintComplete shed) s ha ho

theorem exec_wayPowerUpDone (shed way : Nat) (s : State) (ha : (Instr.wayPowerUpDone shed way).absent = none) (ho : s.coreRuns = true) :
    exec (.wayPowerUpDone shed way) s = .next (s.after (doWayPowerUpDone shed way s)) :=
  command_runs (.wayPowerUpDone shed way) State.coreRuns (doWayPowerUpDone shed way) s ha ho

theorem exec_s2mNdr (port : Nat) (kind : NdrKind) (ok : Bool) (s : State) (ha : (Instr.s2mNdr port kind ok).absent = none) (ho : s.coreRuns = true) :
    exec (.s2mNdr port kind ok) s = .next (s.after (doS2mNdr port kind ok s)) :=
  command_runs (.s2mNdr port kind ok) State.coreRuns (doS2mNdr port kind ok) s ha ho

theorem exec_cxlEventRecord (port count : Nat) (s : State) (ha : (Instr.cxlEventRecord port count).absent = none) (ho : s.coreRuns = true) :
    exec (.cxlEventRecord port count) s = .next (s.after (doCxlEventRecord port count s)) :=
  command_runs (.cxlEventRecord port count) State.coreRuns (doCxlEventRecord port count) s ha ho

theorem exec_canErrorFrame (busOff : Bool) (s : State) (ho : s.helmRuns = true) :
    exec (.canErrorFrame busOff) s = .next (s.after (doCanErrorFrame busOff s)) :=
  command_runs (.canErrorFrame busOff) State.helmRuns (doCanErrorFrame busOff) s rfl ho

theorem exec_patchCheckEnd (s : State) (ho : s.helmRuns = true) :
    exec .patchCheckEnd s = .next (s.after (doPatchCheckEnd s)) :=
  command_runs .patchCheckEnd State.helmRuns doPatchCheckEnd s rfl ho

theorem exec_tallyProgrammed (s : State) :
    exec .tallyProgrammed s = .next (s.after (doTallyProgrammed s)) :=
  command_runs .tallyProgrammed (fun _ => true) doTallyProgrammed s rfl rfl

theorem exec_objStatusDone (berth : Nat) (s : State) (ha : (Instr.objStatusDone berth).absent = none) (ho : s.coreRuns = true) :
    exec (.objStatusDone berth) s = .next (s.after (doObjStatusDone berth s)) :=
  command_runs (.objStatusDone berth) State.coreRuns (doObjStatusDone berth) s ha ho

end Sys2Proof.Machine
end

