-- ==== Sys2Proof/Laws/SMap.lean ====
section
/-!
SUPPORT. Laws of sparse maps: a read after a write, on any list; and that each operation keeps the canonical form.
-/

namespace Sys2Proof

variable {α : Type}

theorem SMap.get_put_same (d : Nat → α) (m : SMap α) (k : Nat) (v : α) : SMap.get d (SMap.put m k v) k = v := by
  induction m with
  | nil => simp [SMap.put, SMap.get]
  | cons e m ih =>
    obtain ⟨k', v'⟩ := e
    simp only [SMap.put]
    split
    · simp [SMap.get]
    · split
      · simp [SMap.get]
      · rename_i h
        simp [SMap.get, h, ih]

theorem SMap.get_put_other (d : Nat → α) (m : SMap α) {j k : Nat} (v : α) (h : j ≠ k) :
    SMap.get d (SMap.put m k v) j = SMap.get d m j := by
  induction m with
  | nil => simp [SMap.put, SMap.get, h]
  | cons e m ih =>
    obtain ⟨k', v'⟩ := e
    simp only [SMap.put]
    split
    · simp [SMap.get, h]
    · split
      · rename_i hk
        subst hk
        simp [SMap.get, h]
      · simp [SMap.get, ih]

theorem SMap.get_del_same (d : Nat → α) (m : SMap α) (k : Nat) : SMap.get d (SMap.del m k) k = d k := by
  induction m with
  | nil => simp [SMap.del, SMap.get]
  | cons e m ih =>
    obtain ⟨k', v'⟩ := e
    simp only [SMap.del]
    split
    · exact ih
    · rename_i h
      simp [SMap.get, h, ih]

theorem SMap.get_del_other (d : Nat → α) (m : SMap α) {j k : Nat} (h : j ≠ k) : SMap.get d (SMap.del m k) j = SMap.get d m j := by
  induction m with
  | nil => simp [SMap.del]
  | cons e m ih =>
    obtain ⟨k', v'⟩ := e
    simp only [SMap.del]
    split
    · rename_i hk
      subst hk
      simp [SMap.get, h, ih]
    · simp [SMap.get, ih]

/-- A read of the key written gives the value written. -/
@[simp] theorem SMap.get_set_same [DecidableEq α] (d : Nat → α) (m : SMap α) (k : Nat) (v : α) : SMap.get d (SMap.set d m k v) k = v := by
  unfold SMap.set
  split
  · rename_i h
    rw [SMap.get_del_same, h]
  · exact SMap.get_put_same d m k v

/-- A write leaves every other key as it was. -/
theorem SMap.get_set_other [DecidableEq α] (d : Nat → α) (m : SMap α) {j k : Nat} (v : α) (h : j ≠ k) :
    SMap.get d (SMap.set d m k v) j = SMap.get d m j := by
  unfold SMap.set
  split
  · exact SMap.get_del_other d m h
  · exact SMap.get_put_other d m v h

theorem SMap.get_set [DecidableEq α] (d : Nat → α) (m : SMap α) (j k : Nat) (v : α) :
    SMap.get d (SMap.set d m k v) j = if j = k then v else SMap.get d m j := by
  split
  · rename_i h
    rw [h, SMap.get_set_same]
  · rename_i h
    exact SMap.get_set_other d m v h

/-! ### The canonical form -/

/-- Rising keys from a bound, as two propositions. -/
theorem SMap.rising_cons (lo : Option Nat) (k : Nat) (v : α) (m : SMap α) :
    SMap.rising lo ((k, v) :: m) = true ↔ (∀ l, lo = some l → l < k) ∧ SMap.rising (some k) m = true := by
  cases lo <;> simp [SMap.rising]

theorem SMap.rising_weaken {lo lo' : Option Nat} {m : SMap α} (h : SMap.rising lo m = true)
    (hl : ∀ l', lo' = some l' → ∃ l, lo = some l ∧ l' ≤ l) : SMap.rising lo' m = true := by
  cases m with
  | nil => simp [SMap.rising]
  | cons e m =>
    rw [SMap.rising_cons] at h ⊢
    refine ⟨fun l' hl' => ?_, h.2⟩
    obtain ⟨l, h1, h2⟩ := hl l' hl'
    exact Nat.lt_of_le_of_lt h2 (h.1 l h1)

theorem SMap.rising_put {lo : Option Nat} {m : SMap α} (k : Nat) (v : α) (h : SMap.rising lo m = true) (hk : ∀ l, lo = some l → l < k) :
    SMap.rising lo (SMap.put m k v) = true := by
  induction m generalizing lo with
  | nil =>
    show SMap.rising lo ((k, v) :: []) = true
    rw [SMap.rising_cons]
    exact ⟨hk, rfl⟩
  | cons e m ih =>
    obtain ⟨k', v'⟩ := e
    rw [SMap.rising_cons] at h
    simp only [SMap.put]
    split
    · rename_i hlt
      rw [SMap.rising_cons, SMap.rising_cons]
      exact ⟨hk, by simpa using hlt, h.2⟩
    · split
      · rename_i heq
        subst heq
        rw [SMap.rising_cons]
        exact h
      · rename_i h1 h2
        rw [SMap.rising_cons]
        exact ⟨h.1, ih h.2 (by intro l hl; cases hl; omega)⟩

theorem SMap.rising_sub {lo : Option Nat} {m : SMap α} (f : SMap α → SMap α) (h0 : f [] = [])
    (hc : ∀ e m, f (e :: m) = f m ∨ ∃ v, f (e :: m) = (e.1, v) :: f m) (h : SMap.rising lo m = true) : SMap.rising lo (f m) = true := by
  induction m generalizing lo with
  | nil => simp [h0, SMap.rising]
  | cons e m ih =>
    rw [SMap.rising_cons] at h
    obtain h1 | ⟨v, h1⟩ := hc e m
    · rw [h1]
      exact SMap.rising_weaken (ih h.2) (fun l' hl => ⟨e.1, rfl, Nat.le_of_lt (h.1 l' hl)⟩)
    · rw [h1, SMap.rising_cons]
      exact ⟨h.1, ih h.2⟩

theorem SMap.wf_iff [DecidableEq α] (d : Nat → α) (m : SMap α) :
    SMap.wf d m = true ↔ SMap.rising none m = true ∧ ∀ e ∈ m, e.2 ≠ d e.1 := by
  simp [SMap.wf]

theorem SMap.mem_put {m : SMap α} {k : Nat} {v : α} {e : Nat × α} (h : e ∈ SMap.put m k v) : e = (k, v) ∨ e ∈ m := by
  induction m with
  | nil => simpa [SMap.put] using h
  | cons e' m ih =>
    obtain ⟨k', v'⟩ := e'
    simp only [SMap.put] at h
    split at h
    · simp only [List.mem_cons] at h ⊢
      exact h
    · split at h
      · simp only [List.mem_cons] at h ⊢
        tauto
      · simp only [List.mem_cons] at h ⊢
        rcases h with h | h
        · tauto
        · rcases ih h with h | h <;> tauto

theorem SMap.mem_del {m : SMap α} {k : Nat} {e : Nat × α} (h : e ∈ SMap.del m k) : e ∈ m := by
  induction m with
  | nil => simp [SMap.del] at h
  | cons e' m ih =>
    obtain ⟨k', v'⟩ := e'
    simp only [SMap.del] at h
    split at h
    · exact List.mem_cons_of_mem _ (ih h)
    · simp only [List.mem_cons] at h ⊢
      rcases h with h | h
      · exact .inl h
      · exact .inr (ih h)

/-- A write keeps the canonical form. -/
theorem SMap.wf_set [DecidableEq α] {d : Nat → α} {m : SMap α} (k : Nat) (v : α) (h : SMap.wf d m = true) : SMap.wf d (SMap.set d m k v) = true := by
  rw [SMap.wf_iff] at h ⊢
  unfold SMap.set
  split
  · refine ⟨SMap.rising_sub (fun m => SMap.del m k) rfl (fun e m => ?_) h.1, fun e he => h.2 e (SMap.mem_del he)⟩
    simp only [SMap.del]
    split
    · exact .inl rfl
    · exact .inr ⟨e.2, rfl⟩
  · rename_i hv
    refine ⟨SMap.rising_put k v h.1 (by simp), fun e he => ?_⟩
    rcases SMap.mem_put he with h1 | h1
    · rw [h1]
      exact hv
    · exact h.2 e h1

/-- A part of a canonical map, by key, is canonical. -/
theorem SMap.wf_filter [DecidableEq α] {d : Nat → α} {m : SMap α} (p : Nat × α → Bool) (h : SMap.wf d m = true) : SMap.wf d (m.filter p) = true := by
  rw [SMap.wf_iff] at h ⊢
  refine ⟨SMap.rising_sub (fun m => m.filter p) rfl (fun e m => ?_) h.1, fun e he => h.2 e (List.mem_filter.mp he).1⟩
  simp only [List.filter_cons]
  split
  · exact .inr ⟨e.2, rfl⟩
  · exact .inl rfl

/-- A change of every listed value keeps the canonical form. -/
theorem SMap.wf_mapv [DecidableEq α] {d : Nat → α} {m : SMap α} (f : Nat → α → α) (h : SMap.wf d m = true) : SMap.wf d (SMap.mapv d f m) = true := by
  rw [SMap.wf_iff] at h ⊢
  refine ⟨SMap.rising_sub (fun m => SMap.mapv d f m) rfl (fun e m => ?_) h.1, ?_⟩
  · simp only [SMap.mapv]
    split
    · exact .inl rfl
    · exact .inr ⟨_, rfl⟩
  · clear h
    induction m with
    | nil => simp [SMap.mapv]
    | cons e m ih =>
      simp only [SMap.mapv]
      split
      · exact ih
      · rename_i hne
        intro e' he'
        rcases List.mem_cons.mp he' with h1 | h1
        · rw [h1]
          exact hne
        · exact ih e' h1

end Sys2Proof
end

