-- ==== Sys2Proof/Laws/State.lean ====
section
/-!
SUPPORT. Laws of the state's updates: what each leaves alone, field by field, and a read after a write.
-/

namespace Sys2Proof.Machine

/-! ### setStall -/

@[simp] theorem State.setStall_pending (s : State) (k : Nat) (x : Stall) : (s.setStall k x).pending = s.pending := rfl
@[simp] theorem State.setStall_time (s : State) (k : Nat) (x : Stall) : (s.setStall k x).time = s.time := rfl
@[simp] theorem State.setStall_seqNo (s : State) (k : Nat) (x : Stall) : (s.setStall k x).seqNo = s.seqNo := rfl
@[simp] theorem State.setStall_fresh (s : State) (k : Nat) (x : Stall) : (s.setStall k x).fresh = s.fresh := rfl
@[simp] theorem State.setStall_cores (s : State) (k : Nat) (x : Stall) : (s.setStall k x).cores = s.cores := rfl
@[simp] theorem State.setStall_records (s : State) (k : Nat) (x : Stall) : (s.setStall k x).records = s.records := rfl
@[simp] theorem State.setStall_sheds (s : State) (k : Nat) (x : Stall) : (s.setStall k x).sheds = s.sheds := rfl
@[simp] theorem State.setStall_mem (s : State) (k : Nat) (x : Stall) : (s.setStall k x).mem = s.mem := rfl
@[simp] theorem State.setStall_ops (s : State) (k : Nat) (x : Stall) : (s.setStall k x).ops = s.ops := rfl
@[simp] theorem State.setStall_waiters (s : State) (k : Nat) (x : Stall) : (s.setStall k x).waiters = s.waiters := rfl
@[simp] theorem State.setStall_slots (s : State) (k : Nat) (x : Stall) : (s.setStall k x).slots = s.slots := rfl
@[simp] theorem State.setStall_tgens (s : State) (k : Nat) (x : Stall) : (s.setStall k x).tgens = s.tgens := rfl
@[simp] theorem State.setStall_ports (s : State) (k : Nat) (x : Stall) : (s.setStall k x).ports = s.ports := rfl
@[simp] theorem State.setStall_xl (s : State) (k : Nat) (x : Stall) : (s.setStall k x).xl = s.xl := rfl
@[simp] theorem State.setStall_xpages (s : State) (k : Nat) (x : Stall) : (s.setStall k x).xpages = s.xpages := rfl
@[simp] theorem State.setStall_tlbs (s : State) (k : Nat) (x : Stall) : (s.setStall k x).tlbs = s.tlbs := rfl
@[simp] theorem State.setStall_walkc (s : State) (k : Nat) (x : Stall) : (s.setStall k x).walkc = s.walkc := rfl
@[simp] theorem State.setStall_berths (s : State) (k : Nat) (x : Stall) : (s.setStall k x).berths = s.berths := rfl
@[simp] theorem State.setStall_dict (s : State) (k : Nat) (x : Stall) : (s.setStall k x).dict = s.dict := rfl
@[simp] theorem State.setStall_applied (s : State) (k : Nat) (x : Stall) : (s.setStall k x).applied = s.applied := rfl
@[simp] theorem State.setStall_errorLines (s : State) (k : Nat) (x : Stall) : (s.setStall k x).errorLines = s.errorLines := rfl
@[simp] theorem State.setStall_watchMask (s : State) (k : Nat) (x : Stall) : (s.setStall k x).watchMask = s.watchMask := rfl
@[simp] theorem State.setStall_compass (s : State) (k : Nat) (x : Stall) : (s.setStall k x).compass = s.compass := rfl
@[simp] theorem State.setStall_inbox (s : State) (k : Nat) (x : Stall) : (s.setStall k x).inbox = s.inbox := rfl
@[simp] theorem State.setStall_homeWait (s : State) (k : Nat) (x : Stall) : (s.setStall k x).homeWait = s.homeWait := rfl
@[simp] theorem State.setStall_resent (s : State) (k : Nat) (x : Stall) : (s.setStall k x).resent = s.resent := rfl
@[simp] theorem State.setStall_injBerth (s : State) (k : Nat) (x : Stall) : (s.setStall k x).injBerth = s.injBerth := rfl
@[simp] theorem State.setStall_injLeft (s : State) (k : Nat) (x : Stall) : (s.setStall k x).injLeft = s.injLeft := rfl
@[simp] theorem State.setStall_links (s : State) (k : Nat) (x : Stall) : (s.setStall k x).links = s.links := rfl
@[simp] theorem State.setStall_sound (s : State) (k : Nat) (x : Stall) : (s.setStall k x).sound = s.sound := rfl
@[simp] theorem State.setStall_charts (s : State) (k : Nat) (x : Stall) : (s.setStall k x).charts = s.charts := rfl
@[simp] theorem State.setStall_tsOut (s : State) (k : Nat) (x : Stall) : (s.setStall k x).tsOut = s.tsOut := rfl
@[simp] theorem State.setStall_tsGood (s : State) (k : Nat) (x : Stall) : (s.setStall k x).tsGood = s.tsGood := rfl
@[simp] theorem State.setStall_tallies (s : State) (k : Nat) (x : Stall) : (s.setStall k x).tallies = s.tallies := rfl
@[simp] theorem State.setStall_arms (s : State) (k : Nat) (x : Stall) : (s.setStall k x).arms = s.arms := rfl
@[simp] theorem State.setStall_tallyRun (s : State) (k : Nat) (x : Stall) : (s.setStall k x).tallyRun = s.tallyRun := rfl
@[simp] theorem State.setStall_logbook (s : State) (k : Nat) (x : Stall) : (s.setStall k x).logbook = s.logbook := rfl
@[simp] theorem State.setStall_commits (s : State) (k : Nat) (x : Stall) : (s.setStall k x).commits = s.commits := rfl
@[simp] theorem State.setStall_dports (s : State) (k : Nat) (x : Stall) : (s.setStall k x).dports = s.dports := rfl
@[simp] theorem State.setStall_sessions (s : State) (k : Nat) (x : Stall) : (s.setStall k x).sessions = s.sessions := rfl
@[simp] theorem State.setStall_helmTx (s : State) (k : Nat) (x : Stall) : (s.setStall k x).helmTx = s.helmTx := rfl
@[simp] theorem State.setStall_busOff (s : State) (k : Nat) (x : Stall) : (s.setStall k x).busOff = s.busOff := rfl
@[simp] theorem State.setStall_stage (s : State) (k : Nat) (x : Stall) : (s.setStall k x).stage = s.stage := rfl
@[simp] theorem State.setStall_trace (s : State) (k : Nat) (x : Stall) : (s.setStall k x).trace = s.trace := rfl
@[simp] theorem State.setStall_reportTick (s : State) (k : Nat) (x : Stall) : (s.setStall k x).reportTick = s.reportTick := rfl
@[simp] theorem State.setStall_patchRam (s : State) (k : Nat) (x : Stall) : (s.setStall k x).patchRam = s.patchRam := rfl
@[simp] theorem State.setStall_patchRun (s : State) (k : Nat) (x : Stall) : (s.setStall k x).patchRun = s.patchRun := rfl
@[simp] theorem State.setStall_clkRun (s : State) (k : Nat) (x : Stall) : (s.setStall k x).clkRun = s.clkRun := rfl
@[simp] theorem State.setStall_clkWant (s : State) (k : Nat) (x : Stall) : (s.setStall k x).clkWant = s.clkWant := rfl
@[simp] theorem State.setStall_inReset (s : State) (k : Nat) (x : Stall) : (s.setStall k x).inReset = s.inReset := rfl
@[simp] theorem State.setStall_bootStep (s : State) (k : Nat) (x : Stall) : (s.setStall k x).bootStep = s.bootStep := rfl
@[simp] theorem State.setStall_pins (s : State) (k : Nat) (x : Stall) : (s.setStall k x).pins = s.pins := rfl
@[simp] theorem State.setStall_tap (s : State) (k : Nat) (x : Stall) : (s.setStall k x).tap = s.tap := rfl
@[simp] theorem State.setStall_host (s : State) (k : Nat) (x : Stall) : (s.setStall k x).host = s.host := rfl
@[simp] theorem State.setStall_isoLinks (s : State) (k : Nat) (x : Stall) : (s.setStall k x).isoLinks = s.isoLinks := rfl
@[simp] theorem State.setStall_isoIocs (s : State) (k : Nat) (x : Stall) : (s.setStall k x).isoIocs = s.isoIocs := rfl

/-! ### setCore -/

@[simp] theorem State.setCore_pending (s : State) (k : Nat) (x : Core) : (s.setCore k x).pending = s.pending := rfl
@[simp] theorem State.setCore_time (s : State) (k : Nat) (x : Core) : (s.setCore k x).time = s.time := rfl
@[simp] theorem State.setCore_seqNo (s : State) (k : Nat) (x : Core) : (s.setCore k x).seqNo = s.seqNo := rfl
@[simp] theorem State.setCore_fresh (s : State) (k : Nat) (x : Core) : (s.setCore k x).fresh = s.fresh := rfl
@[simp] theorem State.setCore_stalls (s : State) (k : Nat) (x : Core) : (s.setCore k x).stalls = s.stalls := rfl
@[simp] theorem State.setCore_records (s : State) (k : Nat) (x : Core) : (s.setCore k x).records = s.records := rfl
@[simp] theorem State.setCore_sheds (s : State) (k : Nat) (x : Core) : (s.setCore k x).sheds = s.sheds := rfl
@[simp] theorem State.setCore_mem (s : State) (k : Nat) (x : Core) : (s.setCore k x).mem = s.mem := rfl
@[simp] theorem State.setCore_ops (s : State) (k : Nat) (x : Core) : (s.setCore k x).ops = s.ops := rfl
@[simp] theorem State.setCore_waiters (s : State) (k : Nat) (x : Core) : (s.setCore k x).waiters = s.waiters := rfl
@[simp] theorem State.setCore_slots (s : State) (k : Nat) (x : Core) : (s.setCore k x).slots = s.slots := rfl
@[simp] theorem State.setCore_tgens (s : State) (k : Nat) (x : Core) : (s.setCore k x).tgens = s.tgens := rfl
@[simp] theorem State.setCore_ports (s : State) (k : Nat) (x : Core) : (s.setCore k x).ports = s.ports := rfl
@[simp] theorem State.setCore_xl (s : State) (k : Nat) (x : Core) : (s.setCore k x).xl = s.xl := rfl
@[simp] theorem State.setCore_xpages (s : State) (k : Nat) (x : Core) : (s.setCore k x).xpages = s.xpages := rfl
@[simp] theorem State.setCore_tlbs (s : State) (k : Nat) (x : Core) : (s.setCore k x).tlbs = s.tlbs := rfl
@[simp] theorem State.setCore_walkc (s : State) (k : Nat) (x : Core) : (s.setCore k x).walkc = s.walkc := rfl
@[simp] theorem State.setCore_berths (s : State) (k : Nat) (x : Core) : (s.setCore k x).berths = s.berths := rfl
@[simp] theorem State.setCore_dict (s : State) (k : Nat) (x : Core) : (s.setCore k x).dict = s.dict := rfl
@[simp] theorem State.setCore_applied (s : State) (k : Nat) (x : Core) : (s.setCore k x).applied = s.applied := rfl
@[simp] theorem State.setCore_errorLines (s : State) (k : Nat) (x : Core) : (s.setCore k x).errorLines = s.errorLines := rfl
@[simp] theorem State.setCore_watchMask (s : State) (k : Nat) (x : Core) : (s.setCore k x).watchMask = s.watchMask := rfl
@[simp] theorem State.setCore_compass (s : State) (k : Nat) (x : Core) : (s.setCore k x).compass = s.compass := rfl
@[simp] theorem State.setCore_inbox (s : State) (k : Nat) (x : Core) : (s.setCore k x).inbox = s.inbox := rfl
@[simp] theorem State.setCore_homeWait (s : State) (k : Nat) (x : Core) : (s.setCore k x).homeWait = s.homeWait := rfl
@[simp] theorem State.setCore_resent (s : State) (k : Nat) (x : Core) : (s.setCore k x).resent = s.resent := rfl
@[simp] theorem State.setCore_injBerth (s : State) (k : Nat) (x : Core) : (s.setCore k x).injBerth = s.injBerth := rfl
@[simp] theorem State.setCore_injLeft (s : State) (k : Nat) (x : Core) : (s.setCore k x).injLeft = s.injLeft := rfl
@[simp] theorem State.setCore_links (s : State) (k : Nat) (x : Core) : (s.setCore k x).links = s.links := rfl
@[simp] theorem State.setCore_sound (s : State) (k : Nat) (x : Core) : (s.setCore k x).sound = s.sound := rfl
@[simp] theorem State.setCore_charts (s : State) (k : Nat) (x : Core) : (s.setCore k x).charts = s.charts := rfl
@[simp] theorem State.setCore_tsOut (s : State) (k : Nat) (x : Core) : (s.setCore k x).tsOut = s.tsOut := rfl
@[simp] theorem State.setCore_tsGood (s : State) (k : Nat) (x : Core) : (s.setCore k x).tsGood = s.tsGood := rfl
@[simp] theorem State.setCore_tallies (s : State) (k : Nat) (x : Core) : (s.setCore k x).tallies = s.tallies := rfl
@[simp] theorem State.setCore_arms (s : State) (k : Nat) (x : Core) : (s.setCore k x).arms = s.arms := rfl
@[simp] theorem State.setCore_tallyRun (s : State) (k : Nat) (x : Core) : (s.setCore k x).tallyRun = s.tallyRun := rfl
@[simp] theorem State.setCore_logbook (s : State) (k : Nat) (x : Core) : (s.setCore k x).logbook = s.logbook := rfl
@[simp] theorem State.setCore_commits (s : State) (k : Nat) (x : Core) : (s.setCore k x).commits = s.commits := rfl
@[simp] theorem State.setCore_dports (s : State) (k : Nat) (x : Core) : (s.setCore k x).dports = s.dports := rfl
@[simp] theorem State.setCore_sessions (s : State) (k : Nat) (x : Core) : (s.setCore k x).sessions = s.sessions := rfl
@[simp] theorem State.setCore_helmTx (s : State) (k : Nat) (x : Core) : (s.setCore k x).helmTx = s.helmTx := rfl
@[simp] theorem State.setCore_busOff (s : State) (k : Nat) (x : Core) : (s.setCore k x).busOff = s.busOff := rfl
@[simp] theorem State.setCore_stage (s : State) (k : Nat) (x : Core) : (s.setCore k x).stage = s.stage := rfl
@[simp] theorem State.setCore_trace (s : State) (k : Nat) (x : Core) : (s.setCore k x).trace = s.trace := rfl
@[simp] theorem State.setCore_reportTick (s : State) (k : Nat) (x : Core) : (s.setCore k x).reportTick = s.reportTick := rfl
@[simp] theorem State.setCore_patchRam (s : State) (k : Nat) (x : Core) : (s.setCore k x).patchRam = s.patchRam := rfl
@[simp] theorem State.setCore_patchRun (s : State) (k : Nat) (x : Core) : (s.setCore k x).patchRun = s.patchRun := rfl
@[simp] theorem State.setCore_clkRun (s : State) (k : Nat) (x : Core) : (s.setCore k x).clkRun = s.clkRun := rfl
@[simp] theorem State.setCore_clkWant (s : State) (k : Nat) (x : Core) : (s.setCore k x).clkWant = s.clkWant := rfl
@[simp] theorem State.setCore_inReset (s : State) (k : Nat) (x : Core) : (s.setCore k x).inReset = s.inReset := rfl
@[simp] theorem State.setCore_bootStep (s : State) (k : Nat) (x : Core) : (s.setCore k x).bootStep = s.bootStep := rfl
@[simp] theorem State.setCore_pins (s : State) (k : Nat) (x : Core) : (s.setCore k x).pins = s.pins := rfl
@[simp] theorem State.setCore_tap (s : State) (k : Nat) (x : Core) : (s.setCore k x).tap = s.tap := rfl
@[simp] theorem State.setCore_host (s : State) (k : Nat) (x : Core) : (s.setCore k x).host = s.host := rfl
@[simp] theorem State.setCore_isoLinks (s : State) (k : Nat) (x : Core) : (s.setCore k x).isoLinks = s.isoLinks := rfl
@[simp] theorem State.setCore_isoIocs (s : State) (k : Nat) (x : Core) : (s.setCore k x).isoIocs = s.isoIocs := rfl

/-! ### setRecord -/

@[simp] theorem State.setRecord_pending (s : State) (k : Nat) (x : Record) : (s.setRecord k x).pending = s.pending := rfl
@[simp] theorem State.setRecord_time (s : State) (k : Nat) (x : Record) : (s.setRecord k x).time = s.time := rfl
@[simp] theorem State.setRecord_seqNo (s : State) (k : Nat) (x : Record) : (s.setRecord k x).seqNo = s.seqNo := rfl
@[simp] theorem State.setRecord_fresh (s : State) (k : Nat) (x : Record) : (s.setRecord k x).fresh = s.fresh := rfl
@[simp] theorem State.setRecord_stalls (s : State) (k : Nat) (x : Record) : (s.setRecord k x).stalls = s.stalls := rfl
@[simp] theorem State.setRecord_cores (s : State) (k : Nat) (x : Record) : (s.setRecord k x).cores = s.cores := rfl
@[simp] theorem State.setRecord_sheds (s : State) (k : Nat) (x : Record) : (s.setRecord k x).sheds = s.sheds := rfl
@[simp] theorem State.setRecord_mem (s : State) (k : Nat) (x : Record) : (s.setRecord k x).mem = s.mem := rfl
@[simp] theorem State.setRecord_ops (s : State) (k : Nat) (x : Record) : (s.setRecord k x).ops = s.ops := rfl
@[simp] theorem State.setRecord_waiters (s : State) (k : Nat) (x : Record) : (s.setRecord k x).waiters = s.waiters := rfl
@[simp] theorem State.setRecord_slots (s : State) (k : Nat) (x : Record) : (s.setRecord k x).slots = s.slots := rfl
@[simp] theorem State.setRecord_tgens (s : State) (k : Nat) (x : Record) : (s.setRecord k x).tgens = s.tgens := rfl
@[simp] theorem State.setRecord_ports (s : State) (k : Nat) (x : Record) : (s.setRecord k x).ports = s.ports := rfl
@[simp] theorem State.setRecord_xl (s : State) (k : Nat) (x : Record) : (s.setRecord k x).xl = s.xl := rfl
@[simp] theorem State.setRecord_xpages (s : State) (k : Nat) (x : Record) : (s.setRecord k x).xpages = s.xpages := rfl
@[simp] theorem State.setRecord_tlbs (s : State) (k : Nat) (x : Record) : (s.setRecord k x).tlbs = s.tlbs := rfl
@[simp] theorem State.setRecord_walkc (s : State) (k : Nat) (x : Record) : (s.setRecord k x).walkc = s.walkc := rfl
@[simp] theorem State.setRecord_berths (s : State) (k : Nat) (x : Record) : (s.setRecord k x).berths = s.berths := rfl
@[simp] theorem State.setRecord_dict (s : State) (k : Nat) (x : Record) : (s.setRecord k x).dict = s.dict := rfl
@[simp] theorem State.setRecord_applied (s : State) (k : Nat) (x : Record) : (s.setRecord k x).applied = s.applied := rfl
@[simp] theorem State.setRecord_errorLines (s : State) (k : Nat) (x : Record) : (s.setRecord k x).errorLines = s.errorLines := rfl
@[simp] theorem State.setRecord_watchMask (s : State) (k : Nat) (x : Record) : (s.setRecord k x).watchMask = s.watchMask := rfl
@[simp] theorem State.setRecord_compass (s : State) (k : Nat) (x : Record) : (s.setRecord k x).compass = s.compass := rfl
@[simp] theorem State.setRecord_inbox (s : State) (k : Nat) (x : Record) : (s.setRecord k x).inbox = s.inbox := rfl
@[simp] theorem State.setRecord_homeWait (s : State) (k : Nat) (x : Record) : (s.setRecord k x).homeWait = s.homeWait := rfl
@[simp] theorem State.setRecord_resent (s : State) (k : Nat) (x : Record) : (s.setRecord k x).resent = s.resent := rfl
@[simp] theorem State.setRecord_injBerth (s : State) (k : Nat) (x : Record) : (s.setRecord k x).injBerth = s.injBerth := rfl
@[simp] theorem State.setRecord_injLeft (s : State) (k : Nat) (x : Record) : (s.setRecord k x).injLeft = s.injLeft := rfl
@[simp] theorem State.setRecord_links (s : State) (k : Nat) (x : Record) : (s.setRecord k x).links = s.links := rfl
@[simp] theorem State.setRecord_sound (s : State) (k : Nat) (x : Record) : (s.setRecord k x).sound = s.sound := rfl
@[simp] theorem State.setRecord_charts (s : State) (k : Nat) (x : Record) : (s.setRecord k x).charts = s.charts := rfl
@[simp] theorem State.setRecord_tsOut (s : State) (k : Nat) (x : Record) : (s.setRecord k x).tsOut = s.tsOut := rfl
@[simp] theorem State.setRecord_tsGood (s : State) (k : Nat) (x : Record) : (s.setRecord k x).tsGood = s.tsGood := rfl
@[simp] theorem State.setRecord_tallies (s : State) (k : Nat) (x : Record) : (s.setRecord k x).tallies = s.tallies := rfl
@[simp] theorem State.setRecord_arms (s : State) (k : Nat) (x : Record) : (s.setRecord k x).arms = s.arms := rfl
@[simp] theorem State.setRecord_tallyRun (s : State) (k : Nat) (x : Record) : (s.setRecord k x).tallyRun = s.tallyRun := rfl
@[simp] theorem State.setRecord_logbook (s : State) (k : Nat) (x : Record) : (s.setRecord k x).logbook = s.logbook := rfl
@[simp] theorem State.setRecord_commits (s : State) (k : Nat) (x : Record) : (s.setRecord k x).commits = s.commits := rfl
@[simp] theorem State.setRecord_dports (s : State) (k : Nat) (x : Record) : (s.setRecord k x).dports = s.dports := rfl
@[simp] theorem State.setRecord_sessions (s : State) (k : Nat) (x : Record) : (s.setRecord k x).sessions = s.sessions := rfl
@[simp] theorem State.setRecord_helmTx (s : State) (k : Nat) (x : Record) : (s.setRecord k x).helmTx = s.helmTx := rfl
@[simp] theorem State.setRecord_busOff (s : State) (k : Nat) (x : Record) : (s.setRecord k x).busOff = s.busOff := rfl
@[simp] theorem State.setRecord_stage (s : State) (k : Nat) (x : Record) : (s.setRecord k x).stage = s.stage := rfl
@[simp] theorem State.setRecord_trace (s : State) (k : Nat) (x : Record) : (s.setRecord k x).trace = s.trace := rfl
@[simp] theorem State.setRecord_reportTick (s : State) (k : Nat) (x : Record) : (s.setRecord k x).reportTick = s.reportTick := rfl
@[simp] theorem State.setRecord_patchRam (s : State) (k : Nat) (x : Record) : (s.setRecord k x).patchRam = s.patchRam := rfl
@[simp] theorem State.setRecord_patchRun (s : State) (k : Nat) (x : Record) : (s.setRecord k x).patchRun = s.patchRun := rfl
@[simp] theorem State.setRecord_clkRun (s : State) (k : Nat) (x : Record) : (s.setRecord k x).clkRun = s.clkRun := rfl
@[simp] theorem State.setRecord_clkWant (s : State) (k : Nat) (x : Record) : (s.setRecord k x).clkWant = s.clkWant := rfl
@[simp] theorem State.setRecord_inReset (s : State) (k : Nat) (x : Record) : (s.setRecord k x).inReset = s.inReset := rfl
@[simp] theorem State.setRecord_bootStep (s : State) (k : Nat) (x : Record) : (s.setRecord k x).bootStep = s.bootStep := rfl
@[simp] theorem State.setRecord_pins (s : State) (k : Nat) (x : Record) : (s.setRecord k x).pins = s.pins := rfl
@[simp] theorem State.setRecord_tap (s : State) (k : Nat) (x : Record) : (s.setRecord k x).tap = s.tap := rfl
@[simp] theorem State.setRecord_host (s : State) (k : Nat) (x : Record) : (s.setRecord k x).host = s.host := rfl
@[simp] theorem State.setRecord_isoLinks (s : State) (k : Nat) (x : Record) : (s.setRecord k x).isoLinks = s.isoLinks := rfl
@[simp] theorem State.setRecord_isoIocs (s : State) (k : Nat) (x : Record) : (s.setRecord k x).isoIocs = s.isoIocs := rfl

/-! ### setShed -/

@[simp] theorem State.setShed_pending (s : State) (k : Nat) (x : Shed) : (s.setShed k x).pending = s.pending := rfl
@[simp] theorem State.setShed_time (s : State) (k : Nat) (x : Shed) : (s.setShed k x).time = s.time := rfl
@[simp] theorem State.setShed_seqNo (s : State) (k : Nat) (x : Shed) : (s.setShed k x).seqNo = s.seqNo := rfl
@[simp] theorem State.setShed_fresh (s : State) (k : Nat) (x : Shed) : (s.setShed k x).fresh = s.fresh := rfl
@[simp] theorem State.setShed_stalls (s : State) (k : Nat) (x : Shed) : (s.setShed k x).stalls = s.stalls := rfl
@[simp] theorem State.setShed_cores (s : State) (k : Nat) (x : Shed) : (s.setShed k x).cores = s.cores := rfl
@[simp] theorem State.setShed_records (s : State) (k : Nat) (x : Shed) : (s.setShed k x).records = s.records := rfl
@[simp] theorem State.setShed_mem (s : State) (k : Nat) (x : Shed) : (s.setShed k x).mem = s.mem := rfl
@[simp] theorem State.setShed_ops (s : State) (k : Nat) (x : Shed) : (s.setShed k x).ops = s.ops := rfl
@[simp] theorem State.setShed_waiters (s : State) (k : Nat) (x : Shed) : (s.setShed k x).waiters = s.waiters := rfl
@[simp] theorem State.setShed_slots (s : State) (k : Nat) (x : Shed) : (s.setShed k x).slots = s.slots := rfl
@[simp] theorem State.setShed_tgens (s : State) (k : Nat) (x : Shed) : (s.setShed k x).tgens = s.tgens := rfl
@[simp] theorem State.setShed_ports (s : State) (k : Nat) (x : Shed) : (s.setShed k x).ports = s.ports := rfl
@[simp] theorem State.setShed_xl (s : State) (k : Nat) (x : Shed) : (s.setShed k x).xl = s.xl := rfl
@[simp] theorem State.setShed_xpages (s : State) (k : Nat) (x : Shed) : (s.setShed k x).xpages = s.xpages := rfl
@[simp] theorem State.setShed_tlbs (s : State) (k : Nat) (x : Shed) : (s.setShed k x).tlbs = s.tlbs := rfl
@[simp] theorem State.setShed_walkc (s : State) (k : Nat) (x : Shed) : (s.setShed k x).walkc = s.walkc := rfl
@[simp] theorem State.setShed_berths (s : State) (k : Nat) (x : Shed) : (s.setShed k x).berths = s.berths := rfl
@[simp] theorem State.setShed_dict (s : State) (k : Nat) (x : Shed) : (s.setShed k x).dict = s.dict := rfl
@[simp] theorem State.setShed_applied (s : State) (k : Nat) (x : Shed) : (s.setShed k x).applied = s.applied := rfl
@[simp] theorem State.setShed_errorLines (s : State) (k : Nat) (x : Shed) : (s.setShed k x).errorLines = s.errorLines := rfl
@[simp] theorem State.setShed_watchMask (s : State) (k : Nat) (x : Shed) : (s.setShed k x).watchMask = s.watchMask := rfl
@[simp] theorem State.setShed_compass (s : State) (k : Nat) (x : Shed) : (s.setShed k x).compass = s.compass := rfl
@[simp] theorem State.setShed_inbox (s : State) (k : Nat) (x : Shed) : (s.setShed k x).inbox = s.inbox := rfl
@[simp] theorem State.setShed_homeWait (s : State) (k : Nat) (x : Shed) : (s.setShed k x).homeWait = s.homeWait := rfl
@[simp] theorem State.setShed_resent (s : State) (k : Nat) (x : Shed) : (s.setShed k x).resent = s.resent := rfl
@[simp] theorem State.setShed_injBerth (s : State) (k : Nat) (x : Shed) : (s.setShed k x).injBerth = s.injBerth := rfl
@[simp] theorem State.setShed_injLeft (s : State) (k : Nat) (x : Shed) : (s.setShed k x).injLeft = s.injLeft := rfl
@[simp] theorem State.setShed_links (s : State) (k : Nat) (x : Shed) : (s.setShed k x).links = s.links := rfl
@[simp] theorem State.setShed_sound (s : State) (k : Nat) (x : Shed) : (s.setShed k x).sound = s.sound := rfl
@[simp] theorem State.setShed_charts (s : State) (k : Nat) (x : Shed) : (s.setShed k x).charts = s.charts := rfl
@[simp] theorem State.setShed_tsOut (s : State) (k : Nat) (x : Shed) : (s.setShed k x).tsOut = s.tsOut := rfl
@[simp] theorem State.setShed_tsGood (s : State) (k : Nat) (x : Shed) : (s.setShed k x).tsGood = s.tsGood := rfl
@[simp] theorem State.setShed_tallies (s : State) (k : Nat) (x : Shed) : (s.setShed k x).tallies = s.tallies := rfl
@[simp] theorem State.setShed_arms (s : State) (k : Nat) (x : Shed) : (s.setShed k x).arms = s.arms := rfl
@[simp] theorem State.setShed_tallyRun (s : State) (k : Nat) (x : Shed) : (s.setShed k x).tallyRun = s.tallyRun := rfl
@[simp] theorem State.setShed_logbook (s : State) (k : Nat) (x : Shed) : (s.setShed k x).logbook = s.logbook := rfl
@[simp] theorem State.setShed_commits (s : State) (k : Nat) (x : Shed) : (s.setShed k x).commits = s.commits := rfl
@[simp] theorem State.setShed_dports (s : State) (k : Nat) (x : Shed) : (s.setShed k x).dports = s.dports := rfl
@[simp] theorem State.setShed_sessions (s : State) (k : Nat) (x : Shed) : (s.setShed k x).sessions = s.sessions := rfl
@[simp] theorem State.setShed_helmTx (s : State) (k : Nat) (x : Shed) : (s.setShed k x).helmTx = s.helmTx := rfl
@[simp] theorem State.setShed_busOff (s : State) (k : Nat) (x : Shed) : (s.setShed k x).busOff = s.busOff := rfl
@[simp] theorem State.setShed_stage (s : State) (k : Nat) (x : Shed) : (s.setShed k x).stage = s.stage := rfl
@[simp] theorem State.setShed_trace (s : State) (k : Nat) (x : Shed) : (s.setShed k x).trace = s.trace := rfl
@[simp] theorem State.setShed_reportTick (s : State) (k : Nat) (x : Shed) : (s.setShed k x).reportTick = s.reportTick := rfl
@[simp] theorem State.setShed_patchRam (s : State) (k : Nat) (x : Shed) : (s.setShed k x).patchRam = s.patchRam := rfl
@[simp] theorem State.setShed_patchRun (s : State) (k : Nat) (x : Shed) : (s.setShed k x).patchRun = s.patchRun := rfl
@[simp] theorem State.setShed_clkRun (s : State) (k : Nat) (x : Shed) : (s.setShed k x).clkRun = s.clkRun := rfl
@[simp] theorem State.setShed_clkWant (s : State) (k : Nat) (x : Shed) : (s.setShed k x).clkWant = s.clkWant := rfl
@[simp] theorem State.setShed_inReset (s : State) (k : Nat) (x : Shed) : (s.setShed k x).inReset = s.inReset := rfl
@[simp] theorem State.setShed_bootStep (s : State) (k : Nat) (x : Shed) : (s.setShed k x).bootStep = s.bootStep := rfl
@[simp] theorem State.setShed_pins (s : State) (k : Nat) (x : Shed) : (s.setShed k x).pins = s.pins := rfl
@[simp] theorem State.setShed_tap (s : State) (k : Nat) (x : Shed) : (s.setShed k x).tap = s.tap := rfl
@[simp] theorem State.setShed_host (s : State) (k : Nat) (x : Shed) : (s.setShed k x).host = s.host := rfl
@[simp] theorem State.setShed_isoLinks (s : State) (k : Nat) (x : Shed) : (s.setShed k x).isoLinks = s.isoLinks := rfl
@[simp] theorem State.setShed_isoIocs (s : State) (k : Nat) (x : Shed) : (s.setShed k x).isoIocs = s.isoIocs := rfl

/-! ### setPort -/

@[simp] theorem State.setPort_pending (s : State) (k : Nat) (x : Port) : (s.setPort k x).pending = s.pending := rfl
@[simp] theorem State.setPort_time (s : State) (k : Nat) (x : Port) : (s.setPort k x).time = s.time := rfl
@[simp] theorem State.setPort_seqNo (s : State) (k : Nat) (x : Port) : (s.setPort k x).seqNo = s.seqNo := rfl
@[simp] theorem State.setPort_fresh (s : State) (k : Nat) (x : Port) : (s.setPort k x).fresh = s.fresh := rfl
@[simp] theorem State.setPort_stalls (s : State) (k : Nat) (x : Port) : (s.setPort k x).stalls = s.stalls := rfl
@[simp] theorem State.setPort_cores (s : State) (k : Nat) (x : Port) : (s.setPort k x).cores = s.cores := rfl
@[simp] theorem State.setPort_records (s : State) (k : Nat) (x : Port) : (s.setPort k x).records = s.records := rfl
@[simp] theorem State.setPort_sheds (s : State) (k : Nat) (x : Port) : (s.setPort k x).sheds = s.sheds := rfl
@[simp] theorem State.setPort_mem (s : State) (k : Nat) (x : Port) : (s.setPort k x).mem = s.mem := rfl
@[simp] theorem State.setPort_ops (s : State) (k : Nat) (x : Port) : (s.setPort k x).ops = s.ops := rfl
@[simp] theorem State.setPort_waiters (s : State) (k : Nat) (x : Port) : (s.setPort k x).waiters = s.waiters := rfl
@[simp] theorem State.setPort_slots (s : State) (k : Nat) (x : Port) : (s.setPort k x).slots = s.slots := rfl
@[simp] theorem State.setPort_tgens (s : State) (k : Nat) (x : Port) : (s.setPort k x).tgens = s.tgens := rfl
@[simp] theorem State.setPort_xl (s : State) (k : Nat) (x : Port) : (s.setPort k x).xl = s.xl := rfl
@[simp] theorem State.setPort_xpages (s : State) (k : Nat) (x : Port) : (s.setPort k x).xpages = s.xpages := rfl
@[simp] theorem State.setPort_tlbs (s : State) (k : Nat) (x : Port) : (s.setPort k x).tlbs = s.tlbs := rfl
@[simp] theorem State.setPort_walkc (s : State) (k : Nat) (x : Port) : (s.setPort k x).walkc = s.walkc := rfl
@[simp] theorem State.setPort_berths (s : State) (k : Nat) (x : Port) : (s.setPort k x).berths = s.berths := rfl
@[simp] theorem State.setPort_dict (s : State) (k : Nat) (x : Port) : (s.setPort k x).dict = s.dict := rfl
@[simp] theorem State.setPort_applied (s : State) (k : Nat) (x : Port) : (s.setPort k x).applied = s.applied := rfl
@[simp] theorem State.setPort_errorLines (s : State) (k : Nat) (x : Port) : (s.setPort k x).errorLines = s.errorLines := rfl
@[simp] theorem State.setPort_watchMask (s : State) (k : Nat) (x : Port) : (s.setPort k x).watchMask = s.watchMask := rfl
@[simp] theorem State.setPort_compass (s : State) (k : Nat) (x : Port) : (s.setPort k x).compass = s.compass := rfl
@[simp] theorem State.setPort_inbox (s : State) (k : Nat) (x : Port) : (s.setPort k x).inbox = s.inbox := rfl
@[simp] theorem State.setPort_homeWait (s : State) (k : Nat) (x : Port) : (s.setPort k x).homeWait = s.homeWait := rfl
@[simp] theorem State.setPort_resent (s : State) (k : Nat) (x : Port) : (s.setPort k x).resent = s.resent := rfl
@[simp] theorem State.setPort_injBerth (s : State) (k : Nat) (x : Port) : (s.setPort k x).injBerth = s.injBerth := rfl
@[simp] theorem State.setPort_injLeft (s : State) (k : Nat) (x : Port) : (s.setPort k x).injLeft = s.injLeft := rfl
@[simp] theorem State.setPort_links (s : State) (k : Nat) (x : Port) : (s.setPort k x).links = s.links := rfl
@[simp] theorem State.setPort_sound (s : State) (k : Nat) (x : Port) : (s.setPort k x).sound = s.sound := rfl
@[simp] theorem State.setPort_charts (s : State) (k : Nat) (x : Port) : (s.setPort k x).charts = s.charts := rfl
@[simp] theorem State.setPort_tsOut (s : State) (k : Nat) (x : Port) : (s.setPort k x).tsOut = s.tsOut := rfl
@[simp] theorem State.setPort_tsGood (s : State) (k : Nat) (x : Port) : (s.setPort k x).tsGood = s.tsGood := rfl
@[simp] theorem State.setPort_tallies (s : State) (k : Nat) (x : Port) : (s.setPort k x).tallies = s.tallies := rfl
@[simp] theorem State.setPort_arms (s : State) (k : Nat) (x : Port) : (s.setPort k x).arms = s.arms := rfl
@[simp] theorem State.setPort_tallyRun (s : State) (k : Nat) (x : Port) : (s.setPort k x).tallyRun = s.tallyRun := rfl
@[simp] theorem State.setPort_logbook (s : State) (k : Nat) (x : Port) : (s.setPort k x).logbook = s.logbook := rfl
@[simp] theorem State.setPort_commits (s : State) (k : Nat) (x : Port) : (s.setPort k x).commits = s.commits := rfl
@[simp] theorem State.setPort_dports (s : State) (k : Nat) (x : Port) : (s.setPort k x).dports = s.dports := rfl
@[simp] theorem State.setPort_sessions (s : State) (k : Nat) (x : Port) : (s.setPort k x).sessions = s.sessions := rfl
@[simp] theorem State.setPort_helmTx (s : State) (k : Nat) (x : Port) : (s.setPort k x).helmTx = s.helmTx := rfl
@[simp] theorem State.setPort_busOff (s : State) (k : Nat) (x : Port) : (s.setPort k x).busOff = s.busOff := rfl
@[simp] theorem State.setPort_stage (s : State) (k : Nat) (x : Port) : (s.setPort k x).stage = s.stage := rfl
@[simp] theorem State.setPort_trace (s : State) (k : Nat) (x : Port) : (s.setPort k x).trace = s.trace := rfl
@[simp] theorem State.setPort_reportTick (s : State) (k : Nat) (x : Port) : (s.setPort k x).reportTick = s.reportTick := rfl
@[simp] theorem State.setPort_patchRam (s : State) (k : Nat) (x : Port) : (s.setPort k x).patchRam = s.patchRam := rfl
@[simp] theorem State.setPort_patchRun (s : State) (k : Nat) (x : Port) : (s.setPort k x).patchRun = s.patchRun := rfl
@[simp] theorem State.setPort_clkRun (s : State) (k : Nat) (x : Port) : (s.setPort k x).clkRun = s.clkRun := rfl
@[simp] theorem State.setPort_clkWant (s : State) (k : Nat) (x : Port) : (s.setPort k x).clkWant = s.clkWant := rfl
@[simp] theorem State.setPort_inReset (s : State) (k : Nat) (x : Port) : (s.setPort k x).inReset = s.inReset := rfl
@[simp] theorem State.setPort_bootStep (s : State) (k : Nat) (x : Port) : (s.setPort k x).bootStep = s.bootStep := rfl
@[simp] theorem State.setPort_pins (s : State) (k : Nat) (x : Port) : (s.setPort k x).pins = s.pins := rfl
@[simp] theorem State.setPort_tap (s : State) (k : Nat) (x : Port) : (s.setPort k x).tap = s.tap := rfl
@[simp] theorem State.setPort_host (s : State) (k : Nat) (x : Port) : (s.setPort k x).host = s.host := rfl
@[simp] theorem State.setPort_isoLinks (s : State) (k : Nat) (x : Port) : (s.setPort k x).isoLinks = s.isoLinks := rfl
@[simp] theorem State.setPort_isoIocs (s : State) (k : Nat) (x : Port) : (s.setPort k x).isoIocs = s.isoIocs := rfl

/-! ### setBerth -/

@[simp] theorem State.setBerth_pending (s : State) (k : Nat) (x : Berth) : (s.setBerth k x).pending = s.pending := rfl
@[simp] theorem State.setBerth_time (s : State) (k : Nat) (x : Berth) : (s.setBerth k x).time = s.time := rfl
@[simp] theorem State.setBerth_seqNo (s : State) (k : Nat) (x : Berth) : (s.setBerth k x).seqNo = s.seqNo := rfl
@[simp] theorem State.setBerth_fresh (s : State) (k : Nat) (x : Berth) : (s.setBerth k x).fresh = s.fresh := rfl
@[simp] theorem State.setBerth_stalls (s : State) (k : Nat) (x : Berth) : (s.setBerth k x).stalls = s.stalls := rfl
@[simp] theorem State.setBerth_cores (s : State) (k : Nat) (x : Berth) : (s.setBerth k x).cores = s.cores := rfl
@[simp] theorem State.setBerth_records (s : State) (k : Nat) (x : Berth) : (s.setBerth k x).records = s.records := rfl
@[simp] theorem State.setBerth_sheds (s : State) (k : Nat) (x : Berth) : (s.setBerth k x).sheds = s.sheds := rfl
@[simp] theorem State.setBerth_mem (s : State) (k : Nat) (x : Berth) : (s.setBerth k x).mem = s.mem := rfl
@[simp] theorem State.setBerth_ops (s : State) (k : Nat) (x : Berth) : (s.setBerth k x).ops = s.ops := rfl
@[simp] theorem State.setBerth_waiters (s : State) (k : Nat) (x : Berth) : (s.setBerth k x).waiters = s.waiters := rfl
@[simp] theorem State.setBerth_slots (s : State) (k : Nat) (x : Berth) : (s.setBerth k x).slots = s.slots := rfl
@[simp] theorem State.setBerth_tgens (s : State) (k : Nat) (x : Berth) : (s.setBerth k x).tgens = s.tgens := rfl
@[simp] theorem State.setBerth_ports (s : State) (k : Nat) (x : Berth) : (s.setBerth k x).ports = s.ports := rfl
@[simp] theorem State.setBerth_xl (s : State) (k : Nat) (x : Berth) : (s.setBerth k x).xl = s.xl := rfl
@[simp] theorem State.setBerth_xpages (s : State) (k : Nat) (x : Berth) : (s.setBerth k x).xpages = s.xpages := rfl
@[simp] theorem State.setBerth_tlbs (s : State) (k : Nat) (x : Berth) : (s.setBerth k x).tlbs = s.tlbs := rfl
@[simp] theorem State.setBerth_walkc (s : State) (k : Nat) (x : Berth) : (s.setBerth k x).walkc = s.walkc := rfl
@[simp] theorem State.setBerth_dict (s : State) (k : Nat) (x : Berth) : (s.setBerth k x).dict = s.dict := rfl
@[simp] theorem State.setBerth_applied (s : State) (k : Nat) (x : Berth) : (s.setBerth k x).applied = s.applied := rfl
@[simp] theorem State.setBerth_errorLines (s : State) (k : Nat) (x : Berth) : (s.setBerth k x).errorLines = s.errorLines := rfl
@[simp] theorem State.setBerth_watchMask (s : State) (k : Nat) (x : Berth) : (s.setBerth k x).watchMask = s.watchMask := rfl
@[simp] theorem State.setBerth_compass (s : State) (k : Nat) (x : Berth) : (s.setBerth k x).compass = s.compass := rfl
@[simp] theorem State.setBerth_inbox (s : State) (k : Nat) (x : Berth) : (s.setBerth k x).inbox = s.inbox := rfl
@[simp] theorem State.setBerth_homeWait (s : State) (k : Nat) (x : Berth) : (s.setBerth k x).homeWait = s.homeWait := rfl
@[simp] theorem State.setBerth_resent (s : State) (k : Nat) (x : Berth) : (s.setBerth k x).resent = s.resent := rfl
@[simp] theorem State.setBerth_injBerth (s : State) (k : Nat) (x : Berth) : (s.setBerth k x).injBerth = s.injBerth := rfl
@[simp] theorem State.setBerth_injLeft (s : State) (k : Nat) (x : Berth) : (s.setBerth k x).injLeft = s.injLeft := rfl
@[simp] theorem State.setBerth_links (s : State) (k : Nat) (x : Berth) : (s.setBerth k x).links = s.links := rfl
@[simp] theorem State.setBerth_sound (s : State) (k : Nat) (x : Berth) : (s.setBerth k x).sound = s.sound := rfl
@[simp] theorem State.setBerth_charts (s : State) (k : Nat) (x : Berth) : (s.setBerth k x).charts = s.charts := rfl
@[simp] theorem State.setBerth_tsOut (s : State) (k : Nat) (x : Berth) : (s.setBerth k x).tsOut = s.tsOut := rfl
@[simp] theorem State.setBerth_tsGood (s : State) (k : Nat) (x : Berth) : (s.setBerth k x).tsGood = s.tsGood := rfl
@[simp] theorem State.setBerth_tallies (s : State) (k : Nat) (x : Berth) : (s.setBerth k x).tallies = s.tallies := rfl
@[simp] theorem State.setBerth_arms (s : State) (k : Nat) (x : Berth) : (s.setBerth k x).arms = s.arms := rfl
@[simp] theorem State.setBerth_tallyRun (s : State) (k : Nat) (x : Berth) : (s.setBerth k x).tallyRun = s.tallyRun := rfl
@[simp] theorem State.setBerth_logbook (s : State) (k : Nat) (x : Berth) : (s.setBerth k x).logbook = s.logbook := rfl
@[simp] theorem State.setBerth_commits (s : State) (k : Nat) (x : Berth) : (s.setBerth k x).commits = s.commits := rfl
@[simp] theorem State.setBerth_dports (s : State) (k : Nat) (x : Berth) : (s.setBerth k x).dports = s.dports := rfl
@[simp] theorem State.setBerth_sessions (s : State) (k : Nat) (x : Berth) : (s.setBerth k x).sessions = s.sessions := rfl
@[simp] theorem State.setBerth_helmTx (s : State) (k : Nat) (x : Berth) : (s.setBerth k x).helmTx = s.helmTx := rfl
@[simp] theorem State.setBerth_busOff (s : State) (k : Nat) (x : Berth) : (s.setBerth k x).busOff = s.busOff := rfl
@[simp] theorem State.setBerth_stage (s : State) (k : Nat) (x : Berth) : (s.setBerth k x).stage = s.stage := rfl
@[simp] theorem State.setBerth_trace (s : State) (k : Nat) (x : Berth) : (s.setBerth k x).trace = s.trace := rfl
@[simp] theorem State.setBerth_reportTick (s : State) (k : Nat) (x : Berth) : (s.setBerth k x).reportTick = s.reportTick := rfl
@[simp] theorem State.setBerth_patchRam (s : State) (k : Nat) (x : Berth) : (s.setBerth k x).patchRam = s.patchRam := rfl
@[simp] theorem State.setBerth_patchRun (s : State) (k : Nat) (x : Berth) : (s.setBerth k x).patchRun = s.patchRun := rfl
@[simp] theorem State.setBerth_clkRun (s : State) (k : Nat) (x : Berth) : (s.setBerth k x).clkRun = s.clkRun := rfl
@[simp] theorem State.setBerth_clkWant (s : State) (k : Nat) (x : Berth) : (s.setBerth k x).clkWant = s.clkWant := rfl
@[simp] theorem State.setBerth_inReset (s : State) (k : Nat) (x : Berth) : (s.setBerth k x).inReset = s.inReset := rfl
@[simp] theorem State.setBerth_bootStep (s : State) (k : Nat) (x : Berth) : (s.setBerth k x).bootStep = s.bootStep := rfl
@[simp] theorem State.setBerth_pins (s : State) (k : Nat) (x : Berth) : (s.setBerth k x).pins = s.pins := rfl
@[simp] theorem State.setBerth_tap (s : State) (k : Nat) (x : Berth) : (s.setBerth k x).tap = s.tap := rfl
@[simp] theorem State.setBerth_host (s : State) (k : Nat) (x : Berth) : (s.setBerth k x).host = s.host := rfl
@[simp] theorem State.setBerth_isoLinks (s : State) (k : Nat) (x : Berth) : (s.setBerth k x).isoLinks = s.isoLinks := rfl
@[simp] theorem State.setBerth_isoIocs (s : State) (k : Nat) (x : Berth) : (s.setBerth k x).isoIocs = s.isoIocs := rfl

/-! ### setSlot -/

@[simp] theorem State.setSlot_pending (s : State) (k : Nat) (x : Option Slot) : (s.setSlot k x).pending = s.pending := rfl
@[simp] theorem State.setSlot_time (s : State) (k : Nat) (x : Option Slot) : (s.setSlot k x).time = s.time := rfl
@[simp] theorem State.setSlot_seqNo (s : State) (k : Nat) (x : Option Slot) : (s.setSlot k x).seqNo = s.seqNo := rfl
@[simp] theorem State.setSlot_fresh (s : State) (k : Nat) (x : Option Slot) : (s.setSlot k x).fresh = s.fresh := rfl
@[simp] theorem State.setSlot_stalls (s : State) (k : Nat) (x : Option Slot) : (s.setSlot k x).stalls = s.stalls := rfl
@[simp] theorem State.setSlot_cores (s : State) (k : Nat) (x : Option Slot) : (s.setSlot k x).cores = s.cores := rfl
@[simp] theorem State.setSlot_records (s : State) (k : Nat) (x : Option Slot) : (s.setSlot k x).records = s.records := rfl
@[simp] theorem State.setSlot_sheds (s : State) (k : Nat) (x : Option Slot) : (s.setSlot k x).sheds = s.sheds := rfl
@[simp] theorem State.setSlot_mem (s : State) (k : Nat) (x : Option Slot) : (s.setSlot k x).mem = s.mem := rfl
@[simp] theorem State.setSlot_ops (s : State) (k : Nat) (x : Option Slot) : (s.setSlot k x).ops = s.ops := rfl
@[simp] theorem State.setSlot_waiters (s : State) (k : Nat) (x : Option Slot) : (s.setSlot k x).waiters = s.waiters := rfl
@[simp] theorem State.setSlot_tgens (s : State) (k : Nat) (x : Option Slot) : (s.setSlot k x).tgens = s.tgens := rfl
@[simp] theorem State.setSlot_ports (s : State) (k : Nat) (x : Option Slot) : (s.setSlot k x).ports = s.ports := rfl
@[simp] theorem State.setSlot_xl (s : State) (k : Nat) (x : Option Slot) : (s.setSlot k x).xl = s.xl := rfl
@[simp] theorem State.setSlot_xpages (s : State) (k : Nat) (x : Option Slot) : (s.setSlot k x).xpages = s.xpages := rfl
@[simp] theorem State.setSlot_tlbs (s : State) (k : Nat) (x : Option Slot) : (s.setSlot k x).tlbs = s.tlbs := rfl
@[simp] theorem State.setSlot_walkc (s : State) (k : Nat) (x : Option Slot) : (s.setSlot k x).walkc = s.walkc := rfl
@[simp] theorem State.setSlot_berths (s : State) (k : Nat) (x : Option Slot) : (s.setSlot k x).berths = s.berths := rfl
@[simp] theorem State.setSlot_dict (s : State) (k : Nat) (x : Option Slot) : (s.setSlot k x).dict = s.dict := rfl
@[simp] theorem State.setSlot_applied (s : State) (k : Nat) (x : Option Slot) : (s.setSlot k x).applied = s.applied := rfl
@[simp] theorem State.setSlot_errorLines (s : State) (k : Nat) (x : Option Slot) : (s.setSlot k x).errorLines = s.errorLines := rfl
@[simp] theorem State.setSlot_watchMask (s : State) (k : Nat) (x : Option Slot) : (s.setSlot k x).watchMask = s.watchMask := rfl
@[simp] theorem State.setSlot_compass (s : State) (k : Nat) (x : Option Slot) : (s.setSlot k x).compass = s.compass := rfl
@[simp] theorem State.setSlot_inbox (s : State) (k : Nat) (x : Option Slot) : (s.setSlot k x).inbox = s.inbox := rfl
@[simp] theorem State.setSlot_homeWait (s : State) (k : Nat) (x : Option Slot) : (s.setSlot k x).homeWait = s.homeWait := rfl
@[simp] theorem State.setSlot_resent (s : State) (k : Nat) (x : Option Slot) : (s.setSlot k x).resent = s.resent := rfl
@[simp] theorem State.setSlot_injBerth (s : State) (k : Nat) (x : Option Slot) : (s.setSlot k x).injBerth = s.injBerth := rfl
@[simp] theorem State.setSlot_injLeft (s : State) (k : Nat) (x : Option Slot) : (s.setSlot k x).injLeft = s.injLeft := rfl
@[simp] theorem State.setSlot_links (s : State) (k : Nat) (x : Option Slot) : (s.setSlot k x).links = s.links := rfl
@[simp] theorem State.setSlot_sound (s : State) (k : Nat) (x : Option Slot) : (s.setSlot k x).sound = s.sound := rfl
@[simp] theorem State.setSlot_charts (s : State) (k : Nat) (x : Option Slot) : (s.setSlot k x).charts = s.charts := rfl
@[simp] theorem State.setSlot_tsOut (s : State) (k : Nat) (x : Option Slot) : (s.setSlot k x).tsOut = s.tsOut := rfl
@[simp] theorem State.setSlot_tsGood (s : State) (k : Nat) (x : Option Slot) : (s.setSlot k x).tsGood = s.tsGood := rfl
@[simp] theorem State.setSlot_tallies (s : State) (k : Nat) (x : Option Slot) : (s.setSlot k x).tallies = s.tallies := rfl
@[simp] theorem State.setSlot_arms (s : State) (k : Nat) (x : Option Slot) : (s.setSlot k x).arms = s.arms := rfl
@[simp] theorem State.setSlot_tallyRun (s : State) (k : Nat) (x : Option Slot) : (s.setSlot k x).tallyRun = s.tallyRun := rfl
@[simp] theorem State.setSlot_logbook (s : State) (k : Nat) (x : Option Slot) : (s.setSlot k x).logbook = s.logbook := rfl
@[simp] theorem State.setSlot_commits (s : State) (k : Nat) (x : Option Slot) : (s.setSlot k x).commits = s.commits := rfl
@[simp] theorem State.setSlot_dports (s : State) (k : Nat) (x : Option Slot) : (s.setSlot k x).dports = s.dports := rfl
@[simp] theorem State.setSlot_sessions (s : State) (k : Nat) (x : Option Slot) : (s.setSlot k x).sessions = s.sessions := rfl
@[simp] theorem State.setSlot_helmTx (s : State) (k : Nat) (x : Option Slot) : (s.setSlot k x).helmTx = s.helmTx := rfl
@[simp] theorem State.setSlot_busOff (s : State) (k : Nat) (x : Option Slot) : (s.setSlot k x).busOff = s.busOff := rfl
@[simp] theorem State.setSlot_stage (s : State) (k : Nat) (x : Option Slot) : (s.setSlot k x).stage = s.stage := rfl
@[simp] theorem State.setSlot_trace (s : State) (k : Nat) (x : Option Slot) : (s.setSlot k x).trace = s.trace := rfl
@[simp] theorem State.setSlot_reportTick (s : State) (k : Nat) (x : Option Slot) : (s.setSlot k x).reportTick = s.reportTick := rfl
@[simp] theorem State.setSlot_patchRam (s : State) (k : Nat) (x : Option Slot) : (s.setSlot k x).patchRam = s.patchRam := rfl
@[simp] theorem State.setSlot_patchRun (s : State) (k : Nat) (x : Option Slot) : (s.setSlot k x).patchRun = s.patchRun := rfl
@[simp] theorem State.setSlot_clkRun (s : State) (k : Nat) (x : Option Slot) : (s.setSlot k x).clkRun = s.clkRun := rfl
@[simp] theorem State.setSlot_clkWant (s : State) (k : Nat) (x : Option Slot) : (s.setSlot k x).clkWant = s.clkWant := rfl
@[simp] theorem State.setSlot_inReset (s : State) (k : Nat) (x : Option Slot) : (s.setSlot k x).inReset = s.inReset := rfl
@[simp] theorem State.setSlot_bootStep (s : State) (k : Nat) (x : Option Slot) : (s.setSlot k x).bootStep = s.bootStep := rfl
@[simp] theorem State.setSlot_pins (s : State) (k : Nat) (x : Option Slot) : (s.setSlot k x).pins = s.pins := rfl
@[simp] theorem State.setSlot_tap (s : State) (k : Nat) (x : Option Slot) : (s.setSlot k x).tap = s.tap := rfl
@[simp] theorem State.setSlot_host (s : State) (k : Nat) (x : Option Slot) : (s.setSlot k x).host = s.host := rfl
@[simp] theorem State.setSlot_isoLinks (s : State) (k : Nat) (x : Option Slot) : (s.setSlot k x).isoLinks = s.isoLinks := rfl
@[simp] theorem State.setSlot_isoIocs (s : State) (k : Nat) (x : Option Slot) : (s.setSlot k x).isoIocs = s.isoIocs := rfl

/-! ### setLink -/

@[simp] theorem State.setLink_pending (s : State) (k : Nat) (x : Link) : (s.setLink k x).pending = s.pending := rfl
@[simp] theorem State.setLink_time (s : State) (k : Nat) (x : Link) : (s.setLink k x).time = s.time := rfl
@[simp] theorem State.setLink_seqNo (s : State) (k : Nat) (x : Link) : (s.setLink k x).seqNo = s.seqNo := rfl
@[simp] theorem State.setLink_fresh (s : State) (k : Nat) (x : Link) : (s.setLink k x).fresh = s.fresh := rfl
@[simp] theorem State.setLink_stalls (s : State) (k : Nat) (x : Link) : (s.setLink k x).stalls = s.stalls := rfl
@[simp] theorem State.setLink_cores (s : State) (k : Nat) (x : Link) : (s.setLink k x).cores = s.cores := rfl
@[simp] theorem State.setLink_records (s : State) (k : Nat) (x : Link) : (s.setLink k x).records = s.records := rfl
@[simp] theorem State.setLink_sheds (s : State) (k : Nat) (x : Link) : (s.setLink k x).sheds = s.sheds := rfl
@[simp] theorem State.setLink_mem (s : State) (k : Nat) (x : Link) : (s.setLink k x).mem = s.mem := rfl
@[simp] theorem State.setLink_ops (s : State) (k : Nat) (x : Link) : (s.setLink k x).ops = s.ops := rfl
@[simp] theorem State.setLink_waiters (s : State) (k : Nat) (x : Link) : (s.setLink k x).waiters = s.waiters := rfl
@[simp] theorem State.setLink_slots (s : State) (k : Nat) (x : Link) : (s.setLink k x).slots = s.slots := rfl
@[simp] theorem State.setLink_tgens (s : State) (k : Nat) (x : Link) : (s.setLink k x).tgens = s.tgens := rfl
@[simp] theorem State.setLink_ports (s : State) (k : Nat) (x : Link) : (s.setLink k x).ports = s.ports := rfl
@[simp] theorem State.setLink_xl (s : State) (k : Nat) (x : Link) : (s.setLink k x).xl = s.xl := rfl
@[simp] theorem State.setLink_xpages (s : State) (k : Nat) (x : Link) : (s.setLink k x).xpages = s.xpages := rfl
@[simp] theorem State.setLink_tlbs (s : State) (k : Nat) (x : Link) : (s.setLink k x).tlbs = s.tlbs := rfl
@[simp] theorem State.setLink_walkc (s : State) (k : Nat) (x : Link) : (s.setLink k x).walkc = s.walkc := rfl
@[simp] theorem State.setLink_berths (s : State) (k : Nat) (x : Link) : (s.setLink k x).berths = s.berths := rfl
@[simp] theorem State.setLink_dict (s : State) (k : Nat) (x : Link) : (s.setLink k x).dict = s.dict := rfl
@[simp] theorem State.setLink_applied (s : State) (k : Nat) (x : Link) : (s.setLink k x).applied = s.applied := rfl
@[simp] theorem State.setLink_errorLines (s : State) (k : Nat) (x : Link) : (s.setLink k x).errorLines = s.errorLines := rfl
@[simp] theorem State.setLink_watchMask (s : State) (k : Nat) (x : Link) : (s.setLink k x).watchMask = s.watchMask := rfl
@[simp] theorem State.setLink_compass (s : State) (k : Nat) (x : Link) : (s.setLink k x).compass = s.compass := rfl
@[simp] theorem State.setLink_inbox (s : State) (k : Nat) (x : Link) : (s.setLink k x).inbox = s.inbox := rfl
@[simp] theorem State.setLink_homeWait (s : State) (k : Nat) (x : Link) : (s.setLink k x).homeWait = s.homeWait := rfl
@[simp] theorem State.setLink_resent (s : State) (k : Nat) (x : Link) : (s.setLink k x).resent = s.resent := rfl
@[simp] theorem State.setLink_injBerth (s : State) (k : Nat) (x : Link) : (s.setLink k x).injBerth = s.injBerth := rfl
@[simp] theorem State.setLink_injLeft (s : State) (k : Nat) (x : Link) : (s.setLink k x).injLeft = s.injLeft := rfl
@[simp] theorem State.setLink_sound (s : State) (k : Nat) (x : Link) : (s.setLink k x).sound = s.sound := rfl
@[simp] theorem State.setLink_charts (s : State) (k : Nat) (x : Link) : (s.setLink k x).charts = s.charts := rfl
@[simp] theorem State.setLink_tsOut (s : State) (k : Nat) (x : Link) : (s.setLink k x).tsOut = s.tsOut := rfl
@[simp] theorem State.setLink_tsGood (s : State) (k : Nat) (x : Link) : (s.setLink k x).tsGood = s.tsGood := rfl
@[simp] theorem State.setLink_tallies (s : State) (k : Nat) (x : Link) : (s.setLink k x).tallies = s.tallies := rfl
@[simp] theorem State.setLink_arms (s : State) (k : Nat) (x : Link) : (s.setLink k x).arms = s.arms := rfl
@[simp] theorem State.setLink_tallyRun (s : State) (k : Nat) (x : Link) : (s.setLink k x).tallyRun = s.tallyRun := rfl
@[simp] theorem State.setLink_logbook (s : State) (k : Nat) (x : Link) : (s.setLink k x).logbook = s.logbook := rfl
@[simp] theorem State.setLink_commits (s : State) (k : Nat) (x : Link) : (s.setLink k x).commits = s.commits := rfl
@[simp] theorem State.setLink_dports (s : State) (k : Nat) (x : Link) : (s.setLink k x).dports = s.dports := rfl
@[simp] theorem State.setLink_sessions (s : State) (k : Nat) (x : Link) : (s.setLink k x).sessions = s.sessions := rfl
@[simp] theorem State.setLink_helmTx (s : State) (k : Nat) (x : Link) : (s.setLink k x).helmTx = s.helmTx := rfl
@[simp] theorem State.setLink_busOff (s : State) (k : Nat) (x : Link) : (s.setLink k x).busOff = s.busOff := rfl
@[simp] theorem State.setLink_stage (s : State) (k : Nat) (x : Link) : (s.setLink k x).stage = s.stage := rfl
@[simp] theorem State.setLink_trace (s : State) (k : Nat) (x : Link) : (s.setLink k x).trace = s.trace := rfl
@[simp] theorem State.setLink_reportTick (s : State) (k : Nat) (x : Link) : (s.setLink k x).reportTick = s.reportTick := rfl
@[simp] theorem State.setLink_patchRam (s : State) (k : Nat) (x : Link) : (s.setLink k x).patchRam = s.patchRam := rfl
@[simp] theorem State.setLink_patchRun (s : State) (k : Nat) (x : Link) : (s.setLink k x).patchRun = s.patchRun := rfl
@[simp] theorem State.setLink_clkRun (s : State) (k : Nat) (x : Link) : (s.setLink k x).clkRun = s.clkRun := rfl
@[simp] theorem State.setLink_clkWant (s : State) (k : Nat) (x : Link) : (s.setLink k x).clkWant = s.clkWant := rfl
@[simp] theorem State.setLink_inReset (s : State) (k : Nat) (x : Link) : (s.setLink k x).inReset = s.inReset := rfl
@[simp] theorem State.setLink_bootStep (s : State) (k : Nat) (x : Link) : (s.setLink k x).bootStep = s.bootStep := rfl
@[simp] theorem State.setLink_pins (s : State) (k : Nat) (x : Link) : (s.setLink k x).pins = s.pins := rfl
@[simp] theorem State.setLink_tap (s : State) (k : Nat) (x : Link) : (s.setLink k x).tap = s.tap := rfl
@[simp] theorem State.setLink_host (s : State) (k : Nat) (x : Link) : (s.setLink k x).host = s.host := rfl
@[simp] theorem State.setLink_isoLinks (s : State) (k : Nat) (x : Link) : (s.setLink k x).isoLinks = s.isoLinks := rfl
@[simp] theorem State.setLink_isoIocs (s : State) (k : Nat) (x : Link) : (s.setLink k x).isoIocs = s.isoIocs := rfl

/-! ### setXpage -/

@[simp] theorem State.setXpage_pending (s : State) (k : Nat) (x : XPage) : (s.setXpage k x).pending = s.pending := rfl
@[simp] theorem State.setXpage_time (s : State) (k : Nat) (x : XPage) : (s.setXpage k x).time = s.time := rfl
@[simp] theorem State.setXpage_seqNo (s : State) (k : Nat) (x : XPage) : (s.setXpage k x).seqNo = s.seqNo := rfl
@[simp] theorem State.setXpage_fresh (s : State) (k : Nat) (x : XPage) : (s.setXpage k x).fresh = s.fresh := rfl
@[simp] theorem State.setXpage_stalls (s : State) (k : Nat) (x : XPage) : (s.setXpage k x).stalls = s.stalls := rfl
@[simp] theorem State.setXpage_cores (s : State) (k : Nat) (x : XPage) : (s.setXpage k x).cores = s.cores := rfl
@[simp] theorem State.setXpage_records (s : State) (k : Nat) (x : XPage) : (s.setXpage k x).records = s.records := rfl
@[simp] theorem State.setXpage_sheds (s : State) (k : Nat) (x : XPage) : (s.setXpage k x).sheds = s.sheds := rfl
@[simp] theorem State.setXpage_mem (s : State) (k : Nat) (x : XPage) : (s.setXpage k x).mem = s.mem := rfl
@[simp] theorem State.setXpage_ops (s : State) (k : Nat) (x : XPage) : (s.setXpage k x).ops = s.ops := rfl
@[simp] theorem State.setXpage_waiters (s : State) (k : Nat) (x : XPage) : (s.setXpage k x).waiters = s.waiters := rfl
@[simp] theorem State.setXpage_slots (s : State) (k : Nat) (x : XPage) : (s.setXpage k x).slots = s.slots := rfl
@[simp] theorem State.setXpage_tgens (s : State) (k : Nat) (x : XPage) : (s.setXpage k x).tgens = s.tgens := rfl
@[simp] theorem State.setXpage_ports (s : State) (k : Nat) (x : XPage) : (s.setXpage k x).ports = s.ports := rfl
@[simp] theorem State.setXpage_xl (s : State) (k : Nat) (x : XPage) : (s.setXpage k x).xl = s.xl := rfl
@[simp] theorem State.setXpage_tlbs (s : State) (k : Nat) (x : XPage) : (s.setXpage k x).tlbs = s.tlbs := rfl
@[simp] theorem State.setXpage_walkc (s : State) (k : Nat) (x : XPage) : (s.setXpage k x).walkc = s.walkc := rfl
@[simp] theorem State.setXpage_berths (s : State) (k : Nat) (x : XPage) : (s.setXpage k x).berths = s.berths := rfl
@[simp] theorem State.setXpage_dict (s : State) (k : Nat) (x : XPage) : (s.setXpage k x).dict = s.dict := rfl
@[simp] theorem State.setXpage_applied (s : State) (k : Nat) (x : XPage) : (s.setXpage k x).applied = s.applied := rfl
@[simp] theorem State.setXpage_errorLines (s : State) (k : Nat) (x : XPage) : (s.setXpage k x).errorLines = s.errorLines := rfl
@[simp] theorem State.setXpage_watchMask (s : State) (k : Nat) (x : XPage) : (s.setXpage k x).watchMask = s.watchMask := rfl
@[simp] theorem State.setXpage_compass (s : State) (k : Nat) (x : XPage) : (s.setXpage k x).compass = s.compass := rfl
@[simp] theorem State.setXpage_inbox (s : State) (k : Nat) (x : XPage) : (s.setXpage k x).inbox = s.inbox := rfl
@[simp] theorem State.setXpage_homeWait (s : State) (k : Nat) (x : XPage) : (s.setXpage k x).homeWait = s.homeWait := rfl
@[simp] theorem State.setXpage_resent (s : State) (k : Nat) (x : XPage) : (s.setXpage k x).resent = s.resent := rfl
@[simp] theorem State.setXpage_injBerth (s : State) (k : Nat) (x : XPage) : (s.setXpage k x).injBerth = s.injBerth := rfl
@[simp] theorem State.setXpage_injLeft (s : State) (k : Nat) (x : XPage) : (s.setXpage k x).injLeft = s.injLeft := rfl
@[simp] theorem State.setXpage_links (s : State) (k : Nat) (x : XPage) : (s.setXpage k x).links = s.links := rfl
@[simp] theorem State.setXpage_sound (s : State) (k : Nat) (x : XPage) : (s.setXpage k x).sound = s.sound := rfl
@[simp] theorem State.setXpage_charts (s : State) (k : Nat) (x : XPage) : (s.setXpage k x).charts = s.charts := rfl
@[simp] theorem State.setXpage_tsOut (s : State) (k : Nat) (x : XPage) : (s.setXpage k x).tsOut = s.tsOut := rfl
@[simp] theorem State.setXpage_tsGood (s : State) (k : Nat) (x : XPage) : (s.setXpage k x).tsGood = s.tsGood := rfl
@[simp] theorem State.setXpage_tallies (s : State) (k : Nat) (x : XPage) : (s.setXpage k x).tallies = s.tallies := rfl
@[simp] theorem State.setXpage_arms (s : State) (k : Nat) (x : XPage) : (s.setXpage k x).arms = s.arms := rfl
@[simp] theorem State.setXpage_tallyRun (s : State) (k : Nat) (x : XPage) : (s.setXpage k x).tallyRun = s.tallyRun := rfl
@[simp] theorem State.setXpage_logbook (s : State) (k : Nat) (x : XPage) : (s.setXpage k x).logbook = s.logbook := rfl
@[simp] theorem State.setXpage_commits (s : State) (k : Nat) (x : XPage) : (s.setXpage k x).commits = s.commits := rfl
@[simp] theorem State.setXpage_dports (s : State) (k : Nat) (x : XPage) : (s.setXpage k x).dports = s.dports := rfl
@[simp] theorem State.setXpage_sessions (s : State) (k : Nat) (x : XPage) : (s.setXpage k x).sessions = s.sessions := rfl
@[simp] theorem State.setXpage_helmTx (s : State) (k : Nat) (x : XPage) : (s.setXpage k x).helmTx = s.helmTx := rfl
@[simp] theorem State.setXpage_busOff (s : State) (k : Nat) (x : XPage) : (s.setXpage k x).busOff = s.busOff := rfl
@[simp] theorem State.setXpage_stage (s : State) (k : Nat) (x : XPage) : (s.setXpage k x).stage = s.stage := rfl
@[simp] theorem State.setXpage_trace (s : State) (k : Nat) (x : XPage) : (s.setXpage k x).trace = s.trace := rfl
@[simp] theorem State.setXpage_reportTick (s : State) (k : Nat) (x : XPage) : (s.setXpage k x).reportTick = s.reportTick := rfl
@[simp] theorem State.setXpage_patchRam (s : State) (k : Nat) (x : XPage) : (s.setXpage k x).patchRam = s.patchRam := rfl
@[simp] theorem State.setXpage_patchRun (s : State) (k : Nat) (x : XPage) : (s.setXpage k x).patchRun = s.patchRun := rfl
@[simp] theorem State.setXpage_clkRun (s : State) (k : Nat) (x : XPage) : (s.setXpage k x).clkRun = s.clkRun := rfl
@[simp] theorem State.setXpage_clkWant (s : State) (k : Nat) (x : XPage) : (s.setXpage k x).clkWant = s.clkWant := rfl
@[simp] theorem State.setXpage_inReset (s : State) (k : Nat) (x : XPage) : (s.setXpage k x).inReset = s.inReset := rfl
@[simp] theorem State.setXpage_bootStep (s : State) (k : Nat) (x : XPage) : (s.setXpage k x).bootStep = s.bootStep := rfl
@[simp] theorem State.setXpage_pins (s : State) (k : Nat) (x : XPage) : (s.setXpage k x).pins = s.pins := rfl
@[simp] theorem State.setXpage_tap (s : State) (k : Nat) (x : XPage) : (s.setXpage k x).tap = s.tap := rfl
@[simp] theorem State.setXpage_host (s : State) (k : Nat) (x : XPage) : (s.setXpage k x).host = s.host := rfl
@[simp] theorem State.setXpage_isoLinks (s : State) (k : Nat) (x : XPage) : (s.setXpage k x).isoLinks = s.isoLinks := rfl
@[simp] theorem State.setXpage_isoIocs (s : State) (k : Nat) (x : XPage) : (s.setXpage k x).isoIocs = s.isoIocs := rfl

/-! ### setEnt -/

@[simp] theorem State.setEnt_pending (s : State) (i j v : Nat) : (s.setEnt i j v).pending = s.pending := rfl
@[simp] theorem State.setEnt_time (s : State) (i j v : Nat) : (s.setEnt i j v).time = s.time := rfl
@[simp] theorem State.setEnt_seqNo (s : State) (i j v : Nat) : (s.setEnt i j v).seqNo = s.seqNo := rfl
@[simp] theorem State.setEnt_fresh (s : State) (i j v : Nat) : (s.setEnt i j v).fresh = s.fresh := rfl
@[simp] theorem State.setEnt_stalls (s : State) (i j v : Nat) : (s.setEnt i j v).stalls = s.stalls := rfl
@[simp] theorem State.setEnt_cores (s : State) (i j v : Nat) : (s.setEnt i j v).cores = s.cores := rfl
@[simp] theorem State.setEnt_records (s : State) (i j v : Nat) : (s.setEnt i j v).records = s.records := rfl
@[simp] theorem State.setEnt_sheds (s : State) (i j v : Nat) : (s.setEnt i j v).sheds = s.sheds := rfl
@[simp] theorem State.setEnt_mem (s : State) (i j v : Nat) : (s.setEnt i j v).mem = s.mem := rfl
@[simp] theorem State.setEnt_ops (s : State) (i j v : Nat) : (s.setEnt i j v).ops = s.ops := rfl
@[simp] theorem State.setEnt_waiters (s : State) (i j v : Nat) : (s.setEnt i j v).waiters = s.waiters := rfl
@[simp] theorem State.setEnt_slots (s : State) (i j v : Nat) : (s.setEnt i j v).slots = s.slots := rfl
@[simp] theorem State.setEnt_tgens (s : State) (i j v : Nat) : (s.setEnt i j v).tgens = s.tgens := rfl
@[simp] theorem State.setEnt_ports (s : State) (i j v : Nat) : (s.setEnt i j v).ports = s.ports := rfl
@[simp] theorem State.setEnt_xl (s : State) (i j v : Nat) : (s.setEnt i j v).xl = s.xl := rfl
@[simp] theorem State.setEnt_xpages (s : State) (i j v : Nat) : (s.setEnt i j v).xpages = s.xpages := rfl
@[simp] theorem State.setEnt_tlbs (s : State) (i j v : Nat) : (s.setEnt i j v).tlbs = s.tlbs := rfl
@[simp] theorem State.setEnt_walkc (s : State) (i j v : Nat) : (s.setEnt i j v).walkc = s.walkc := rfl
@[simp] theorem State.setEnt_berths (s : State) (i j v : Nat) : (s.setEnt i j v).berths = s.berths := rfl
@[simp] theorem State.setEnt_applied (s : State) (i j v : Nat) : (s.setEnt i j v).applied = s.applied := rfl
@[simp] theorem State.setEnt_errorLines (s : State) (i j v : Nat) : (s.setEnt i j v).errorLines = s.errorLines := rfl
@[simp] theorem State.setEnt_watchMask (s : State) (i j v : Nat) : (s.setEnt i j v).watchMask = s.watchMask := rfl
@[simp] theorem State.setEnt_compass (s : State) (i j v : Nat) : (s.setEnt i j v).compass = s.compass := rfl
@[simp] theorem State.setEnt_inbox (s : State) (i j v : Nat) : (s.setEnt i j v).inbox = s.inbox := rfl
@[simp] theorem State.setEnt_homeWait (s : State) (i j v : Nat) : (s.setEnt i j v).homeWait = s.homeWait := rfl
@[simp] theorem State.setEnt_resent (s : State) (i j v : Nat) : (s.setEnt i j v).resent = s.resent := rfl
@[simp] theorem State.setEnt_injBerth (s : State) (i j v : Nat) : (s.setEnt i j v).injBerth = s.injBerth := rfl
@[simp] theorem State.setEnt_injLeft (s : State) (i j v : Nat) : (s.setEnt i j v).injLeft = s.injLeft := rfl
@[simp] theorem State.setEnt_links (s : State) (i j v : Nat) : (s.setEnt i j v).links = s.links := rfl
@[simp] theorem State.setEnt_sound (s : State) (i j v : Nat) : (s.setEnt i j v).sound = s.sound := rfl
@[simp] theorem State.setEnt_charts (s : State) (i j v : Nat) : (s.setEnt i j v).charts = s.charts := rfl
@[simp] theorem State.setEnt_tsOut (s : State) (i j v : Nat) : (s.setEnt i j v).tsOut = s.tsOut := rfl
@[simp] theorem State.setEnt_tsGood (s : State) (i j v : Nat) : (s.setEnt i j v).tsGood = s.tsGood := rfl
@[simp] theorem State.setEnt_tallies (s : State) (i j v : Nat) : (s.setEnt i j v).tallies = s.tallies := rfl
@[simp] theorem State.setEnt_arms (s : State) (i j v : Nat) : (s.setEnt i j v).arms = s.arms := rfl
@[simp] theorem State.setEnt_tallyRun (s : State) (i j v : Nat) : (s.setEnt i j v).tallyRun = s.tallyRun := rfl
@[simp] theorem State.setEnt_logbook (s : State) (i j v : Nat) : (s.setEnt i j v).logbook = s.logbook := rfl
@[simp] theorem State.setEnt_commits (s : State) (i j v : Nat) : (s.setEnt i j v).commits = s.commits := rfl
@[simp] theorem State.setEnt_dports (s : State) (i j v : Nat) : (s.setEnt i j v).dports = s.dports := rfl
@[simp] theorem State.setEnt_sessions (s : State) (i j v : Nat) : (s.setEnt i j v).sessions = s.sessions := rfl
@[simp] theorem State.setEnt_helmTx (s : State) (i j v : Nat) : (s.setEnt i j v).helmTx = s.helmTx := rfl
@[simp] theorem State.setEnt_busOff (s : State) (i j v : Nat) : (s.setEnt i j v).busOff = s.busOff := rfl
@[simp] theorem State.setEnt_stage (s : State) (i j v : Nat) : (s.setEnt i j v).stage = s.stage := rfl
@[simp] theorem State.setEnt_trace (s : State) (i j v : Nat) : (s.setEnt i j v).trace = s.trace := rfl
@[simp] theorem State.setEnt_reportTick (s : State) (i j v : Nat) : (s.setEnt i j v).reportTick = s.reportTick := rfl
@[simp] theorem State.setEnt_patchRam (s : State) (i j v : Nat) : (s.setEnt i j v).patchRam = s.patchRam := rfl
@[simp] theorem State.setEnt_patchRun (s : State) (i j v : Nat) : (s.setEnt i j v).patchRun = s.patchRun := rfl
@[simp] theorem State.setEnt_clkRun (s : State) (i j v : Nat) : (s.setEnt i j v).clkRun = s.clkRun := rfl
@[simp] theorem State.setEnt_clkWant (s : State) (i j v : Nat) : (s.setEnt i j v).clkWant = s.clkWant := rfl
@[simp] theorem State.setEnt_inReset (s : State) (i j v : Nat) : (s.setEnt i j v).inReset = s.inReset := rfl
@[simp] theorem State.setEnt_bootStep (s : State) (i j v : Nat) : (s.setEnt i j v).bootStep = s.bootStep := rfl
@[simp] theorem State.setEnt_pins (s : State) (i j v : Nat) : (s.setEnt i j v).pins = s.pins := rfl
@[simp] theorem State.setEnt_tap (s : State) (i j v : Nat) : (s.setEnt i j v).tap = s.tap := rfl
@[simp] theorem State.setEnt_host (s : State) (i j v : Nat) : (s.setEnt i j v).host = s.host := rfl
@[simp] theorem State.setEnt_isoLinks (s : State) (i j v : Nat) : (s.setEnt i j v).isoLinks = s.isoLinks := rfl
@[simp] theorem State.setEnt_isoIocs (s : State) (i j v : Nat) : (s.setEnt i j v).isoIocs = s.isoIocs := rfl

/-! ### setApp -/

@[simp] theorem State.setApp_pending (s : State) (i j v : Nat) : (s.setApp i j v).pending = s.pending := rfl
@[simp] theorem State.setApp_time (s : State) (i j v : Nat) : (s.setApp i j v).time = s.time := rfl
@[simp] theorem State.setApp_seqNo (s : State) (i j v : Nat) : (s.setApp i j v).seqNo = s.seqNo := rfl
@[simp] theorem State.setApp_fresh (s : State) (i j v : Nat) : (s.setApp i j v).fresh = s.fresh := rfl
@[simp] theorem State.setApp_stalls (s : State) (i j v : Nat) : (s.setApp i j v).stalls = s.stalls := rfl
@[simp] theorem State.setApp_cores (s : State) (i j v : Nat) : (s.setApp i j v).cores = s.cores := rfl
@[simp] theorem State.setApp_records (s : State) (i j v : Nat) : (s.setApp i j v).records = s.records := rfl
@[simp] theorem State.setApp_sheds (s : State) (i j v : Nat) : (s.setApp i j v).sheds = s.sheds := rfl
@[simp] theorem State.setApp_mem (s : State) (i j v : Nat) : (s.setApp i j v).mem = s.mem := rfl
@[simp] theorem State.setApp_ops (s : State) (i j v : Nat) : (s.setApp i j v).ops = s.ops := rfl
@[simp] theorem State.setApp_waiters (s : State) (i j v : Nat) : (s.setApp i j v).waiters = s.waiters := rfl
@[simp] theorem State.setApp_slots (s : State) (i j v : Nat) : (s.setApp i j v).slots = s.slots := rfl
@[simp] theorem State.setApp_tgens (s : State) (i j v : Nat) : (s.setApp i j v).tgens = s.tgens := rfl
@[simp] theorem State.setApp_ports (s : State) (i j v : Nat) : (s.setApp i j v).ports = s.ports := rfl
@[simp] theorem State.setApp_xl (s : State) (i j v : Nat) : (s.setApp i j v).xl = s.xl := rfl
@[simp] theorem State.setApp_xpages (s : State) (i j v : Nat) : (s.setApp i j v).xpages = s.xpages := rfl
@[simp] theorem State.setApp_tlbs (s : State) (i j v : Nat) : (s.setApp i j v).tlbs = s.tlbs := rfl
@[simp] theorem State.setApp_walkc (s : State) (i j v : Nat) : (s.setApp i j v).walkc = s.walkc := rfl
@[simp] theorem State.setApp_berths (s : State) (i j v : Nat) : (s.setApp i j v).berths = s.berths := rfl
@[simp] theorem State.setApp_dict (s : State) (i j v : Nat) : (s.setApp i j v).dict = s.dict := rfl
@[simp] theorem State.setApp_errorLines (s : State) (i j v : Nat) : (s.setApp i j v).errorLines = s.errorLines := rfl
@[simp] theorem State.setApp_watchMask (s : State) (i j v : Nat) : (s.setApp i j v).watchMask = s.watchMask := rfl
@[simp] theorem State.setApp_compass (s : State) (i j v : Nat) : (s.setApp i j v).compass = s.compass := rfl
@[simp] theorem State.setApp_inbox (s : State) (i j v : Nat) : (s.setApp i j v).inbox = s.inbox := rfl
@[simp] theorem State.setApp_homeWait (s : State) (i j v : Nat) : (s.setApp i j v).homeWait = s.homeWait := rfl
@[simp] theorem State.setApp_resent (s : State) (i j v : Nat) : (s.setApp i j v).resent = s.resent := rfl
@[simp] theorem State.setApp_injBerth (s : State) (i j v : Nat) : (s.setApp i j v).injBerth = s.injBerth := rfl
@[simp] theorem State.setApp_injLeft (s : State) (i j v : Nat) : (s.setApp i j v).injLeft = s.injLeft := rfl
@[simp] theorem State.setApp_links (s : State) (i j v : Nat) : (s.setApp i j v).links = s.links := rfl
@[simp] theorem State.setApp_sound (s : State) (i j v : Nat) : (s.setApp i j v).sound = s.sound := rfl
@[simp] theorem State.setApp_charts (s : State) (i j v : Nat) : (s.setApp i j v).charts = s.charts := rfl
@[simp] theorem State.setApp_tsOut (s : State) (i j v : Nat) : (s.setApp i j v).tsOut = s.tsOut := rfl
@[simp] theorem State.setApp_tsGood (s : State) (i j v : Nat) : (s.setApp i j v).tsGood = s.tsGood := rfl
@[simp] theorem State.setApp_tallies (s : State) (i j v : Nat) : (s.setApp i j v).tallies = s.tallies := rfl
@[simp] theorem State.setApp_arms (s : State) (i j v : Nat) : (s.setApp i j v).arms = s.arms := rfl
@[simp] theorem State.setApp_tallyRun (s : State) (i j v : Nat) : (s.setApp i j v).tallyRun = s.tallyRun := rfl
@[simp] theorem State.setApp_logbook (s : State) (i j v : Nat) : (s.setApp i j v).logbook = s.logbook := rfl
@[simp] theorem State.setApp_commits (s : State) (i j v : Nat) : (s.setApp i j v).commits = s.commits := rfl
@[simp] theorem State.setApp_dports (s : State) (i j v : Nat) : (s.setApp i j v).dports = s.dports := rfl
@[simp] theorem State.setApp_sessions (s : State) (i j v : Nat) : (s.setApp i j v).sessions = s.sessions := rfl
@[simp] theorem State.setApp_helmTx (s : State) (i j v : Nat) : (s.setApp i j v).helmTx = s.helmTx := rfl
@[simp] theorem State.setApp_busOff (s : State) (i j v : Nat) : (s.setApp i j v).busOff = s.busOff := rfl
@[simp] theorem State.setApp_stage (s : State) (i j v : Nat) : (s.setApp i j v).stage = s.stage := rfl
@[simp] theorem State.setApp_trace (s : State) (i j v : Nat) : (s.setApp i j v).trace = s.trace := rfl
@[simp] theorem State.setApp_reportTick (s : State) (i j v : Nat) : (s.setApp i j v).reportTick = s.reportTick := rfl
@[simp] theorem State.setApp_patchRam (s : State) (i j v : Nat) : (s.setApp i j v).patchRam = s.patchRam := rfl
@[simp] theorem State.setApp_patchRun (s : State) (i j v : Nat) : (s.setApp i j v).patchRun = s.patchRun := rfl
@[simp] theorem State.setApp_clkRun (s : State) (i j v : Nat) : (s.setApp i j v).clkRun = s.clkRun := rfl
@[simp] theorem State.setApp_clkWant (s : State) (i j v : Nat) : (s.setApp i j v).clkWant = s.clkWant := rfl
@[simp] theorem State.setApp_inReset (s : State) (i j v : Nat) : (s.setApp i j v).inReset = s.inReset := rfl
@[simp] theorem State.setApp_bootStep (s : State) (i j v : Nat) : (s.setApp i j v).bootStep = s.bootStep := rfl
@[simp] theorem State.setApp_pins (s : State) (i j v : Nat) : (s.setApp i j v).pins = s.pins := rfl
@[simp] theorem State.setApp_tap (s : State) (i j v : Nat) : (s.setApp i j v).tap = s.tap := rfl
@[simp] theorem State.setApp_host (s : State) (i j v : Nat) : (s.setApp i j v).host = s.host := rfl
@[simp] theorem State.setApp_isoLinks (s : State) (i j v : Nat) : (s.setApp i j v).isoLinks = s.isoLinks := rfl
@[simp] theorem State.setApp_isoIocs (s : State) (i j v : Nat) : (s.setApp i j v).isoIocs = s.isoIocs := rfl

/-! ### mset -/

@[simp] theorem State.mset_pending (s : State) (k : Nat) (m : MGran) : (s.mset k m).pending = s.pending := rfl
@[simp] theorem State.mset_time (s : State) (k : Nat) (m : MGran) : (s.mset k m).time = s.time := rfl
@[simp] theorem State.mset_seqNo (s : State) (k : Nat) (m : MGran) : (s.mset k m).seqNo = s.seqNo := rfl
@[simp] theorem State.mset_fresh (s : State) (k : Nat) (m : MGran) : (s.mset k m).fresh = s.fresh := rfl
@[simp] theorem State.mset_stalls (s : State) (k : Nat) (m : MGran) : (s.mset k m).stalls = s.stalls := rfl
@[simp] theorem State.mset_cores (s : State) (k : Nat) (m : MGran) : (s.mset k m).cores = s.cores := rfl
@[simp] theorem State.mset_records (s : State) (k : Nat) (m : MGran) : (s.mset k m).records = s.records := rfl
@[simp] theorem State.mset_sheds (s : State) (k : Nat) (m : MGran) : (s.mset k m).sheds = s.sheds := rfl
@[simp] theorem State.mset_ops (s : State) (k : Nat) (m : MGran) : (s.mset k m).ops = s.ops := rfl
@[simp] theorem State.mset_waiters (s : State) (k : Nat) (m : MGran) : (s.mset k m).waiters = s.waiters := rfl
@[simp] theorem State.mset_slots (s : State) (k : Nat) (m : MGran) : (s.mset k m).slots = s.slots := rfl
@[simp] theorem State.mset_tgens (s : State) (k : Nat) (m : MGran) : (s.mset k m).tgens = s.tgens := rfl
@[simp] theorem State.mset_ports (s : State) (k : Nat) (m : MGran) : (s.mset k m).ports = s.ports := rfl
@[simp] theorem State.mset_xl (s : State) (k : Nat) (m : MGran) : (s.mset k m).xl = s.xl := rfl
@[simp] theorem State.mset_xpages (s : State) (k : Nat) (m : MGran) : (s.mset k m).xpages = s.xpages := rfl
@[simp] theorem State.mset_tlbs (s : State) (k : Nat) (m : MGran) : (s.mset k m).tlbs = s.tlbs := rfl
@[simp] theorem State.mset_walkc (s : State) (k : Nat) (m : MGran) : (s.mset k m).walkc = s.walkc := rfl
@[simp] theorem State.mset_berths (s : State) (k : Nat) (m : MGran) : (s.mset k m).berths = s.berths := rfl
@[simp] theorem State.mset_dict (s : State) (k : Nat) (m : MGran) : (s.mset k m).dict = s.dict := rfl
@[simp] theorem State.mset_applied (s : State) (k : Nat) (m : MGran) : (s.mset k m).applied = s.applied := rfl
@[simp] theorem State.mset_errorLines (s : State) (k : Nat) (m : MGran) : (s.mset k m).errorLines = s.errorLines := rfl
@[simp] theorem State.mset_watchMask (s : State) (k : Nat) (m : MGran) : (s.mset k m).watchMask = s.watchMask := rfl
@[simp] theorem State.mset_compass (s : State) (k : Nat) (m : MGran) : (s.mset k m).compass = s.compass := rfl
@[simp] theorem State.mset_inbox (s : State) (k : Nat) (m : MGran) : (s.mset k m).inbox = s.inbox := rfl
@[simp] theorem State.mset_homeWait (s : State) (k : Nat) (m : MGran) : (s.mset k m).homeWait = s.homeWait := rfl
@[simp] theorem State.mset_resent (s : State) (k : Nat) (m : MGran) : (s.mset k m).resent = s.resent := rfl
@[simp] theorem State.mset_injBerth (s : State) (k : Nat) (m : MGran) : (s.mset k m).injBerth = s.injBerth := rfl
@[simp] theorem State.mset_injLeft (s : State) (k : Nat) (m : MGran) : (s.mset k m).injLeft = s.injLeft := rfl
@[simp] theorem State.mset_links (s : State) (k : Nat) (m : MGran) : (s.mset k m).links = s.links := rfl
@[simp] theorem State.mset_sound (s : State) (k : Nat) (m : MGran) : (s.mset k m).sound = s.sound := rfl
@[simp] theorem State.mset_charts (s : State) (k : Nat) (m : MGran) : (s.mset k m).charts = s.charts := rfl
@[simp] theorem State.mset_tsOut (s : State) (k : Nat) (m : MGran) : (s.mset k m).tsOut = s.tsOut := rfl
@[simp] theorem State.mset_tsGood (s : State) (k : Nat) (m : MGran) : (s.mset k m).tsGood = s.tsGood := rfl
@[simp] theorem State.mset_tallies (s : State) (k : Nat) (m : MGran) : (s.mset k m).tallies = s.tallies := rfl
@[simp] theorem State.mset_arms (s : State) (k : Nat) (m : MGran) : (s.mset k m).arms = s.arms := rfl
@[simp] theorem State.mset_tallyRun (s : State) (k : Nat) (m : MGran) : (s.mset k m).tallyRun = s.tallyRun := rfl
@[simp] theorem State.mset_logbook (s : State) (k : Nat) (m : MGran) : (s.mset k m).logbook = s.logbook := rfl
@[simp] theorem State.mset_commits (s : State) (k : Nat) (m : MGran) : (s.mset k m).commits = s.commits := rfl
@[simp] theorem State.mset_dports (s : State) (k : Nat) (m : MGran) : (s.mset k m).dports = s.dports := rfl
@[simp] theorem State.mset_sessions (s : State) (k : Nat) (m : MGran) : (s.mset k m).sessions = s.sessions := rfl
@[simp] theorem State.mset_helmTx (s : State) (k : Nat) (m : MGran) : (s.mset k m).helmTx = s.helmTx := rfl
@[simp] theorem State.mset_busOff (s : State) (k : Nat) (m : MGran) : (s.mset k m).busOff = s.busOff := rfl
@[simp] theorem State.mset_stage (s : State) (k : Nat) (m : MGran) : (s.mset k m).stage = s.stage := rfl
@[simp] theorem State.mset_trace (s : State) (k : Nat) (m : MGran) : (s.mset k m).trace = s.trace := rfl
@[simp] theorem State.mset_reportTick (s : State) (k : Nat) (m : MGran) : (s.mset k m).reportTick = s.reportTick := rfl
@[simp] theorem State.mset_patchRam (s : State) (k : Nat) (m : MGran) : (s.mset k m).patchRam = s.patchRam := rfl
@[simp] theorem State.mset_patchRun (s : State) (k : Nat) (m : MGran) : (s.mset k m).patchRun = s.patchRun := rfl
@[simp] theorem State.mset_clkRun (s : State) (k : Nat) (m : MGran) : (s.mset k m).clkRun = s.clkRun := rfl
@[simp] theorem State.mset_clkWant (s : State) (k : Nat) (m : MGran) : (s.mset k m).clkWant = s.clkWant := rfl
@[simp] theorem State.mset_inReset (s : State) (k : Nat) (m : MGran) : (s.mset k m).inReset = s.inReset := rfl
@[simp] theorem State.mset_bootStep (s : State) (k : Nat) (m : MGran) : (s.mset k m).bootStep = s.bootStep := rfl
@[simp] theorem State.mset_pins (s : State) (k : Nat) (m : MGran) : (s.mset k m).pins = s.pins := rfl
@[simp] theorem State.mset_tap (s : State) (k : Nat) (m : MGran) : (s.mset k m).tap = s.tap := rfl
@[simp] theorem State.mset_host (s : State) (k : Nat) (m : MGran) : (s.mset k m).host = s.host := rfl
@[simp] theorem State.mset_isoLinks (s : State) (k : Nat) (m : MGran) : (s.mset k m).isoLinks = s.isoLinks := rfl
@[simp] theorem State.mset_isoIocs (s : State) (k : Nat) (m : MGran) : (s.mset k m).isoIocs = s.isoIocs := rfl

/-! ### raise -/

@[simp] theorem State.raise_pending (s : State) (r : Report) : (s.raise r).pending = s.pending := rfl
@[simp] theorem State.raise_time (s : State) (r : Report) : (s.raise r).time = s.time := rfl
@[simp] theorem State.raise_seqNo (s : State) (r : Report) : (s.raise r).seqNo = s.seqNo := rfl
@[simp] theorem State.raise_fresh (s : State) (r : Report) : (s.raise r).fresh = s.fresh := rfl
@[simp] theorem State.raise_stalls (s : State) (r : Report) : (s.raise r).stalls = s.stalls := rfl
@[simp] theorem State.raise_cores (s : State) (r : Report) : (s.raise r).cores = s.cores := rfl
@[simp] theorem State.raise_records (s : State) (r : Report) : (s.raise r).records = s.records := rfl
@[simp] theorem State.raise_sheds (s : State) (r : Report) : (s.raise r).sheds = s.sheds := rfl
@[simp] theorem State.raise_mem (s : State) (r : Report) : (s.raise r).mem = s.mem := rfl
@[simp] theorem State.raise_ops (s : State) (r : Report) : (s.raise r).ops = s.ops := rfl
@[simp] theorem State.raise_waiters (s : State) (r : Report) : (s.raise r).waiters = s.waiters := rfl
@[simp] theorem State.raise_slots (s : State) (r : Report) : (s.raise r).slots = s.slots := rfl
@[simp] theorem State.raise_tgens (s : State) (r : Report) : (s.raise r).tgens = s.tgens := rfl
@[simp] theorem State.raise_ports (s : State) (r : Report) : (s.raise r).ports = s.ports := rfl
@[simp] theorem State.raise_xl (s : State) (r : Report) : (s.raise r).xl = s.xl := rfl
@[simp] theorem State.raise_xpages (s : State) (r : Report) : (s.raise r).xpages = s.xpages := rfl
@[simp] theorem State.raise_tlbs (s : State) (r : Report) : (s.raise r).tlbs = s.tlbs := rfl
@[simp] theorem State.raise_walkc (s : State) (r : Report) : (s.raise r).walkc = s.walkc := rfl
@[simp] theorem State.raise_berths (s : State) (r : Report) : (s.raise r).berths = s.berths := rfl
@[simp] theorem State.raise_dict (s : State) (r : Report) : (s.raise r).dict = s.dict := rfl
@[simp] theorem State.raise_applied (s : State) (r : Report) : (s.raise r).applied = s.applied := rfl
@[simp] theorem State.raise_watchMask (s : State) (r : Report) : (s.raise r).watchMask = s.watchMask := rfl
@[simp] theorem State.raise_compass (s : State) (r : Report) : (s.raise r).compass = s.compass := rfl
@[simp] theorem State.raise_inbox (s : State) (r : Report) : (s.raise r).inbox = s.inbox := rfl
@[simp] theorem State.raise_homeWait (s : State) (r : Report) : (s.raise r).homeWait = s.homeWait := rfl
@[simp] theorem State.raise_resent (s : State) (r : Report) : (s.raise r).resent = s.resent := rfl
@[simp] theorem State.raise_injBerth (s : State) (r : Report) : (s.raise r).injBerth = s.injBerth := rfl
@[simp] theorem State.raise_injLeft (s : State) (r : Report) : (s.raise r).injLeft = s.injLeft := rfl
@[simp] theorem State.raise_links (s : State) (r : Report) : (s.raise r).links = s.links := rfl
@[simp] theorem State.raise_sound (s : State) (r : Report) : (s.raise r).sound = s.sound := rfl
@[simp] theorem State.raise_charts (s : State) (r : Report) : (s.raise r).charts = s.charts := rfl
@[simp] theorem State.raise_tsOut (s : State) (r : Report) : (s.raise r).tsOut = s.tsOut := rfl
@[simp] theorem State.raise_tsGood (s : State) (r : Report) : (s.raise r).tsGood = s.tsGood := rfl
@[simp] theorem State.raise_tallies (s : State) (r : Report) : (s.raise r).tallies = s.tallies := rfl
@[simp] theorem State.raise_arms (s : State) (r : Report) : (s.raise r).arms = s.arms := rfl
@[simp] theorem State.raise_tallyRun (s : State) (r : Report) : (s.raise r).tallyRun = s.tallyRun := rfl
@[simp] theorem State.raise_logbook (s : State) (r : Report) : (s.raise r).logbook = s.logbook := rfl
@[simp] theorem State.raise_commits (s : State) (r : Report) : (s.raise r).commits = s.commits := rfl
@[simp] theorem State.raise_dports (s : State) (r : Report) : (s.raise r).dports = s.dports := rfl
@[simp] theorem State.raise_sessions (s : State) (r : Report) : (s.raise r).sessions = s.sessions := rfl
@[simp] theorem State.raise_helmTx (s : State) (r : Report) : (s.raise r).helmTx = s.helmTx := rfl
@[simp] theorem State.raise_busOff (s : State) (r : Report) : (s.raise r).busOff = s.busOff := rfl
@[simp] theorem State.raise_stage (s : State) (r : Report) : (s.raise r).stage = s.stage := rfl
@[simp] theorem State.raise_trace (s : State) (r : Report) : (s.raise r).trace = s.trace := rfl
@[simp] theorem State.raise_reportTick (s : State) (r : Report) : (s.raise r).reportTick = s.reportTick := rfl
@[simp] theorem State.raise_patchRam (s : State) (r : Report) : (s.raise r).patchRam = s.patchRam := rfl
@[simp] theorem State.raise_patchRun (s : State) (r : Report) : (s.raise r).patchRun = s.patchRun := rfl
@[simp] theorem State.raise_clkRun (s : State) (r : Report) : (s.raise r).clkRun = s.clkRun := rfl
@[simp] theorem State.raise_clkWant (s : State) (r : Report) : (s.raise r).clkWant = s.clkWant := rfl
@[simp] theorem State.raise_inReset (s : State) (r : Report) : (s.raise r).inReset = s.inReset := rfl
@[simp] theorem State.raise_bootStep (s : State) (r : Report) : (s.raise r).bootStep = s.bootStep := rfl
@[simp] theorem State.raise_pins (s : State) (r : Report) : (s.raise r).pins = s.pins := rfl
@[simp] theorem State.raise_tap (s : State) (r : Report) : (s.raise r).tap = s.tap := rfl
@[simp] theorem State.raise_host (s : State) (r : Report) : (s.raise r).host = s.host := rfl
@[simp] theorem State.raise_isoLinks (s : State) (r : Report) : (s.raise r).isoLinks = s.isoLinks := rfl
@[simp] theorem State.raise_isoIocs (s : State) (r : Report) : (s.raise r).isoIocs = s.isoIocs := rfl

/-! ### A read after a write -/

@[simp] theorem State.stall_setStall (s : State) (k : Nat) (x : Stall) : (s.setStall k x).stall k = x := SMap.get_set_same _ _ _ _
theorem State.stall_setStall_other (s : State) {j k : Nat} (x : Stall) (h : j ≠ k) : (s.setStall k x).stall j = s.stall j := SMap.get_set_other _ _ _ h
@[simp] theorem State.core_setCore (s : State) (k : Nat) (x : Core) : (s.setCore k x).core k = x := SMap.get_set_same _ _ _ _
theorem State.core_setCore_other (s : State) {j k : Nat} (x : Core) (h : j ≠ k) : (s.setCore k x).core j = s.core j := SMap.get_set_other _ _ _ h
@[simp] theorem State.record_setRecord (s : State) (k : Nat) (x : Record) : (s.setRecord k x).record k = x := SMap.get_set_same _ _ _ _
theorem State.record_setRecord_other (s : State) {j k : Nat} (x : Record) (h : j ≠ k) : (s.setRecord k x).record j = s.record j := SMap.get_set_other _ _ _ h
@[simp] theorem State.shed_setShed (s : State) (k : Nat) (x : Shed) : (s.setShed k x).shed k = x := SMap.get_set_same _ _ _ _
theorem State.shed_setShed_other (s : State) {j k : Nat} (x : Shed) (h : j ≠ k) : (s.setShed k x).shed j = s.shed j := SMap.get_set_other _ _ _ h
@[simp] theorem State.port_setPort (s : State) (k : Nat) (x : Port) : (s.setPort k x).port k = x := SMap.get_set_same _ _ _ _
theorem State.port_setPort_other (s : State) {j k : Nat} (x : Port) (h : j ≠ k) : (s.setPort k x).port j = s.port j := SMap.get_set_other _ _ _ h
@[simp] theorem State.berth_setBerth (s : State) (k : Nat) (x : Berth) : (s.setBerth k x).berth k = x := SMap.get_set_same _ _ _ _
theorem State.berth_setBerth_other (s : State) {j k : Nat} (x : Berth) (h : j ≠ k) : (s.setBerth k x).berth j = s.berth j := SMap.get_set_other _ _ _ h
@[simp] theorem State.slot_setSlot (s : State) (k : Nat) (x : Option Slot) : (s.setSlot k x).slot k = x := SMap.get_set_same _ _ _ _
theorem State.slot_setSlot_other (s : State) {j k : Nat} (x : Option Slot) (h : j ≠ k) : (s.setSlot k x).slot j = s.slot j := SMap.get_set_other _ _ _ h
@[simp] theorem State.linkSt_setLink (s : State) (k : Nat) (x : Link) : (s.setLink k x).linkSt k = x := SMap.get_set_same _ _ _ _
theorem State.linkSt_setLink_other (s : State) {j k : Nat} (x : Link) (h : j ≠ k) : (s.setLink k x).linkSt j = s.linkSt j := SMap.get_set_other _ _ _ h
@[simp] theorem State.xpage_setXpage (s : State) (k : Nat) (x : XPage) : (s.setXpage k x).xpage k = x := SMap.get_set_same _ _ _ _
theorem State.xpage_setXpage_other (s : State) {j k : Nat} (x : XPage) (h : j ≠ k) : (s.setXpage k x).xpage j = s.xpage j := SMap.get_set_other _ _ _ h
@[simp] theorem State.mget_mset (s : State) (k : Nat) (m : MGran) : (s.mset k m).mget k = m := SMap.get_set_same _ _ _ _
theorem State.mget_mset_other (s : State) {j k : Nat} (m : MGran) (h : j ≠ k) : (s.mset k m).mget j = s.mget j := SMap.get_set_other _ _ _ h
@[simp] theorem State.ent_setEnt (s : State) (i j v : Nat) : (s.setEnt i j v).ent i j = v := SMap.get_set_same _ _ _ _
@[simp] theorem State.app_setApp (s : State) (i j v : Nat) : (s.setApp i j v).app i j = v := SMap.get_set_same _ _ _ _
theorem State.ent_setEnt_key (s : State) (i j i' j' v : Nat) : (s.setEnt i j v).ent i' j' = if ekey i' j' = ekey i j then v else s.ent i' j' :=
  SMap.get_set _ _ _ _ _
theorem State.ent_setEnt_other (s : State) {i j i' j' : Nat} (v : Nat) (h : ekey i' j' ≠ ekey i j) : (s.setEnt i j v).ent i' j' = s.ent i' j' :=
  SMap.get_set_other _ _ _ h

/-! ### What a write leaves a reader of another map -/

@[simp] theorem State.core_of_setStall (s : State) (k : Nat) (x : Stall) (q : Nat) : (s.setStall k x).core q = s.core q := rfl
@[simp] theorem State.record_of_setStall (s : State) (k : Nat) (x : Stall) (q : Nat) : (s.setStall k x).record q = s.record q := rfl
@[simp] theorem State.shed_of_setStall (s : State) (k : Nat) (x : Stall) (q : Nat) : (s.setStall k x).shed q = s.shed q := rfl
@[simp] theorem State.port_of_setStall (s : State) (k : Nat) (x : Stall) (q : Nat) : (s.setStall k x).port q = s.port q := rfl
@[simp] theorem State.berth_of_setStall (s : State) (k : Nat) (x : Stall) (q : Nat) : (s.setStall k x).berth q = s.berth q := rfl
@[simp] theorem State.slot_of_setStall (s : State) (k : Nat) (x : Stall) (q : Nat) : (s.setStall k x).slot q = s.slot q := rfl
@[simp] theorem State.linkSt_of_setStall (s : State) (k : Nat) (x : Stall) (q : Nat) : (s.setStall k x).linkSt q = s.linkSt q := rfl
@[simp] theorem State.xpage_of_setStall (s : State) (k : Nat) (x : Stall) (q : Nat) : (s.setStall k x).xpage q = s.xpage q := rfl
@[simp] theorem State.ent_of_setStall (s : State) (k : Nat) (x : Stall) (a b : Nat) : (s.setStall k x).ent a b = s.ent a b := rfl
@[simp] theorem State.app_of_setStall (s : State) (k : Nat) (x : Stall) (a b : Nat) : (s.setStall k x).app a b = s.app a b := rfl
@[simp] theorem State.mget_of_setStall (s : State) (k : Nat) (x : Stall) (q : Nat) : (s.setStall k x).mget q = s.mget q := rfl
@[simp] theorem State.stall_of_setCore (s : State) (k : Nat) (x : Core) (q : Nat) : (s.setCore k x).stall q = s.stall q := rfl
@[simp] theorem State.record_of_setCore (s : State) (k : Nat) (x : Core) (q : Nat) : (s.setCore k x).record q = s.record q := rfl
@[simp] theorem State.shed_of_setCore (s : State) (k : Nat) (x : Core) (q : Nat) : (s.setCore k x).shed q = s.shed q := rfl
@[simp] theorem State.port_of_setCore (s : State) (k : Nat) (x : Core) (q : Nat) : (s.setCore k x).port q = s.port q := rfl
@[simp] theorem State.berth_of_setCore (s : State) (k : Nat) (x : Core) (q : Nat) : (s.setCore k x).berth q = s.berth q := rfl
@[simp] theorem State.slot_of_setCore (s : State) (k : Nat) (x : Core) (q : Nat) : (s.setCore k x).slot q = s.slot q := rfl
@[simp] theorem State.linkSt_of_setCore (s : State) (k : Nat) (x : Core) (q : Nat) : (s.setCore k x).linkSt q = s.linkSt q := rfl
@[simp] theorem State.xpage_of_setCore (s : State) (k : Nat) (x : Core) (q : Nat) : (s.setCore k x).xpage q = s.xpage q := rfl
@[simp] theorem State.ent_of_setCore (s : State) (k : Nat) (x : Core) (a b : Nat) : (s.setCore k x).ent a b = s.ent a b := rfl
@[simp] theorem State.app_of_setCore (s : State) (k : Nat) (x : Core) (a b : Nat) : (s.setCore k x).app a b = s.app a b := rfl
@[simp] theorem State.mget_of_setCore (s : State) (k : Nat) (x : Core) (q : Nat) : (s.setCore k x).mget q = s.mget q := rfl
@[simp] theorem State.stall_of_setRecord (s : State) (k : Nat) (x : Record) (q : Nat) : (s.setRecord k x).stall q = s.stall q := rfl
@[simp] theorem State.core_of_setRecord (s : State) (k : Nat) (x : Record) (q : Nat) : (s.setRecord k x).core q = s.core q := rfl
@[simp] theorem State.shed_of_setRecord (s : State) (k : Nat) (x : Record) (q : Nat) : (s.setRecord k x).shed q = s.shed q := rfl
@[simp] theorem State.port_of_setRecord (s : State) (k : Nat) (x : Record) (q : Nat) : (s.setRecord k x).port q = s.port q := rfl
@[simp] theorem State.berth_of_setRecord (s : State) (k : Nat) (x : Record) (q : Nat) : (s.setRecord k x).berth q = s.berth q := rfl
@[simp] theorem State.slot_of_setRecord (s : State) (k : Nat) (x : Record) (q : Nat) : (s.setRecord k x).slot q = s.slot q := rfl
@[simp] theorem State.linkSt_of_setRecord (s : State) (k : Nat) (x : Record) (q : Nat) : (s.setRecord k x).linkSt q = s.linkSt q := rfl
@[simp] theorem State.xpage_of_setRecord (s : State) (k : Nat) (x : Record) (q : Nat) : (s.setRecord k x).xpage q = s.xpage q := rfl
@[simp] theorem State.ent_of_setRecord (s : State) (k : Nat) (x : Record) (a b : Nat) : (s.setRecord k x).ent a b = s.ent a b := rfl
@[simp] theorem State.app_of_setRecord (s : State) (k : Nat) (x : Record) (a b : Nat) : (s.setRecord k x).app a b = s.app a b := rfl
@[simp] theorem State.mget_of_setRecord (s : State) (k : Nat) (x : Record) (q : Nat) : (s.setRecord k x).mget q = s.mget q := rfl
@[simp] theorem State.stall_of_setShed (s : State) (k : Nat) (x : Shed) (q : Nat) : (s.setShed k x).stall q = s.stall q := rfl
@[simp] theorem State.core_of_setShed (s : State) (k : Nat) (x : Shed) (q : Nat) : (s.setShed k x).core q = s.core q := rfl
@[simp] theorem State.record_of_setShed (s : State) (k : Nat) (x : Shed) (q : Nat) : (s.setShed k x).record q = s.record q := rfl
@[simp] theorem State.port_of_setShed (s : State) (k : Nat) (x : Shed) (q : Nat) : (s.setShed k x).port q = s.port q := rfl
@[simp] theorem State.berth_of_setShed (s : State) (k : Nat) (x : Shed) (q : Nat) : (s.setShed k x).berth q = s.berth q := rfl
@[simp] theorem State.slot_of_setShed (s : State) (k : Nat) (x : Shed) (q : Nat) : (s.setShed k x).slot q = s.slot q := rfl
@[simp] theorem State.linkSt_of_setShed (s : State) (k : Nat) (x : Shed) (q : Nat) : (s.setShed k x).linkSt q = s.linkSt q := rfl
@[simp] theorem State.xpage_of_setShed (s : State) (k : Nat) (x : Shed) (q : Nat) : (s.setShed k x).xpage q = s.xpage q := rfl
@[simp] theorem State.ent_of_setShed (s : State) (k : Nat) (x : Shed) (a b : Nat) : (s.setShed k x).ent a b = s.ent a b := rfl
@[simp] theorem State.app_of_setShed (s : State) (k : Nat) (x : Shed) (a b : Nat) : (s.setShed k x).app a b = s.app a b := rfl
@[simp] theorem State.mget_of_setShed (s : State) (k : Nat) (x : Shed) (q : Nat) : (s.setShed k x).mget q = s.mget q := rfl
@[simp] theorem State.stall_of_setPort (s : State) (k : Nat) (x : Port) (q : Nat) : (s.setPort k x).stall q = s.stall q := rfl
@[simp] theorem State.core_of_setPort (s : State) (k : Nat) (x : Port) (q : Nat) : (s.setPort k x).core q = s.core q := rfl
@[simp] theorem State.record_of_setPort (s : State) (k : Nat) (x : Port) (q : Nat) : (s.setPort k x).record q = s.record q := rfl
@[simp] theorem State.shed_of_setPort (s : State) (k : Nat) (x : Port) (q : Nat) : (s.setPort k x).shed q = s.shed q := rfl
@[simp] theorem State.berth_of_setPort (s : State) (k : Nat) (x : Port) (q : Nat) : (s.setPort k x).berth q = s.berth q := rfl
@[simp] theorem State.slot_of_setPort (s : State) (k : Nat) (x : Port) (q : Nat) : (s.setPort k x).slot q = s.slot q := rfl
@[simp] theorem State.linkSt_of_setPort (s : State) (k : Nat) (x : Port) (q : Nat) : (s.setPort k x).linkSt q = s.linkSt q := rfl
@[simp] theorem State.xpage_of_setPort (s : State) (k : Nat) (x : Port) (q : Nat) : (s.setPort k x).xpage q = s.xpage q := rfl
@[simp] theorem State.ent_of_setPort (s : State) (k : Nat) (x : Port) (a b : Nat) : (s.setPort k x).ent a b = s.ent a b := rfl
@[simp] theorem State.app_of_setPort (s : State) (k : Nat) (x : Port) (a b : Nat) : (s.setPort k x).app a b = s.app a b := rfl
@[simp] theorem State.mget_of_setPort (s : State) (k : Nat) (x : Port) (q : Nat) : (s.setPort k x).mget q = s.mget q := rfl
@[simp] theorem State.stall_of_setBerth (s : State) (k : Nat) (x : Berth) (q : Nat) : (s.setBerth k x).stall q = s.stall q := rfl
@[simp] theorem State.core_of_setBerth (s : State) (k : Nat) (x : Berth) (q : Nat) : (s.setBerth k x).core q = s.core q := rfl
@[simp] theorem State.record_of_setBerth (s : State) (k : Nat) (x : Berth) (q : Nat) : (s.setBerth k x).record q = s.record q := rfl
@[simp] theorem State.shed_of_setBerth (s : State) (k : Nat) (x : Berth) (q : Nat) : (s.setBerth k x).shed q = s.shed q := rfl
@[simp] theorem State.port_of_setBerth (s : State) (k : Nat) (x : Berth) (q : Nat) : (s.setBerth k x).port q = s.port q := rfl
@[simp] theorem State.slot_of_setBerth (s : State) (k : Nat) (x : Berth) (q : Nat) : (s.setBerth k x).slot q = s.slot q := rfl
@[simp] theorem State.linkSt_of_setBerth (s : State) (k : Nat) (x : Berth) (q : Nat) : (s.setBerth k x).linkSt q = s.linkSt q := rfl
@[simp] theorem State.xpage_of_setBerth (s : State) (k : Nat) (x : Berth) (q : Nat) : (s.setBerth k x).xpage q = s.xpage q := rfl
@[simp] theorem State.ent_of_setBerth (s : State) (k : Nat) (x : Berth) (a b : Nat) : (s.setBerth k x).ent a b = s.ent a b := rfl
@[simp] theorem State.app_of_setBerth (s : State) (k : Nat) (x : Berth) (a b : Nat) : (s.setBerth k x).app a b = s.app a b := rfl
@[simp] theorem State.mget_of_setBerth (s : State) (k : Nat) (x : Berth) (q : Nat) : (s.setBerth k x).mget q = s.mget q := rfl
@[simp] theorem State.stall_of_setSlot (s : State) (k : Nat) (x : Option Slot) (q : Nat) : (s.setSlot k x).stall q = s.stall q := rfl
@[simp] theorem State.core_of_setSlot (s : State) (k : Nat) (x : Option Slot) (q : Nat) : (s.setSlot k x).core q = s.core q := rfl
@[simp] theorem State.record_of_setSlot (s : State) (k : Nat) (x : Option Slot) (q : Nat) : (s.setSlot k x).record q = s.record q := rfl
@[simp] theorem State.shed_of_setSlot (s : State) (k : Nat) (x : Option Slot) (q : Nat) : (s.setSlot k x).shed q = s.shed q := rfl
@[simp] theorem State.port_of_setSlot (s : State) (k : Nat) (x : Option Slot) (q : Nat) : (s.setSlot k x).port q = s.port q := rfl
@[simp] theorem State.berth_of_setSlot (s : State) (k : Nat) (x : Option Slot) (q : Nat) : (s.setSlot k x).berth q = s.berth q := rfl
@[simp] theorem State.linkSt_of_setSlot (s : State) (k : Nat) (x : Option Slot) (q : Nat) : (s.setSlot k x).linkSt q = s.linkSt q := rfl
@[simp] theorem State.xpage_of_setSlot (s : State) (k : Nat) (x : Option Slot) (q : Nat) : (s.setSlot k x).xpage q = s.xpage q := rfl
@[simp] theorem State.ent_of_setSlot (s : State) (k : Nat) (x : Option Slot) (a b : Nat) : (s.setSlot k x).ent a b = s.ent a b := rfl
@[simp] theorem State.app_of_setSlot (s : State) (k : Nat) (x : Option Slot) (a b : Nat) : (s.setSlot k x).app a b = s.app a b := rfl
@[simp] theorem State.mget_of_setSlot (s : State) (k : Nat) (x : Option Slot) (q : Nat) : (s.setSlot k x).mget q = s.mget q := rfl
@[simp] theorem State.stall_of_setLink (s : State) (k : Nat) (x : Link) (q : Nat) : (s.setLink k x).stall q = s.stall q := rfl
@[simp] theorem State.core_of_setLink (s : State) (k : Nat) (x : Link) (q : Nat) : (s.setLink k x).core q = s.core q := rfl
@[simp] theorem State.record_of_setLink (s : State) (k : Nat) (x : Link) (q : Nat) : (s.setLink k x).record q = s.record q := rfl
@[simp] theorem State.shed_of_setLink (s : State) (k : Nat) (x : Link) (q : Nat) : (s.setLink k x).shed q = s.shed q := rfl
@[simp] theorem State.port_of_setLink (s : State) (k : Nat) (x : Link) (q : Nat) : (s.setLink k x).port q = s.port q := rfl
@[simp] theorem State.berth_of_setLink (s : State) (k : Nat) (x : Link) (q : Nat) : (s.setLink k x).berth q = s.berth q := rfl
@[simp] theorem State.slot_of_setLink (s : State) (k : Nat) (x : Link) (q : Nat) : (s.setLink k x).slot q = s.slot q := rfl
@[simp] theorem State.xpage_of_setLink (s : State) (k : Nat) (x : Link) (q : Nat) : (s.setLink k x).xpage q = s.xpage q := rfl
@[simp] theorem State.ent_of_setLink (s : State) (k : Nat) (x : Link) (a b : Nat) : (s.setLink k x).ent a b = s.ent a b := rfl
@[simp] theorem State.app_of_setLink (s : State) (k : Nat) (x : Link) (a b : Nat) : (s.setLink k x).app a b = s.app a b := rfl
@[simp] theorem State.mget_of_setLink (s : State) (k : Nat) (x : Link) (q : Nat) : (s.setLink k x).mget q = s.mget q := rfl
@[simp] theorem State.stall_of_setXpage (s : State) (k : Nat) (x : XPage) (q : Nat) : (s.setXpage k x).stall q = s.stall q := rfl
@[simp] theorem State.core_of_setXpage (s : State) (k : Nat) (x : XPage) (q : Nat) : (s.setXpage k x).core q = s.core q := rfl
@[simp] theorem State.record_of_setXpage (s : State) (k : Nat) (x : XPage) (q : Nat) : (s.setXpage k x).record q = s.record q := rfl
@[simp] theorem State.shed_of_setXpage (s : State) (k : Nat) (x : XPage) (q : Nat) : (s.setXpage k x).shed q = s.shed q := rfl
@[simp] theorem State.port_of_setXpage (s : State) (k : Nat) (x : XPage) (q : Nat) : (s.setXpage k x).port q = s.port q := rfl
@[simp] theorem State.berth_of_setXpage (s : State) (k : Nat) (x : XPage) (q : Nat) : (s.setXpage k x).berth q = s.berth q := rfl
@[simp] theorem State.slot_of_setXpage (s : State) (k : Nat) (x : XPage) (q : Nat) : (s.setXpage k x).slot q = s.slot q := rfl
@[simp] theorem State.linkSt_of_setXpage (s : State) (k : Nat) (x : XPage) (q : Nat) : (s.setXpage k x).linkSt q = s.linkSt q := rfl
@[simp] theorem State.ent_of_setXpage (s : State) (k : Nat) (x : XPage) (a b : Nat) : (s.setXpage k x).ent a b = s.ent a b := rfl
@[simp] theorem State.app_of_setXpage (s : State) (k : Nat) (x : XPage) (a b : Nat) : (s.setXpage k x).app a b = s.app a b := rfl
@[simp] theorem State.mget_of_setXpage (s : State) (k : Nat) (x : XPage) (q : Nat) : (s.setXpage k x).mget q = s.mget q := rfl
@[simp] theorem State.stall_of_setEnt (s : State) (i j v : Nat) (q : Nat) : (s.setEnt i j v).stall q = s.stall q := rfl
@[simp] theorem State.core_of_setEnt (s : State) (i j v : Nat) (q : Nat) : (s.setEnt i j v).core q = s.core q := rfl
@[simp] theorem State.record_of_setEnt (s : State) (i j v : Nat) (q : Nat) : (s.setEnt i j v).record q = s.record q := rfl
@[simp] theorem State.shed_of_setEnt (s : State) (i j v : Nat) (q : Nat) : (s.setEnt i j v).shed q = s.shed q := rfl
@[simp] theorem State.port_of_setEnt (s : State) (i j v : Nat) (q : Nat) : (s.setEnt i j v).port q = s.port q := rfl
@[simp] theorem State.berth_of_setEnt (s : State) (i j v : Nat) (q : Nat) : (s.setEnt i j v).berth q = s.berth q := rfl
@[simp] theorem State.slot_of_setEnt (s : State) (i j v : Nat) (q : Nat) : (s.setEnt i j v).slot q = s.slot q := rfl
@[simp] theorem State.linkSt_of_setEnt (s : State) (i j v : Nat) (q : Nat) : (s.setEnt i j v).linkSt q = s.linkSt q := rfl
@[simp] theorem State.xpage_of_setEnt (s : State) (i j v : Nat) (q : Nat) : (s.setEnt i j v).xpage q = s.xpage q := rfl
@[simp] theorem State.app_of_setEnt (s : State) (i j v : Nat) (a b : Nat) : (s.setEnt i j v).app a b = s.app a b := rfl
@[simp] theorem State.mget_of_setEnt (s : State) (i j v : Nat) (q : Nat) : (s.setEnt i j v).mget q = s.mget q := rfl
@[simp] theorem State.stall_of_setApp (s : State) (i j v : Nat) (q : Nat) : (s.setApp i j v).stall q = s.stall q := rfl
@[simp] theorem State.core_of_setApp (s : State) (i j v : Nat) (q : Nat) : (s.setApp i j v).core q = s.core q := rfl
@[simp] theorem State.record_of_setApp (s : State) (i j v : Nat) (q : Nat) : (s.setApp i j v).record q = s.record q := rfl
@[simp] theorem State.shed_of_setApp (s : State) (i j v : Nat) (q : Nat) : (s.setApp i j v).shed q = s.shed q := rfl
@[simp] theorem State.port_of_setApp (s : State) (i j v : Nat) (q : Nat) : (s.setApp i j v).port q = s.port q := rfl
@[simp] theorem State.berth_of_setApp (s : State) (i j v : Nat) (q : Nat) : (s.setApp i j v).berth q = s.berth q := rfl
@[simp] theorem State.slot_of_setApp (s : State) (i j v : Nat) (q : Nat) : (s.setApp i j v).slot q = s.slot q := rfl
@[simp] theorem State.linkSt_of_setApp (s : State) (i j v : Nat) (q : Nat) : (s.setApp i j v).linkSt q = s.linkSt q := rfl
@[simp] theorem State.xpage_of_setApp (s : State) (i j v : Nat) (q : Nat) : (s.setApp i j v).xpage q = s.xpage q := rfl
@[simp] theorem State.ent_of_setApp (s : State) (i j v : Nat) (a b : Nat) : (s.setApp i j v).ent a b = s.ent a b := rfl
@[simp] theorem State.mget_of_setApp (s : State) (i j v : Nat) (q : Nat) : (s.setApp i j v).mget q = s.mget q := rfl
@[simp] theorem State.stall_of_mset (s : State) (k : Nat) (m : MGran) (q : Nat) : (s.mset k m).stall q = s.stall q := rfl
@[simp] theorem State.core_of_mset (s : State) (k : Nat) (m : MGran) (q : Nat) : (s.mset k m).core q = s.core q := rfl
@[simp] theorem State.record_of_mset (s : State) (k : Nat) (m : MGran) (q : Nat) : (s.mset k m).record q = s.record q := rfl
@[simp] theorem State.shed_of_mset (s : State) (k : Nat) (m : MGran) (q : Nat) : (s.mset k m).shed q = s.shed q := rfl
@[simp] theorem State.port_of_mset (s : State) (k : Nat) (m : MGran) (q : Nat) : (s.mset k m).port q = s.port q := rfl
@[simp] theorem State.berth_of_mset (s : State) (k : Nat) (m : MGran) (q : Nat) : (s.mset k m).berth q = s.berth q := rfl
@[simp] theorem State.slot_of_mset (s : State) (k : Nat) (m : MGran) (q : Nat) : (s.mset k m).slot q = s.slot q := rfl
@[simp] theorem State.linkSt_of_mset (s : State) (k : Nat) (m : MGran) (q : Nat) : (s.mset k m).linkSt q = s.linkSt q := rfl
@[simp] theorem State.xpage_of_mset (s : State) (k : Nat) (m : MGran) (q : Nat) : (s.mset k m).xpage q = s.xpage q := rfl
@[simp] theorem State.ent_of_mset (s : State) (k : Nat) (m : MGran) (a b : Nat) : (s.mset k m).ent a b = s.ent a b := rfl
@[simp] theorem State.app_of_mset (s : State) (k : Nat) (m : MGran) (a b : Nat) : (s.mset k m).app a b = s.app a b := rfl
@[simp] theorem State.stall_of_raise (s : State) (r : Report) (q : Nat) : (s.raise r).stall q = s.stall q := rfl
@[simp] theorem State.core_of_raise (s : State) (r : Report) (q : Nat) : (s.raise r).core q = s.core q := rfl
@[simp] theorem State.record_of_raise (s : State) (r : Report) (q : Nat) : (s.raise r).record q = s.record q := rfl
@[simp] theorem State.shed_of_raise (s : State) (r : Report) (q : Nat) : (s.raise r).shed q = s.shed q := rfl
@[simp] theorem State.port_of_raise (s : State) (r : Report) (q : Nat) : (s.raise r).port q = s.port q := rfl
@[simp] theorem State.berth_of_raise (s : State) (r : Report) (q : Nat) : (s.raise r).berth q = s.berth q := rfl
@[simp] theorem State.slot_of_raise (s : State) (r : Report) (q : Nat) : (s.raise r).slot q = s.slot q := rfl
@[simp] theorem State.linkSt_of_raise (s : State) (r : Report) (q : Nat) : (s.raise r).linkSt q = s.linkSt q := rfl
@[simp] theorem State.xpage_of_raise (s : State) (r : Report) (q : Nat) : (s.raise r).xpage q = s.xpage q := rfl
@[simp] theorem State.ent_of_raise (s : State) (r : Report) (a b : Nat) : (s.raise r).ent a b = s.ent a b := rfl
@[simp] theorem State.app_of_raise (s : State) (r : Report) (a b : Nat) : (s.raise r).app a b = s.app a b := rfl
@[simp] theorem State.mget_of_raise (s : State) (r : Report) (q : Nat) : (s.raise r).mget q = s.mget q := rfl

end Sys2Proof.Machine
end

