-- ==== Sys2Proof/Laws/Memory.lean ====
section
/-!
SUPPORT. Laws of memory: the operations that write it keep its canonical form; a store leaves every other granule.
-/

namespace Sys2Proof.Machine

/-- Memory at reset lists nothing. -/
theorem reset_memory_wf : Memory.wf State.reset.mem = true := rfl

theorem mset_wf (s : State) (k : Nat) (m : MGran) (h : Memory.wf s.mem = true) : Memory.wf (s.mset k m).mem = true := SMap.wf_set k m h

@[simp] theorem bump_mem (s : State) (i j w n : Nat) : (s.bump i j w n).mem = s.mem := rfl

theorem corrected_wf (s : State) (p pda : Nat) (held : Bool) (shed : Nat) (m : MGran) (h : Memory.wf s.mem = true) :
    Memory.wf (s.corrected p pda held shed m).mem = true := by
  have hm := mset_wf s (mkey p pda) m h
  unfold State.corrected
  dsimp only
  split <;> simpa using hm

theorem mset_fold_wf {α : Type} (l : List α) (key : α → Nat) (val : α → MGran) (s : State) (h : Memory.wf s.mem = true) :
    Memory.wf (l.foldl (fun s e => s.mset (key e) (val e)) s).mem = true := by
  induction l generalizing s with
  | nil => exact h
  | cons e l ih => exact ih _ (mset_wf s _ _ h)

theorem writeAt_wf (s : State) (p pda : Nat) (m : MGran) (h : Memory.wf s.mem = true) : Memory.wf (s.writeAt p pda m).mem = true :=
  mset_fold_wf (s.writePorts p) (fun q => mkey q pda) (fun _ => m) s h

theorem writePA_wf (s : State) (pa : Nat) (m : MGran) (h : Memory.wf s.mem = true) : Memory.wf (s.writePA pa m).mem = true := by
  unfold State.writePA
  split
  · exact h
  · exact writeAt_wf _ _ _ _ h

/-! Write-backs, the directory and the haylofts change ports, counts and lines, never memory. -/

@[simp] theorem raise_mem (s : State) (r : Report) : (s.raise r).mem = s.mem := rfl

@[simp] theorem updShed_mem (s : State) (k : Nat) (f : Shed → Shed) : (s.updShed k f).mem = s.mem := rfl

@[simp] theorem firstErr_mem (s : State) (p pda : Nat) : (s.firstErr p pda).mem = s.mem := by
  unfold State.firstErr
  dsimp only
  split <;> rfl

@[simp] theorem useSidecar_mem (s : State) (p pda : Nat) (wr : Bool) : (s.useSidecar p pda wr).mem = s.mem := by
  unfold State.useSidecar
  dsimp only
  split <;> rfl

theorem foldl_mem {α : Type} (l : List α) (f : State → α → State) (hf : ∀ s a, (f s a).mem = s.mem) (s : State) :
    (l.foldl f s).mem = s.mem := by
  induction l generalizing s with
  | nil => rfl
  | cons a l ih => exact (ih _).trans (hf s a)

theorem foldl_wf {α : Type} (l : List α) (f : State → α → State) (hf : ∀ s a, Memory.wf s.mem = true → Memory.wf (f s a).mem = true)
    (s : State) (h : Memory.wf s.mem = true) : Memory.wf (l.foldl f s).mem = true := by
  induction l generalizing s with
  | nil => exact h
  | cons a l ih => exact ih _ (hf s a h)

@[simp] theorem writeBack_mem (s : State) (line : Nat) : (s.writeBack line).mem = s.mem := by
  unfold State.writeBack
  split
  · rfl
  · refine foldl_mem _ _ (fun s q => ?_) s
    split <;> simp

@[simp] theorem dropLine_mem (s : State) (line : Nat) : (s.dropLine line).mem = s.mem := by
  unfold State.dropLine
  dsimp only
  split <;> simp

@[simp] theorem dirRoom_mem (s : State) (line : Nat) : (s.dirRoom line).mem = s.mem := by
  unfold State.dirRoom
  dsimp only
  split
  · rfl
  · split <;> simp

@[simp] theorem fillLine_mem (s : State) (shed b line : Nat) (st : LState) : (s.fillLine shed b line st).mem = s.mem := by
  unfold State.fillLine
  split
  · rfl
  · dsimp only
    split
    · simp
    · exact dirRoom_mem s line

@[simp] theorem shareOthers_mem (s : State) (me line : Nat) : (s.shareOthers me line).mem = s.mem := by
  unfold State.shareOthers
  dsimp only
  split <;> simp

@[simp] theorem dropOthers_mem (s : State) (me line : Nat) : (s.dropOthers me line).mem = s.mem := rfl

@[simp] theorem settleVictim_mem (s : State) (shed line : Nat) : (s.settleVictim shed line).mem = s.mem := by
  unfold State.settleVictim
  split <;> simp

@[simp] theorem fillWaiters_mem (s : State) (pa : Nat) (old new : Gran) : (s.fillWaiters pa old new).mem = s.mem := rfl

@[simp] theorem injected_mem (s : State) (bit : Nat) : (s.injected bit).1.mem = s.mem := by
  unfold State.injected
  dsimp only
  split <;> rfl

@[simp] theorem injectLine_mem (s : State) (p shed : Nat) (held : Bool) : (s.injectLine p shed held).1.mem = s.mem := by
  unfold State.injectLine
  dsimp only
  split
  · simp
  · split <;> simp

@[simp] theorem decodeAt_mem (s : State) (p pda shed : Nat) (held : Bool) : (s.decodeAt p pda shed held).1.mem = s.mem := by
  unfold State.decodeAt
  split
  · simp
  · rfl

@[simp] theorem badGranule_mem (s : State) (p pda pa shed : Nat) (held poison : Bool) : (s.badGranule p pda pa shed held poison).mem = s.mem := by
  unfold State.badGranule
  dsimp only
  split <;> rfl

theorem poisonAt_wf (s : State) (p pda : Nat) (held : Bool) (h : Memory.wf s.mem = true) : Memory.wf (s.poisonAt p pda held).mem = true := by
  unfold State.poisonAt
  split
  · exact mset_wf _ _ _ h
  · exact h

/-- A read with its repairs, or with the poison an uncorrectable granule leaves, keeps the canonical form. -/
theorem readPA_wf (s : State) (shed pa : Nat) (h : Memory.wf s.mem = true) : Memory.wf (s.readPA shed pa).1.mem = true := by
  unfold State.readPA
  split
  · exact h
  · rename_i p pda _
    dsimp only
    generalize s.holder shed (pa / 64) = sh
    generalize s.lineHeld (pa / 64) = held
    have bad : ∀ (t : State) (q : Nat) (b : Bool), Memory.wf t.mem = true → Memory.wf ((t.badGranule q pda pa sh held b).poisonAt q pda held).mem = true :=
      fun t q b ht => poisonAt_wf _ _ _ _ (by simpa using ht)
    split
    · exact h
    · rename_i q more _
      have hd := decodeAt_mem s q pda sh held
      split
      · rename_i s1 m he
        rw [he] at hd
        exact hd ▸ h
      · rename_i s1 m he
        rw [he] at hd
        exact corrected_wf _ _ _ _ _ _ (hd ▸ h)
      · rename_i s1 d m _ _ he
        rw [he] at hd
        have h1 : Memory.wf s1.mem = true := hd ▸ h
        split
        · exact bad _ _ _ h1
        · rename_i r more' _
          have hr := decodeAt_mem s1 r pda sh held
          split
          · rename_i s2 m2 he2
            rw [he2] at hr
            exact mset_wf _ _ _ (hr ▸ h1)
          · rename_i s2 m2 he2
            rw [he2] at hr
            exact mset_wf _ _ _ (corrected_wf _ _ _ _ _ _ (hr ▸ h1))
          · rename_i s2 d2 m2 _ _ he2
            rw [he2] at hr
            exact bad _ _ _ (hr ▸ h1)

/-- A line brought in from its port keeps the canonical form. -/
theorem portRead_wf (s : State) (shed line gi : Nat) (h : Memory.wf s.mem = true) : Memory.wf (s.portRead shed line gi).mem = true := by
  unfold State.portRead
  split
  · exact h
  · split
    · refine foldl_wf _ _ (fun s i hs => ?_) _ (by simpa using h)
      split
      · exact hs
      · exact readPA_wf _ _ _ hs
    · exact h

theorem touchRead_wf (s : State) (shed b line gi : Nat) (h : Memory.wf s.mem = true) : Memory.wf (s.touchRead shed b line gi).mem = true := by
  unfold State.touchRead
  split
  · exact h
  · dsimp only
    split
    · exact portRead_wf _ _ _ _ h
    · simpa using portRead_wf _ _ _ _ h

theorem touchWrite_wf (s : State) (shed core b line gi : Nat) (h : Memory.wf s.mem = true) : Memory.wf (s.touchWrite shed core b line gi).mem = true := by
  have hp : Memory.wf (((s.settleVictim shed line).portRead shed line gi).dropOthers shed line).mem = true := by
    simpa using portRead_wf _ shed line gi (by simpa using h)
  unfold State.touchWrite
  dsimp only
  split <;> simpa using hp

/-- A store performed keeps the canonical form. -/
theorem perform_wf (s : State) (core b pa : Nat) (m : MGran) (g : Gran) (h : Memory.wf s.mem = true) :
    Memory.wf (s.perform core b pa m g).mem = true := by
  unfold State.perform
  rw [fillWaiters_mem]
  exact writePA_wf _ _ _ (touchWrite_wf _ _ _ _ _ _ h)

/-- The resync of one unit keeps the canonical form. -/
theorem copyUnit_wf (s : State) (a b u : Nat) (h : Memory.wf s.mem = true) : Memory.wf (s.copyUnit a b u).mem = true := by
  unfold State.copyUnit
  exact mset_fold_wf _ _ _ _ (SMap.wf_filter _ h)

theorem zeroUnit_wf (s : State) (p u : Nat) (h : Memory.wf s.mem = true) : Memory.wf (s.zeroUnit p u).mem = true := SMap.wf_filter _ h

/-- A write through a port leaves every granule of other keys. -/
theorem writeAt_other (s : State) (p pda k : Nat) (m : MGran) (h : ∀ q ∈ s.writePorts p, k ≠ mkey q pda) : (s.writeAt p pda m).mget k = s.mget k := by
  unfold State.writeAt
  generalize s.writePorts p = l at h
  induction l generalizing s with
  | nil => rfl
  | cons q l ih =>
    rw [List.foldl_cons, ih]
    · exact State.mget_mset_other _ _ (h q (by simp))
    · intro q' hq
      exact h q' (by simp [hq])

end Sys2Proof.Machine
end

