-- ==== Sys2Proof/Laws/PerInstr.lean ====
section
/-!
SUPPORT. Statements made for each constructor of `Instr`. Family Units: a command is well formed exactly where no unit that it names is
absent.
-/

namespace Sys2Proof

theorem wf_iff_absent (us : List (UnitKind × Nat)) : us.all (fun u => u.1.has u.2) = true ↔ us.find? (fun u => !u.1.has u.2) = none := by
  simp

end Sys2Proof

namespace Sys2Proof.Laws.Units

/-- A command is well formed exactly where no unit that it names is absent. -/
def Statement (i : Instr) : Prop := i.wf = true ↔ i.absent = none

theorem bundleIssue (stall : Nat) : Statement (.bundleIssue stall) := wf_iff_absent _
theorem microwordWait (core seqr : Nat) : Statement (.microwordWait core seqr) := wf_iff_absent _
theorem vz3Nop (stall : Nat) : Statement (.vz3Nop stall) := wf_iff_absent _
theorem vz3Pushb (stall : Nat) : Statement (.vz3Pushb stall) := wf_iff_absent _
theorem vz3Pushw (stall : Nat) : Statement (.vz3Pushw stall) := wf_iff_absent _
theorem vz3Pushnil (stall : Nat) : Statement (.vz3Pushnil stall) := wf_iff_absent _
theorem vz3Pusht (stall : Nat) : Statement (.vz3Pusht stall) := wf_iff_absent _
theorem vz3Pushf (stall : Nat) : Statement (.vz3Pushf stall) := wf_iff_absent _
theorem vz3Pushk (stall : Nat) : Statement (.vz3Pushk stall) := wf_iff_absent _
theorem vz3Pushkw (stall : Nat) : Statement (.vz3Pushkw stall) := wf_iff_absent _
theorem vz3Loadl (stall : Nat) : Statement (.vz3Loadl stall) := wf_iff_absent _
theorem vz3Storel (stall : Nat) : Statement (.vz3Storel stall) := wf_iff_absent _
theorem vz3Loadlw (stall : Nat) : Statement (.vz3Loadlw stall) := wf_iff_absent _
theorem vz3Storelw (stall : Nat) : Statement (.vz3Storelw stall) := wf_iff_absent _
theorem vz3Dup (stall : Nat) : Statement (.vz3Dup stall) := wf_iff_absent _
theorem vz3Drop (stall : Nat) : Statement (.vz3Drop stall) := wf_iff_absent _
theorem vz3Swap (stall : Nat) : Statement (.vz3Swap stall) := wf_iff_absent _
theorem vz3Over (stall : Nat) : Statement (.vz3Over stall) := wf_iff_absent _
theorem vz3Add (stall : Nat) : Statement (.vz3Add stall) := wf_iff_absent _
theorem vz3Sub (stall : Nat) : Statement (.vz3Sub stall) := wf_iff_absent _
theorem vz3Mul (stall : Nat) : Statement (.vz3Mul stall) := wf_iff_absent _
theorem vz3Div (stall : Nat) : Statement (.vz3Div stall) := wf_iff_absent _
theorem vz3Rem (stall : Nat) : Statement (.vz3Rem stall) := wf_iff_absent _
theorem vz3Neg (stall : Nat) : Statement (.vz3Neg stall) := wf_iff_absent _
theorem vz3Ash (stall : Nat) : Statement (.vz3Ash stall) := wf_iff_absent _
theorem vz3Eq (stall : Nat) : Statement (.vz3Eq stall) := wf_iff_absent _
theorem vz3Ne (stall : Nat) : Statement (.vz3Ne stall) := wf_iff_absent _
theorem vz3Lt (stall : Nat) : Statement (.vz3Lt stall) := wf_iff_absent _
theorem vz3Ge (stall : Nat) : Statement (.vz3Ge stall) := wf_iff_absent _
theorem vz3Le (stall : Nat) : Statement (.vz3Le stall) := wf_iff_absent _
theorem vz3Gt (stall : Nat) : Statement (.vz3Gt stall) := wf_iff_absent _
theorem vz3And (stall : Nat) : Statement (.vz3And stall) := wf_iff_absent _
theorem vz3Or (stall : Nat) : Statement (.vz3Or stall) := wf_iff_absent _
theorem vz3Xor (stall : Nat) : Statement (.vz3Xor stall) := wf_iff_absent _
theorem vz3Jmp (stall : Nat) : Statement (.vz3Jmp stall) := wf_iff_absent _
theorem vz3Jf (stall : Nat) : Statement (.vz3Jf stall) := wf_iff_absent _
theorem vz3Jt (stall : Nat) : Statement (.vz3Jt stall) := wf_iff_absent _
theorem vz3Tag (stall : Nat) : Statement (.vz3Tag stall) := wf_iff_absent _
theorem vz3Loadx (stall : Nat) : Statement (.vz3Loadx stall) := wf_iff_absent _
theorem vz3Storex (stall : Nat) : Statement (.vz3Storex stall) := wf_iff_absent _
theorem vz3Callk (stall : Nat) : Statement (.vz3Callk stall) := wf_iff_absent _
theorem vz3Retn (stall : Nat) : Statement (.vz3Retn stall) := wf_iff_absent _
theorem vz3Exit (stall : Nat) : Statement (.vz3Exit stall) := wf_iff_absent _
theorem vz3Native (stall : Nat) : Statement (.vz3Native stall) := wf_iff_absent _
theorem vz3Break (stall : Nat) : Statement (.vz3Break stall) := wf_iff_absent _
theorem excEntry (stall : Nat) : Statement (.excEntry stall) := wf_iff_absent _
theorem deviceEvent (core : Nat) : Statement (.deviceEvent core) := wf_iff_absent _
theorem timer (stall : Nat) : Statement (.timer stall) := wf_iff_absent _
theorem resultDelivery (cid reg : Nat) : Statement (.resultDelivery cid reg) := wf_iff_absent _
theorem waiterWake (agent index : Nat) : Statement (.waiterWake agent index) := wf_iff_absent _
theorem pollRetry (cid reg : Nat) : Statement (.pollRetry cid reg) := wf_iff_absent _
theorem bufferDrain (core line : Nat) : Statement (.bufferDrain core line) := wf_iff_absent _
theorem parkCut (stall : Nat) : Statement (.parkCut stall) := wf_iff_absent _
theorem parkComplete (stall : Nat) : Statement (.parkComplete stall) := wf_iff_absent _
theorem preemption (stall : Nat) : Statement (.preemption stall) := wf_iff_absent _
theorem stallAssign (stall : Nat) : Statement (.stallAssign stall) := wf_iff_absent _
theorem frameReload (stall reg : Nat) : Statement (.frameReload stall reg) := wf_iff_absent _
theorem floatStateSwitch (stall : Nat) : Statement (.floatStateSwitch stall) := wf_iff_absent _
theorem tlbWalk (unit : TlbUnit) (berth va : Nat) (speculative : Bool) : Statement (.tlbWalk unit berth va speculative) := wf_iff_absent _
theorem stridePrefetch (shed stream : Nat) : Statement (.stridePrefetch shed stream) := wf_iff_absent _
theorem ownershipRequest (shed line : Nat) : Statement (.ownershipRequest shed line) := wf_iff_absent _
theorem directoryEviction (line : Nat) : Statement (.directoryEviction line) := wf_iff_absent _
theorem writeBackAck (shed line : Nat) : Statement (.writeBackAck shed line) := wf_iff_absent _
theorem lineRead (line : DeviceLine) : Statement (.lineRead line) := wf_iff_absent _
theorem sidecarFetch (port : Nat) (group : DeviceGroup) : Statement (.sidecarFetch port group) := wf_iff_absent _
theorem immutTtl (shed : Nat) : Statement (.immutTtl shed) := wf_iff_absent _
theorem clean (shed : Nat) : Statement (.clean shed) := wf_iff_absent _
theorem inval (shed : Nat) : Statement (.inval shed) := wf_iff_absent _
theorem cleanShed (shed : Nat) : Statement (.cleanShed shed) := wf_iff_absent _
theorem immutDrop (shed : Nat) : Statement (.immutDrop shed) := wf_iff_absent _
theorem wayLock (shed : Nat) (value : Word64) : Statement (.wayLock shed value) := wf_iff_absent _
theorem wayPwr (shed : Nat) (value : Word64) : Statement (.wayPwr shed value) := wf_iff_absent _
theorem wayCleanDone (shed way : Nat) : Statement (.wayCleanDone shed way) := wf_iff_absent _
theorem xcommit (berth : Nat) : Statement (.xcommit berth) := wf_iff_absent _
theorem tlbiAll (berth : Nat) : Statement (.tlbiAll berth) := wf_iff_absent _
theorem tlbiAddr (berth : Nat) : Statement (.tlbiAddr berth) := wf_iff_absent _
theorem tlbiComplete (berth : Nat) : Statement (.tlbiComplete berth) := wf_iff_absent _
theorem minorCycle (berth : Nat) : Statement (.minorCycle berth) := wf_iff_absent _
theorem majorCycle (berth : Nat) : Statement (.majorCycle berth) := wf_iff_absent _
theorem sweep (berth : Nat) : Statement (.sweep berth) := wf_iff_absent _
theorem clearStatistics (berth : Nat) : Statement (.clearStatistics berth) := wf_iff_absent _
theorem markEnd (berth : Nat) (minor : Bool) : Statement (.markEnd berth minor) := wf_iff_absent _
theorem evacEnd (berth : Nat) (minor : Bool) : Statement (.evacEnd berth minor) := wf_iff_absent _
theorem updateEnd (berth : Nat) (minor : Bool) : Statement (.updateEnd berth minor) := wf_iff_absent _
theorem sweepEnd (berth : Nat) : Statement (.sweepEnd berth) := wf_iff_absent _
theorem objClaim (berth n : Nat) : Statement (.objClaim berth n) := wf_iff_absent _
theorem berthStart (berth : Nat) : Statement (.berthStart berth) := wf_iff_absent _
theorem resetDrain (berth : Nat) : Statement (.resetDrain berth) := wf_iff_absent _
theorem resetSquash (berth : Nat) : Statement (.resetSquash berth) := wf_iff_absent _
theorem removeDrain (berth : Nat) : Statement (.removeDrain berth) := wf_iff_absent _
theorem removeSquash (berth : Nat) : Statement (.removeSquash berth) := wf_iff_absent _
theorem drainLimit (berth : Nat) : Statement (.drainLimit berth) := wf_iff_absent _
theorem berthCommit (path : Path) (berth : Nat) : Statement (.berthCommit path berth) := wf_iff_absent _
theorem quiescentPoint (index : Nat) : Statement (.quiescentPoint index) := wf_iff_absent _
theorem quiesceLimit (index : Nat) : Statement (.quiesceLimit index) := wf_iff_absent _
theorem discard (path : Path) (index : Nat) : Statement (.discard path index) := wf_iff_absent _
theorem entryWrite (path : Path) (index sub : Nat) (value : EVal) : Statement (.entryWrite path index sub value) := wf_iff_absent _
theorem train (port : Nat) : Statement (.train port) := wf_iff_absent _
theorem portInit (port : Nat) : Statement (.portInit port) := wf_iff_absent _
theorem codedUnitInit (port : Nat) : Statement (.codedUnitInit port) := wf_iff_absent _
theorem portOff (port : Nat) : Statement (.portOff port) := wf_iff_absent _
theorem resync (port : Nat) : Statement (.resync port) := wf_iff_absent _
theorem flush (port : Nat) : Statement (.flush port) := wf_iff_absent _
theorem mapCommit (path : Path) : Statement (.mapCommit path) := wf_iff_absent _
theorem portFailure (port : Nat) : Statement (.portFailure port) := wf_iff_absent _
theorem portTimeout (port : Nat) : Statement (.portTimeout port) := wf_iff_absent _
theorem dataCodeword (link : Nat) (fec : FecResult) (header : BitVec 20) (flits : List (List Byte)) : Statement (.dataCodeword link fec header flits) := wf_iff_absent _
theorem alignmentCodeword (link : Nat) (good : BitVec 4) : Statement (.alignmentCodeword link good) := wf_iff_absent _
theorem retryTimeout (link : Nat) : Statement (.retryTimeout link) := wf_iff_absent _
theorem laneFailure (link lane : Nat) : Statement (.laneFailure link lane) := wf_iff_absent _
theorem lkRetryMs (link : Nat) : Statement (.lkRetryMs link) := wf_iff_absent _
theorem linkUp (link : Nat) : Statement (.linkUp link) := wf_iff_absent _
theorem lkEnable (path : Path) (link : Nat) (enable : Bool) : Statement (.lkEnable path link enable) := wf_iff_absent _
theorem retrain (link : Nat) : Statement (.retrain link) := wf_iff_absent _
theorem takeDown (link : Nat) : Statement (.takeDown link) := wf_iff_absent _
theorem retrainFullWidth (link : Nat) : Statement (.retrainFullWidth link) := wf_iff_absent _
theorem hello (link : Nat) (msg : List Byte) : Statement (.hello link msg) := wf_iff_absent _
theorem lsa (link : Nat) (msg : List Byte) : Statement (.lsa link msg) := wf_iff_absent _
theorem lsaRefresh : Statement (.lsaRefresh) := wf_iff_absent _
theorem soundQuiet : Statement (.soundQuiet) := wf_iff_absent _
theorem assign (link : Nat) (msg : List Byte) : Statement (.assign link msg) := wf_iff_absent _
theorem nodedown (link : Nat) (msg : List Byte) : Statement (.nodedown link msg) := wf_iff_absent _
theorem startSounding : Statement (.startSounding) := wf_iff_absent _
theorem rebuildCharts : Statement (.rebuildCharts) := wf_iff_absent _
theorem stopSounding : Statement (.stopSounding) := wf_iff_absent _
theorem chartCommit (path : Path) : Statement (.chartCommit path) := wf_iff_absent _
theorem packetRoute (index : Nat) : Statement (.packetRoute index) := wf_iff_absent _
theorem routeHold (index : Nat) : Statement (.routeHold index) := wf_iff_absent _
theorem requestInjection : Statement (.requestInjection) := wf_iff_absent _
theorem load : Statement (.load) := wf_iff_absent _
theorem store : Statement (.store) := wf_iff_absent _
theorem remoteCas : Statement (.remoteCas) := wf_iff_absent _
theorem remoteFadd : Statement (.remoteFadd) := wf_iff_absent _
theorem remoteFill : Statement (.remoteFill) := wf_iff_absent _
theorem remoteInvoke : Statement (.remoteInvoke) := wf_iff_absent _
theorem list : Statement (.list) := wf_iff_absent _
theorem drop : Statement (.drop) := wf_iff_absent _
theorem data : Statement (.data) := wf_iff_absent _
theorem ack : Statement (.ack) := wf_iff_absent _
theorem line : Statement (.line) := wf_iff_absent _
theorem refuse : Statement (.refuse) := wf_iff_absent _
theorem retry : Statement (.retry) := wf_iff_absent _
theorem waiting : Statement (.waiting) := wf_iff_absent _
theorem xack : Statement (.xack) := wf_iff_absent _
theorem remoteTimeout (slot : Nat) : Statement (.remoteTimeout slot) := wf_iff_absent _
theorem resentEntryExpiry (index : Nat) : Statement (.resentEntryExpiry index) := wf_iff_absent _
theorem tsyncInterval : Statement (.tsyncInterval) := wf_iff_absent _
theorem tsyncReq (link : Nat) (t1 t2 t3 : Nat) : Statement (.tsyncReq link t1 t2 t3) := wf_iff_absent _
theorem tsyncRsp (t1 t2 t3 t4 : Nat) : Statement (.tsyncRsp t1 t2 t3 t4) := wf_iff_absent _
theorem stallWindowAccess (stall offset : Nat) (op : WinOp) : Statement (.stallWindowAccess stall offset op) := wf_iff_absent _
theorem halt (stall : Nat) : Statement (.halt stall) := wf_iff_absent _
theorem stallctlStart (core : Nat) : Statement (.stallctlStart core) := wf_iff_absent _
theorem kill (stall : Nat) : Statement (.kill stall) := wf_iff_absent _
theorem helmOpen (node seqn : Nat) : Statement (.helmOpen node seqn) := wf_iff_absent _
theorem helmClose (node seqn : Nat) : Statement (.helmClose node seqn) := wf_iff_absent _
theorem helmRead (node seqn index sub : Nat) : Statement (.helmRead node seqn index sub) := wf_iff_absent _
theorem helmWrite (node seqn index sub : Nat) (value : EVal) : Statement (.helmWrite node seqn index sub value) := wf_iff_absent _
theorem ctrlRd (node seqn offset : Nat) : Statement (.ctrlRd node seqn offset) := wf_iff_absent _
theorem ctrlWr (node seqn offset : Nat) (value : Word64) : Statement (.ctrlWr node seqn offset value) := wf_iff_absent _
theorem dpWrite (node seqn : Nat) : Statement (.dpWrite node seqn) := wf_iff_absent _
theorem dpRead (node seqn : Nat) : Statement (.dpRead node seqn) := wf_iff_absent _
theorem dpAck (node seqn next : Nat) : Statement (.dpAck node seqn next) := wf_iff_absent _
theorem seg (node segno : Nat) (bytes : List Byte) : Statement (.seg node segno bytes) := wf_iff_absent _
theorem sessionTimeout (node : Nat) : Statement (.sessionTimeout node) := wf_iff_absent _
theorem helmAckTimeout (node : Nat) : Statement (.helmAckTimeout node) := wf_iff_absent _
theorem alive : Statement (.alive) := wf_iff_absent _
theorem busOffRecovery : Statement (.busOffRecovery) := wf_iff_absent _
theorem dpAddr (inst : DpInst) (value : Word64) : Statement (.dpAddr inst value) := wf_iff_absent _
theorem dpLen (inst : DpInst) (value : Nat) : Statement (.dpLen inst value) := wf_iff_absent _
theorem dpData (inst : DpInst) (wr : Bool) (bytes : List Byte) (count : Nat) : Statement (.dpData inst wr bytes count) := wf_iff_absent _
theorem verifyAndLoad (path : Path) : Statement (.verifyAndLoad path) := wf_iff_absent _
theorem verifyOnly (path : Path) : Statement (.verifyOnly path) := wf_iff_absent _
theorem winBase (path : Path) (slot value : Nat) : Statement (.winBase path slot value) := wf_iff_absent _
theorem lock (path : Path) (slot : Nat) (value : Nat) : Statement (.lock path slot value) := wf_iff_absent _
theorem violClear (path : Path) (slot : Nat) (value : Nat) : Statement (.violClear path slot value) := wf_iff_absent _
theorem gateFence (path : Path) : Statement (.gateFence path) := wf_iff_absent _
theorem gateFenceComplete : Statement (.gateFenceComplete) := wf_iff_absent _
theorem hostDoorbell (value : Word64) : Statement (.hostDoorbell value) := wf_iff_absent _
theorem hostLinkDown : Statement (.hostLinkDown) := wf_iff_absent _
theorem hostLinkUp : Statement (.hostLinkUp) := wf_iff_absent _
theorem functionLevelReset (vf : Nat) : Statement (.functionLevelReset vf) := wf_iff_absent _
theorem pePerstN (level : Bool) : Statement (.pePerstN level) := wf_iff_absent _
theorem watchReport (hw : Option Report) : Statement (.watchReport hw) := wf_iff_absent _
theorem watchDisagreement : Statement (.watchDisagreement) := wf_iff_absent _
theorem moorCmd (path : Path) (value : Nat) : Statement (.moorCmd path value) := wf_iff_absent _
theorem moorN (level : Bool) (widthNs : Nat) : Statement (.moorN level widthNs) := wf_iff_absent _
theorem feClear (path : Path) (value : Nat) : Statement (.feClear path value) := wf_iff_absent _
theorem injectCorr (path : Path) (value : BitVec 32) : Statement (.injectCorr path value) := wf_iff_absent _
theorem injectUncorr (path : Path) (value : BitVec 32) : Statement (.injectUncorr path value) := wf_iff_absent _
theorem injectPoison (path : Path) (value : BitVec 32) : Statement (.injectPoison path value) := wf_iff_absent _
theorem injectUnit (path : Path) (value : BitVec 32) : Statement (.injectUnit path value) := wf_iff_absent _
theorem lanternToggle : Statement (.lanternToggle) := wf_iff_absent _
theorem coreDivReq (path : Path) (value : Nat) : Statement (.coreDivReq path value) := wf_iff_absent _
theorem voutSettled : Statement (.voutSettled) := wf_iff_absent _
theorem voutTimeout : Statement (.voutTimeout) := wf_iff_absent _
theorem throttle (shed : Nat) (tenths : Int) : Statement (.throttle shed tenths) := wf_iff_absent _
theorem throttleExit (shed : Nat) (tenths : Int) : Statement (.throttleExit shed tenths) := wf_iff_absent _
theorem thermalTrip (sensor : Nat) (tenths : Int) : Statement (.thermalTrip sensor tenths) := wf_iff_absent _
theorem thermtripN (level : Bool) (widthNs : Nat) : Statement (.thermtripN level widthNs) := wf_iff_absent _
theorem pmbusPoll (status : List (Nat × BitVec 16)) : Statement (.pmbusPoll status) := wf_iff_absent _
theorem pmbAlertN (status : List (Nat × BitVec 16)) : Statement (.pmbAlertN status) := wf_iff_absent _
theorem ageAlarm (shed : Nat) (margin : Int) : Statement (.ageAlarm shed margin) := wf_iff_absent _
theorem powerOnReset (thermtripLow : Bool) : Statement (.powerOnReset thermtripLow) := wf_iff_absent _
theorem pwrgoodFall : Statement (.pwrgoodFall) := wf_iff_absent _
theorem resetN (level : Bool) (widthNs : Nat) : Statement (.resetN level widthNs) := wf_iff_absent _
theorem resetCmd (path : Path) (value : Nat) : Statement (.resetCmd path value) := wf_iff_absent _
theorem resetExit : Statement (.resetExit) := wf_iff_absent _
theorem boot (flash : FlashImages) : Statement (.boot flash) := wf_iff_absent _
theorem yardGo (path : Path) (value : Nat) : Statement (.yardGo path value) := wf_iff_absent _
theorem tallyArm (path : Path) (value : Nat) : Statement (.tallyArm path value) := wf_iff_absent _
theorem tallyWrite (path : Path) (tally value : Nat) : Statement (.tallyWrite path tally value) := wf_iff_absent _
theorem bypass : Statement (.bypass) := wf_iff_absent _
theorem idcode : Statement (.idcode) := wf_iff_absent _
theorem samplePreload (shift : List Bool) : Statement (.samplePreload shift) := wf_iff_absent _
theorem extest : Statement (.extest) := wf_iff_absent _
theorem dbgAccess (offset : Nat) (wr : Option Word64) : Statement (.dbgAccess offset wr) := wf_iff_absent _
theorem trstN (level : Bool) : Statement (.trstN level) := wf_iff_absent _
theorem vz3Undefined (stall : Nat) : Statement (.vz3Undefined stall) := wf_iff_absent _
theorem portTrainingEnd (port : Nat) (how : TrainEnd) : Statement (.portTrainingEnd port how) := wf_iff_absent _
theorem resyncUnitCopied (port : Nat) : Statement (.resyncUnitCopied port) := wf_iff_absent _
theorem maintComplete (shed : Nat) : Statement (.maintComplete shed) := wf_iff_absent _
theorem wayPowerUpDone (shed way : Nat) : Statement (.wayPowerUpDone shed way) := wf_iff_absent _
theorem s2mNdr (port : Nat) (kind : NdrKind) (ok : Bool) : Statement (.s2mNdr port kind ok) := wf_iff_absent _
theorem cxlEventRecord (port count : Nat) : Statement (.cxlEventRecord port count) := wf_iff_absent _
theorem canErrorFrame (busOff : Bool) : Statement (.canErrorFrame busOff) := wf_iff_absent _
theorem patchCheckEnd : Statement (.patchCheckEnd) := wf_iff_absent _
theorem tallyProgrammed : Statement (.tallyProgrammed) := wf_iff_absent _
theorem objStatusDone (berth : Nat) : Statement (.objStatusDone berth) := wf_iff_absent _

end Sys2Proof.Laws.Units
end

