-- ==== Sys2Proof/Tests/Slice0.lean ====
section
/-!
SUPPORT. The model's own tests: terms that are not well formed, words decoded by hand from the spec's examples, and for each statement a
concrete state and operands that meet its hypotheses. Each is about one step, on a small state that differs from reset in a few fields.
-/

namespace Sys2Proof.Tests
open Sys2Proof Sys2Proof.Machine Host
set_option Elab.async false

/-! ### Small states -/

/-- Entries written. -/
def tEnt (s : State) (l : List (Nat × Nat × Nat)) : State := l.foldl (fun s e => s.setEnt e.1 e.2.1 e.2.2) s

/-- Port 0 is ACTIVE with one coded unit initialised, and mapped at 0 (13 R301). -/
def tBase : State :=
  { State.reset with
    dict := [(ekey 0x4000 1, 2), (ekey 0x4000 5, 1), (ekey 0x4000 6, 2 ^ 21), (ekey 0x4000 7, 1)],
    applied := [(ekey 0x4000 0x10, 1), (ekey 0x4000 0x12, 2 ^ 21), (ekey 0x4000 0x13, 1)] }

/-- A granule of two words, with its check bytes. -/
def tWords (lo hi : TWord) : MGran := { MGran.zero with g := ⟨lo, hi⟩, chk := rsEncode ⟨lo, hi⟩ }

/-- A granule with its check bytes. -/
def tGran (g : Gran) : MGran := { MGran.zero with g := g, chk := rsEncode g }

/-- A granule of four byte codes or bundles' words, from its first eight bytes. -/
def tCode (lo : Nat) : MGran := tGran (rawGran (w64 lo) 0)

/-- A capability on all memory, at an address. -/
def tData (va : Nat) : Gran := (Cap.ofGran rootMemory).withAddr va

/-- A stack capability at an address. -/
def tStack (va : Nat) : Gran := (Cap.ofGran ({ Cap.ofGran rootMemory with kind := kSTACK } : Cap).toGran).withAddr va

/-- Code at an address. -/
def tPcc (va : Nat) : Gran := (Cap.ofGran rootCodeBerth).withAddr va

/-- A context resident in stall 0 whose next bundle stands at 0x1000. -/
def tStall (status : Word64) (gs : SMap Gran) : Stall :=
  { pcc := tPcc 0x1000, status := status, cid := some 0, phase := .running, g := gs, fowner := some 0 }

/-- That context with memory. -/
def tRun (status : Word64) (gs : SMap Gran) (mem : SMap MGran) : State :=
  { tBase with stalls := [(0, tStall status gs)], records := [(0, { rstate := .resident })], mem := mem }

/-- STATUS with CM = 1. -/
abbrev tCM : Word64 := 0x800

/-- A stack of two words, a pool, locals, capabilities on data and code beside the pool, and a frame on G31. -/
def tMem : List (Nat × MGran) :=
  [(0x200, tWords (TWord.fix 2) (TWord.fix 7)), (0x280, tGran (tStack 0x2100)), (0x281, tGran (tPcc 0x1100)), (0x282, tGran (rawGran 1 0)),
   (0x300, tWords (TWord.fix 9) (TWord.fix 11)), (0x301, tGran (tData 0x3000)), (0x302, tGran (tPcc 0x1200))]

/-- The slots of a byte-code program. -/
def tSlots : SMap Gran := [(28, tData 0x3000), (29, tStack 0x2000), (30, tStack 0x2000), (31, tStack 0x2800)]

/-- Stall 0 at a byte code with its operand bytes. -/
def tVz (code : Nat) : State := tRun tCM tSlots ((0x100, tCode code) :: tMem)

/-- Stall 0 stands at the byte code `op`, which may run, and `f` holds of how it runs. -/
def vzMeets (s : State) (op : Nat) (f : Vz → Bool) : Bool := match s.vzPrep ctl 0 (· == op) with | .ok (o, v) => o == op && f v | .error _ => false

/-- The byte code that stall 0 stands at runs through `body`. -/
def vzGoes (s : State) (op : Nat) (body : Vz → Run → Except VzStop Run) : Bool :=
  vzMeets s op (fun v => match body v { s := v.base, t := v.me.t0 } with | .ok _ => true | .error _ => false)

/-- The byte code that stall 0 stands at may run. -/
def vzStands (s : State) (op : Nat) : Bool := vzGoes s op (fun _ x => .ok x)

/-! ### Terms that are not well formed: one for each kind of unit (00 R10) -/

theorem test_unit_stall : (Instr.halt 16384).wf = false := by decide
theorem test_unit_core : (Instr.deviceEvent 256).wf = false := by decide
theorem test_unit_shed : (Instr.clean 16).wf = false := by decide
theorem test_unit_port : (Instr.train 16).wf = false := by decide
theorem test_unit_link : (Instr.retrain 12).wf = false := by decide
theorem test_unit_berth : (Instr.berthStart 64).wf = false := by decide
theorem test_unit_last : (Instr.halt 16383).wf = true ∧ (Instr.berthStart 63).wf = true ∧ (Instr.retrain 11).wf = true := by decide

theorem test_unit_sequencer : (Instr.microwordWait 0 2).wf = false := by decide
theorem test_unit_lane : (Instr.laneFailure 0 4).wf = false := by decide
theorem test_unit_way : (Instr.wayCleanDone 0 16).wf = false := by decide
theorem test_unit_register : (Instr.resultDelivery 0 56).wf = false := by decide
theorem test_unit_slot : (Instr.remoteTimeout 32768).wf = false := by decide
theorem test_unit_gate : (Instr.lock .pf 64 1).wf = false := by decide
theorem test_unit_vf : (Instr.entryWrite (.vf 64) 0x1000 0x10 (.num 2)).wf = false := by decide
theorem test_unit_function : (Instr.functionLevelReset 64).wf = false := by decide
theorem test_unit_manager : (Instr.helmOpen 0 0).wf = false ∧ (Instr.helmOpen 128 0).wf = false := by decide
theorem test_unit_tally : (Instr.tallyWrite .pf 6 0).wf = false := by decide
theorem test_unit_sensor : (Instr.thermalTrip 20 1100).wf = false := by decide

/-! ### Words decoded by hand -/

/-- 04 Example 4.1: ADD.G G7, G7, G9 with LDW G8, 0x18(G4) on P2 and BR −64 on not P3. -/
theorem test_decode_bundle : decBundle [0x0039D200, 0x13410003, 0xDF0FFFF0] =
    some ⟨[⟨0x0039D200, 0, 0, .gen .add 7 7 (.reg 9)⟩, ⟨0x13410003, 2, 2, .ldw false 8 4 (.imm 0x18)⟩, ⟨0xDF0FFFF0, 4, 11, .br (-64)⟩], 3⟩ := by decide +kernel

/-- 04 Example 4.2: LI.G G5 with two LIMMs. -/
theorem test_decode_limms : decBundle [0x01281EBC, 0x45159E26, 0xC0000091] = some ⟨[⟨0x01281EBC, 0, 0, .li 5 0x123456789ABC⟩], 3⟩ := by decide +kernel

/-- 04 R69, R70: no STOP, a LIMM that follows nothing, two writes of one register. -/
theorem test_decode_refuses : decBundle [0x0039D200] = none ∧ decBundle [0xC0000091] = none ∧ decBundle [0x0039D200, 0x8039D200] = none := by decide +kernel

/-! ### The queue -/

theorem witness_StepRunsTheFrontCommand : ({ State.reset with pending := [.alive, .lsaRefresh] } : State).pending = .alive :: [.lsaRefresh] := rfl

theorem witness_EmptyQueueCountsATick : tBase.pending = [] := rfl

theorem witness_EveryStepTakesTheFront : step tBase = .next tBase.tick := rfl

theorem witness_QueueRunsToItsEnd : ∀ c ∈ ({ tBase with pending := [.halt 16383, .train 0, .alive] } : State).pending, c.absent = none := by decide

theorem witness_OnlyAbsentUnitsStop : (Instr.halt 16383).absent = none ∧ (Instr.halt 16384).absent ≠ none := by decide

theorem witness_ResetHoldsTheDeviceStill :
    ({ tBase with inReset := true } : State).inReset = true ∧ (Instr.halt 3).absent = none ∧ (Instr.halt 3).actsInReset = false := by decide

theorem witness_MooredHoldsTheCoresStill :
    (tEnt tBase [(0x6000, 0x02, 1)]).ent 0x6000 0x02 = 1 ∧ (Instr.halt 3).absent = none ∧ (Instr.halt 3).ofHelm = false ∧
      (Instr.halt 3).actsInReset = false := by decide +kernel

/-- Berth 1 has an event, and its event context is parked with its events masked. -/
def tEvent : State :=
  tEnt { tBase with berths := [(1, { events := [⟨1, 0, 0⟩] })], records := [(5, { rstate := .parked, bevp := true, block := 1 })] } [(0x3101, 0x14, 5)]

theorem witness_EventContextsStayAwake : (∀ b < nBerths, tEvent.eventAwake b) ∧ (tEvent.berth 1).events ≠ [] ∧ tEvent.living (tEvent.ent 0x3101 0x14) = true ∧
    step tEvent = .next tEvent.tick := by
  refine ⟨?_, ?_, ?_, rfl⟩
  · intro b _ he _ _ _
    have h1 : b = 1 := by
      by_contra h
      exact he (by simp [tEvent, tEnt, State.setEnt, State.berth, SMap.get, h])
    subst h1
    exact ⟨by decide +kernel, fun _ => by decide +kernel⟩
  · decide +kernel
  · decide +kernel

theorem witness_ConsequencesLeaveTheMachine : ∀ b < nBerths, tEvent.berthState b ≠ bsRESETTING := by decide +kernel

/-! ### Registers, operations, memory -/

theorem witness_AshGShiftsExactly :
    (TWord.raw 1).tag ≠ tagFIX ∧ (TWord.fix 1).tag = tagFIX ∧
    ((0 : Int) ≤ (62 : Word64).toInt ∧ -(2 ^ 63) ≤ (1 : Word64).toInt * 2 ^ (62 : Word64).toInt.toNat ∧ (1 : Word64).toInt * 2 ^ (62 : Word64).toInt.toNat < 2 ^ 63) ∧
    (0 ≤ (63 : Word64).toInt ∧ 2 ^ 63 ≤ (1 : Word64).toInt * 2 ^ (63 : Word64).toInt.toNat) ∧ (-64 : Word64).toInt ≤ -64 ∧ (-1 : Word64).toInt < 0 := by decide +kernel

theorem witness_WordStoreEndsACapability : (tData 0x40).isCap = true := by decide +kernel

theorem witness_DirectBlocksTranslateByOffset : tlbHit (tBase.tlb (.core 0)) 0 0x1000 = none ∧
    (match tBase.findBlk 0 0x1000 16 0 with | some (n, x) => n == 0 && !x.walked | none => false) = true := by decide +kernel

theorem witness_GranuleStoresReachTheirPort : tBase.locate 0x1FFFF0 = some (0, 0x1FFFF0) ∧ tBase.mirrored 0 = false ∧ Memory.wf tBase.mem = true := by decide +kernel

/-- 02 R30: the check bytes of the zero granule are zero, and an error in any symbol of one granule is corrected. -/
theorem test_one_symbol : (upTo 21).all (fun p =>
    let cw := codeword (tData 0x12340) (rsEncode (tData 0x12340))
    let r := ofCodeword (listSet cw p ((listAt cw p).getD 0 ^^^ 0x80))
    rsDecode r.1 r.2 == (.corrected, tData 0x12340, rsEncode (tData 0x12340))) = true := by decide +kernel

theorem witness_OneSymbolErrorsAreCorrected : 20 < 21 ∧ (0x01 : BitVec 8) ≠ 0 := by decide

/-! ### Issue -/

/-- Stall 0 at a bundle of one ADD.G G7, G7, G9. -/
def tAdd : State := tRun 0 [(7, Gran.ofWord (TWord.fix 40)), (9, Gran.ofWord (TWord.fix 2))] [(0x100, tCode 0x8039D200)]

/-- Stall 0 at other code, with STATUS, G registers, pending and refused registers. -/
def tAt (lo : Nat) (status : Word64) (gs : SMap Gran) (pend refused : BitVec 32) (mem : List (Nat × MGran)) : State :=
  { tBase with
    stalls := [(0, { tStall status gs with pend := pend, refused := refused, rep := 2 })], records := [(0, { rstate := .resident })],
    mem := (0x100, tCode lo) :: mem }

/-- What stall 0 has next, with the state its fetch leaves, meets `f`. -/
def nextMeets (s : State) (f : State → Next → Bool) : Bool := match s.fetchNext 0 with | (s1, .ok it) => f (s1.entered 0) it | _ => false

/-- The next bundle of stall 0 meets the premises of a bundle that completes. -/
def bundleGoes (s : State) (micro : Bool) : Bool :=
  nextMeets s (fun s it => match it with | .once b addr | .iter b addr => s.bundleRuns 0 b addr micro | .done _ => false)

/-- Nothing the next bundle of stall 0 names is awaited, and `f` holds of what its syllables come to. -/
def evalMeets (s : State) (f : State → Bundle → Eval → Bool) : Bool :=
  nextMeets s (fun s it => match it with | .once b addr => !b.isRep && !(s.stall 0).blocked b && f s b (s.evalBundle ctl 0 b addr false) | _ => false)

/-- Two FIX words in G7 and G9. -/
def tFix : SMap Gran := [(7, Gran.ofWord (TWord.fix 40)), (9, Gran.ofWord (TWord.fix 2))]

/-- REP 2 before ADD.G G7, G7, G9. -/
abbrev tRepAdd : Nat := 0x8039D20087100002

theorem witness_BundleIssueExecutesTheBundle_runs : tAdd.coreRuns = true ∧ tAdd.mayIssue 0 = true ∧ bundleGoes tAdd false = true ∧
    (tAt tRepAdd 0x100 tFix 0 0 []).mayIssue 0 = true ∧ bundleGoes (tAt tRepAdd 0x100 tFix 0 0 []) false = true ∧
    nextMeets (tAt tRepAdd 0x100 tFix 0 0 []) (fun _ it => match it with | .iter _ _ => true | _ => false) = true ∧
    nextMeets (tAt tRepAdd 0 tFix 0 0 []) (fun _ it => match it with | .once b _ => b.isRep | _ => false) = true ∧
    nextMeets ((tAt tRepAdd 0x100 tFix 0 0 []).updStall 0 (fun t => { t with rep := 0 })) (fun _ it => match it with | .done _ => true | _ => false) = true := by
  decide +kernel

/-- Stall 0 at RETY, with an exception frame on G31. -/
def tRety : State :=
  tAt 0x86000020 0x4001 [(31, tStack 0x2800)] 0 0
    ((frameOf (tPcc 0x1100) 0 { cause := cILLEGAL } 0 0 1 (tStack 0x2880) 0).mapIdx (fun i g => (0x280 + i, tGran g)))

/-- RETY needs a routine; ADD.G of RAW words faults; EXIT ends; G9 is awaited, is refused; a FENCE waits for a store; PCC is no capability. -/
theorem witness_BundleIssueExecutesTheBundle_stops :
    evalMeets tRety (fun s b e => ((s.stall 0).refusedNamed b).isNone && !e.wait && e.micro) = true ∧
    evalMeets (tAt 0x8039D200 0 [] 0 0 []) (fun s b e => ((s.stall 0).refusedNamed b).isNone && !e.wait && !e.micro && (lowestFail e.fails).isSome) = true ∧
    evalMeets (tAt 0x86000070 0 [] 0 0 []) (fun _ _ e => !e.micro && e.fails.isEmpty && e.run.ends) = true ∧
    nextMeets (tAt 0x8039D200 0 tFix 0x200 0 []) (fun s it => match it with | .once b _ => (s.stall 0).blocked b | _ => false) = true ∧
    evalMeets (tAt 0x8039D200 0 tFix 0 0x200 []) (fun s b e => (s.stall 0).refusedNamed b == some 9 && e.fails.isEmpty) = true ∧
    evalMeets ({ tAt 0x82000038 0 [] 0 0 [] with cores := [(0, { buffer := [{ line := 0xC0, stores := [{ gi := 0, g := Gran.zero, cids := [0], seqNo := 0 }] }] })] })
      (fun s b e => ((s.stall 0).refusedNamed b).isNone && e.wait) = true ∧
    (match (tAdd.updStall 0 (fun t => { t with pcc := Gran.zero })).fetchNext 0 with | (_, .error f) => f.rank != 3 | _ => false) = true := by decide +kernel

/-- The bundle's sum, its next bundle. -/
theorem test_bundle_add : (match exec (.bundleIssue 0) tAdd with
    | .next t => decide ((t.stall 0).getG 7 = Gran.ofWord (TWord.fix 42)) && decide ((Cap.ofGran (t.stall 0).pcc).addr = 0x1004)
    | _ => false) = true := by decide +kernel

/-- Stall 0's bundle runs in sequencer 0 of core 0. -/
def tMicro : State := { tAdd with cores := [(0, { seqr0 := some { stall := 0 } })] }

/-- A sequencer runs a byte code's routine for stall 0, one bundle's with an event open, and one while the patch RAM is in use. -/
def tMicroVz : State := { tVz 0x10 with cores := [(0, { seqr0 := some { stall := 0 } })] }
def tMicroEvent : State := tMicro.updStall 0 (fun t => { t with status := 4, timp := true })
def tMicroPatched : State := tMicro.setEnt 0x8000 0x40 0x80000000

theorem witness_MicrowordCommitsItsRoutine : tMicro.coreRuns = true ∧ (tMicro.core 0).seqr 0 = some { stall := 0 } ∧ tMicro.mayGoOn 0 = true ∧
    tMicro.patched = false ∧ tMicro.eventFirst 0 = false ∧ stCM (tMicro.stall 0).status = false ∧ bundleGoes tMicro true = true ∧
    (tMicroVz.mayGoOn 0 = true ∧ tMicroVz.patched = false ∧ tMicroVz.eventFirst 0 = false ∧ stCM (tMicroVz.stall 0).status = true ∧
      vzMeets tMicroVz 0x10 (fun v => match vzRun 0x10 v with | .ok _ => true | .error _ => false) = true) ∧
    (tMicroEvent.mayGoOn 0 = true ∧ tMicroEvent.eventFirst 0 = true) ∧
    (tMicroPatched.mayGoOn 0 = true ∧ tMicroPatched.patched = true ∧ tMicroPatched.eventFirst 0 = false) := by decide +kernel

theorem witness_ByteCodesPush :
    vzGoes (tVz 0xFF01) 0x01 (fun v r => vzPush v r (TWord.fix (w64i (v.simm 8)))) = true ∧
    vzGoes (tVz 0x8000000002) 0x02 (fun v r => vzPush v r (TWord.fix (w64i (v.simm 32)))) = true ∧
    vzGoes (tVz 0x03) 0x03 (fun v r => vzPush v r ⟨tagNIL, 0⟩) = true ∧ vzGoes (tVz 0x04) 0x04 (fun v r => vzPush v r ⟨tagBOOL, 1⟩) = true ∧
    vzGoes (tVz 0x05) 0x05 (fun v r => vzPush v r ⟨tagBOOL, 0⟩) = true ∧ vzGoes (tVz 0x0106) 0x06 (vzLoadAt 28) = true ∧
    vzGoes (tVz 0x000107) 0x07 (vzLoadAt 28) = true ∧ vzGoes (tVz 0x0108) 0x08 (vzLoadAt 29) = true ∧
    vzGoes (tVz 0x00010A) 0x0A (vzLoadAt 29) = true := by decide +kernel

theorem witness_ByteCodesMoveWords :
    vzGoes (tVz 0x0109) 0x09 (vzStoreAt 29) = true ∧ vzGoes (tVz 0x00010B) 0x0B (vzStoreAt 29) = true ∧
    vzGoes (tVz 0x0C) 0x0C vzDup = true ∧ vzGoes (tVz 0x0D) 0x0D vzDrop = true ∧ vzGoes (tVz 0x0E) 0x0E vzSwap = true ∧
    vzGoes (tVz 0x0F) 0x0F vzOver = true := by decide +kernel

theorem witness_ByteCodesCompute :
    [(0x10, GOp.add), (0x11, .sub), (0x12, .mul), (0x13, .div), (0x14, .rem), (0x16, .ash)].all (fun e => vzGoes (tVz e.1) e.1 (vzBin e.2)) = true ∧
    vzGoes (tVz 0x15) 0x15 vzNeg = true ∧ (upTo 6).all (fun rel => vzGoes (tVz (0x17 + rel)) (0x17 + rel) (vzCmp rel)) = true ∧
    [(0x1D, LOp.and), (0x1E, .or), (0x1F, .xor)].all (fun e => vzGoes (tVz e.1) e.1 (vzLogic e.2)) = true ∧
    vzGoes (tVz 0x23) 0x23 vzTag = true := by decide +kernel

/-- EXIT leaves stall 0, with its stores performed and with one open. -/
def tVzExit (buf : List BufEntry) : State := { tVz 0xFD with cores := [(0, { buffer := buf })] }
def tBuf : List BufEntry := [{ line := 0xC0, stores := [{ gi := 0, g := Gran.zero, cids := [0], seqNo := 0 }] }]

theorem witness_ByteCodesTransfer :
    vzStands (tVz 0x00) 0x00 = true ∧ vzStands (tVz 0xFFFD20) 0x20 = true ∧ vzGoes (tVz 0x000821) 0x21 (vzJif false) = true ∧
    vzGoes (tVz 0x000822) 0x22 (vzJif true) = true ∧ vzGoes (tVz 0x0124) 0x24 vzLoadx = true ∧
    vzGoes (tVz 0x0125) 0x25 vzStorex = true ∧ vzGoes (tVz 0x0226) 0x26 vzCallk = true ∧ vzGoes (tVz 0x0127) 0x27 vzRetn = true ∧
    vzMeets (tVzExit []) 0xFD (fun v => let x := v.base.leaveBoot.dropRoutine 0; !isS63 0 && !x.storesOpen (x.cidOf 0)) = true ∧
    vzMeets (tVzExit tBuf) 0xFD (fun v => let x := v.base.leaveBoot.dropRoutine 0; x.storesOpen (x.cidOf 0)) = true ∧
    vzStands (tVz 0xFE) 0xFE = true ∧ vzStands (tVz 0xFF) 0xFF = true ∧ vzStands (tVz 0x28) 0x28 = true ∧ vzStands (tVz 0xFC) 0xFC = true := by decide +kernel

/-- ADD of a stack that is no capability faults; LOADL of an EMPTY local waits. -/
theorem witness_ByteCodesTransfer_stops :
    vzMeets (tRun tCM [] [(0x100, tCode 0x10)]) 0x10 (fun v => match vzRun 0x10 v with | .error (.fail _ _) => true | _ => false) = true ∧
    vzMeets (tRun tCM [(29, tStack 0x2000), (30, tStack 0x2000)] [(0x100, tCode 0x0108), (0x200, tWords (TWord.fix 2) ⟨tagEMPTY, 0⟩)]) 0x08
      (fun v => match vzRun 0x08 v with | .error (.send _) => true | _ => false) = true ∧
    vzMeets { (tRun 0x808 tSlots ((0x100, tCode 0x10) :: (0x200, tWords ⟨tagFLO, 0⟩ ⟨tagFLO, 0⟩) :: tMem)) with
        stalls := [(0, { tStall 0x808 tSlots with fowner := some 1 })] } 0x10
      (fun v => match vzRun 0x10 v with | .error .wait => true | _ => false) = true := by decide +kernel

/-- 09 Table 9.13: SUB leaves a − b, with a below b on the stack. -/
theorem test_byte_code_sub : (match exec (.vz3Sub 0) (tVz 0x11) with
    | .next t => decide ((Cap.ofGran ((t.stall 0).getG 30)).addr = 0x2008)
    | _ => false) = true := by decide +kernel

/-! ### Exceptions and events -/

/-- Stall 0 with a stack, a double-fault stack and an illegal operation pending. -/
def tExc : State :=
  { tRun 0 [] [] with
    stalls := [(0, { tStall 0 [(31, tStack 0x2800)] with exc := some { cause := cILLEGAL }, dfstack := tStack 0x2C00 })] }

/-- A push whose stores do not fault. -/
def pushes (s : State) (g : Gran) (fr : List Gran) : Bool := match (s.push (s.who 0) g fr).2 with | .ok _ => true | .error _ => false

theorem witness_ExceptionEntryPushesItsFrame : tExc.coreRuns = true ∧ tExc.mayRun 0 = true ∧ (tExc.stall 0).entryReady = true ∧
    (tExc.stall 0).yielding = none ∧ tExc.patched = false ∧ (tExc.stall 0).exc = some { cause := cILLEGAL } ∧ (tExc.stall 0).entering = none ∧
    pushes tExc ((tExc.stall 0).getG 31) (frameOf (tExc.stall 0).pcc (tExc.stall 0).status { cause := cILLEGAL } (tExc.stall 0).lc (tExc.stall 0).rep
      (tExc.stall 0).predsNat ((tExc.stall 0).getG 31) tExc.time) = true ∧
    (let s := tExc.updStall 0 (fun t => { t with g := [] });
      pushes s ((s.stall 0).getG 31) (frameOf (s.stall 0).pcc (s.stall 0).status { cause := cILLEGAL } (s.stall 0).lc (s.stall 0).rep
        (s.stall 0).predsNat ((s.stall 0).getG 31) s.time) = false ∧ stDF (s.stall 0).status = false ∧
      stDF ((s.updStall 0 (fun t => { t with status := setBit (0 : Word64) 10 true })).stall 0).status = true) ∧
    (let s := tExc.updStall 0 (fun t => { t with exc := none, status := 4, timp := true });
      (s.stall 0).exc = none ∧ s.eventsOpen 0 = true ∧ (s.nextEvent 0).isSome = true ∧ (s.stall 0).entryReady = true) := by decide +kernel

/-- An entry of that exception under way, and a fault of it. -/
def tDouble (df : Gran) : State :=
  { tExc with
    stalls := [(0, { tStall 0 [] with exc := some { cause := cBUS }, entering := some { exc := { cause := cILLEGAL } }, dfstack := df })] }

/-- Eight granules, as a frame has. -/
def tFrame : List Gran := List.replicate 8 Gran.zero

theorem witness_DoubleFaultUsesDfstack : (tDouble (tStack 0x2C00)).coreRuns = true ∧ (tDouble (tStack 0x2C00)).mayRun 0 = true ∧
    ((tDouble (tStack 0x2C00)).stall 0).entryReady = true ∧ ((tDouble (tStack 0x2C00)).stall 0).yielding = none ∧ (tDouble (tStack 0x2C00)).patched = false ∧
    ((tDouble (tStack 0x2C00)).stall 0).exc = some { cause := cBUS } ∧ ((tDouble (tStack 0x2C00)).stall 0).entering = some { exc := { cause := cILLEGAL } } ∧
    pushes (tDouble (tStack 0x2C00)) ((tDouble (tStack 0x2C00)).stall 0).dfstack tFrame = true ∧
    pushes (tDouble Gran.zero) ((tDouble Gran.zero).stall 0).dfstack tFrame = false ∧ stDF (setBit (0 : Word64) 10 true) = true := by decide +kernel

/-- The interrupt context of core 0 with an event pending, and stall 0 with a TIMER reached. -/
def tDev : State :=
  { tBase with
    stalls := [(0, { tStall 0 [] with timer := 5 }), (63, { tStall 4 [] with cid := some (intCid 0) })],
    cores := [(0, { devPend := [(43, 24), (40, 30)] })], time := 5 }

theorem witness_DeviceEventsAndTimersArePending : tDev.coreRuns = true ∧
    (tDev.mayRun 63 = true ∧ (tDev.stall 63).entryReady = true ∧ (tDev.stall 63).yielding = none ∧ tDev.eventsOpen 63 = true ∧
      (tDev.nextEvent 63).isNone = true ∧ lowestDev (tDev.core 0).devPend = some (40, 30)) ∧
    ((tDev.stall 0).cid.isSome = true ∧ (tDev.stall 0).timer ≠ 0 ∧ (tDev.stall 0).timer.toNat ≤ tDev.time ∧
      maskBit (tDev.stall 0).inframe (32 + srTIMER) = false) ∧ (tDev.stall 5).timer = 0 := by decide +kernel

/-! ### Results, waits, parking -/

/-- Context 0 awaits G5, whose value is fixed. -/
def tAwait : State :=
  { tBase with
    stalls := [(0, { tStall 0 [] with pend := 0x20 })], records := [(0, { rstate := .resident })],
    ops := [{ cid := 0, reg := 5, value := some (Gran.ofWord (TWord.fix 3)) }] }

theorem witness_ResultsReachTheirRegister : tAwait.coreRuns = true ∧
    listFind (fun o : LocalOp => o.cid == 0 && o.reg == 5 && o.poll.isNone) tAwait.ops = some 0 ∧
    listAt tAwait.ops 0 = some { cid := 0, reg := 5, value := some (Gran.ofWord (TWord.fix 3)) } ∧ tAwait.living 0 = true ∧
    tAwait.liveStall 0 = some 0 ∧ maskBit (tAwait.stall 0).pend 5 = true ∧ cBUS ≠ cFPTRAP := by decide +kernel

/-- The same result refused, of a parked context with a hot slot, for a byte code, and of a context that is gone. -/
def tAwaits (o : LocalOp) (t : Stall) (r : Record) : State := { tAwait with stalls := [(0, t)], records := [(0, r)], ops := [o] }

theorem witness_ResultsReachTheirRegister_other :
    (let s := tAwaits { cid := 0, reg := 5, value := none, refusal := some { cause := cBUS } } { tStall 0 [] with pend := 0x20 } { rstate := .resident };
      s.living 0 = true ∧ s.liveStall 0 = some 0 ∧ ((listAt s.ops 0).bind (·.refusal)).isSome = true) ∧
    (let s := tAwaits { cid := 0, reg := 5, value := some Gran.zero } {} { rstate := .parked, pend := 0x20, hots := [(5, Gran.zero)] };
      s.living 0 = true ∧ s.liveStall 0 = none ∧ maskBit (s.record (cidRecord 0)).pend 5 = true ∧
        (s.record (cidRecord 0)).hots.any (fun h => h.1 == 5) = true) ∧
    (let s := tAwaits { cid := 0, reg := vzReg, value := some Gran.zero } { tStall tCM [] with vzWait := some 3 } { rstate := .resident };
      s.living 0 = true ∧ s.liveStall 0 = some 0 ∧ (s.stall 0).vzWait = some 3 ∧ vzReg < 56) ∧
    (tAwaits { cid := 0, reg := 5, value := some Gran.zero } {} {}).living 0 = false := by decide +kernel

theorem test_result_delivery : (match exec (.resultDelivery 0 5) tAwait with
    | .next t => decide ((t.stall 0).getG 5 = Gran.ofWord (TWord.fix 3)) && decide ((t.stall 0).pend = 0) && t.ops.isEmpty
    | _ => false) = true := by decide +kernel

/-- A waiter that is filled, a read that is polled, a store in a merging buffer. -/
def tWaits : State :=
  { tBase with
    waiters := [{ agent := 0, pa := 0x3000, cid := 0, reg := 4, kind := .ldw, got := some (Gran.ofWord (TWord.fix 1)) }],
    ops := [{ cid := 0, reg := 5, value := none, poll := some (0x3000, .ldw) }],
    mem := [(0x300, tWords (TWord.fix 9) (TWord.fix 11))],
    cores := [(0, { buffer := [{ line := 0xC0, stores := [{ gi := 0, g := Gran.zero, cids := [0], seqNo := 0 }] }] })] }

theorem witness_WaitsEnd : tWaits.coreRuns = true ∧
    ((listAt (tWaits.waiters.filter (fun w => w.agent == 0 && w.got.isSome)) 0).bind (·.got) = some (Gran.ofWord (TWord.fix 1))) ∧
    (listFind (fun o : LocalOp => o.cid == 0 && o.reg == 5 && o.poll.isSome) tWaits.ops = some 0 ∧
      (listAt tWaits.ops 0).bind (·.poll) = some (0x3000, .ldw) ∧
      (match (({ tWaits with ops := listDel tWaits.ops 0 } : State).readAgain (({ tWaits with ops := listDel tWaits.ops 0 } : State).coreFor 0) 0
        (({ tWaits with ops := listDel tWaits.ops 0 } : State).berthOf 0) 0x3000 .ldw WaitKind.ldw.fstatus).2 with | .gave _ _ => true | _ => false) = true) ∧
    listFind (fun o : LocalOp => o.cid == 0 && o.reg == 6 && o.poll.isSome) tWaits.ops = none ∧
    ((tWaits.core 0).buffer.find? (fun e => e.line == 0xC0)).isSome = true ∧
    ((tWaits.core 0).buffer.find? (fun e => e.line == 0xC0)).all (fun e => e.stores.all tWaits.mayDrain) = true ∧
    (tWaits.shed (shedOfCore 0)).victims.contains 0xC0 = false := by decide +kernel

/-- Stall 0 at the sum of G7 and G9, G9 awaited; a READY record of berth 0 waits; a slice is set. -/
def tPark : State :=
  tEnt { tAdd with
    stalls := [(0, { tStall 0 [(7, Gran.ofWord (TWord.fix 40))] with pend := 0x200 })],
    sheds := [(0, { ready := [(0, 9)] })], records := [(0, { rstate := .resident }), (9, { rstate := .ready })] }
    [(0x3100, 0x09, 1), (0x3100, 0x0A, 8)]

theorem witness_ParksFreeTheirStall : tPark.coreRuns = true ∧ tPark.mayPark 0 = true ∧ (tPark.stall 0).yielding = none ∧ tPark.nextInframe 0 = false ∧
    ((tPark.nextRegs 0).2.filter (maskBit (tPark.stall 0).pend)).isEmpty = false ∧ tPark.eventFirst 0 = false ∧ (tPark.stall 0).repFirst = false ∧
    tPark.ent (berthIdx (stBerth (tPark.stall 0).status)) 0x09 ≠ 0 ∧ (tPark.nextBerth (shedOf 0) (some 0)).isSome = true ∧
    (tPark.updStall 0 (fun t => { t with yielding := some 6 })).mayPark 0 = true ∧
    ((tPark.updStall 0 (fun t => { t with phase := .parking })).stall 0).phase = .parking ∧
    (tPark.patched = false ∧ tPark.stableFree (shedOf 0) = true ∧ (∀ n ∈ takeDistinct 4 (tPark.nextRegs 0).1, maskBit (tPark.stall 0).inframe n = false) ∧
      (tPark.stall 0).dirty = 0 ∧ stRPA (tPark.stall 0).status = false ∧ (tPark.stall 0).late = none ∧ (tPark.stall 0).cid.isSome = true) := by decide +kernel

/-- No stall runs, record 9 of berth 0 is READY. -/
def tAssign : State :=
  tEnt { tBase with sheds := [(0, { ready := [(0, 9)] })], records := [(9, { rstate := .ready })] } [(0x3100, 0x0A, 8)]

/-- Stall 0 with G5 in its frame. -/
def tReload : State :=
  { tRun 0 [] [] with
    stalls := [(0, { tStall 0 [] with inframe := 0x20 })], records := [(0, { rstate := .resident, frame := tData 0x4000 })] }

/-- Stall 0 in compatibility mode with FEN at an ADD of two FLO words, the float state another's. -/
def tFloat : State :=
  { tRun 0x808 tSlots ((0x100, tCode 0x10) :: (0x200, tWords ⟨tagFLO, 0⟩ ⟨tagFLO, 0⟩) :: tMem) with
    stalls := [(0, { tStall 0x808 tSlots with fowner := some 1 })] }

theorem witness_StallsTakeContexts : tAssign.coreRuns = true ∧
    (tAssign.freeStallFrom 1024 (shedOf 0 * 1024) = some 0 ∧ tAssign.stableFree (shedOf 0) = true ∧ tAssign.patched = false ∧ tAssign.nextBerth (shedOf 0) none = some 0 ∧
      (tAssign.shed (shedOf 0)).ready.find? (fun e => e.1 == 0) = some (0, 9)) ∧
    ((tReload.stall 0).runs = true ∧ maskBit (tReload.stall 0).inframe 5 = true ∧
      (match (tReload.frameAt (shedOf 0) (tReload.cidOf 0) (16 * 5)).2 with
        | .ok (_, m) => tagDefined m.g.lo.tag && tagDefined m.g.hi.tag | .error _ => false) = true ∧ maskBit (tReload.stall 0).gpois 5 = false) ∧
    (let s : State := { tReload with stalls := [(0, { tStall 0 [] with inframe := 0x400000000 })], applied := [] };
      (match srSlot 2 with
        | some (o, _) => (match (s.frameAt (shedOf 0) (s.cidOf 0) o).2 with | .error _ => true | .ok _ => false) | none => false) = true) ∧
    (tFloat.stall 0).runs = true ∧ tFloat.needsFloat ctl 0 = true := by decide +kernel

theorem witness_StallWindowReachesTheStall : tAdd.coreRuns = true ∧ tAdd.winBusy 0 = false ∧ (tAdd.stall 0).cid.isSome = true ∧
    (tAdd.stall (64 * 0 + 63)).cid = none ∧ tAdd.routine 0 = none ∧ (tAdd.updStall 0 (fun t => { t with phase := .parking })).winBusy 0 = true := by decide +kernel

/-! ### Translation and the haylofts -/

/-- Berth 1: block 0 is walked, of 2 MiB at 0, and its page is not busy. -/
def tWalk : State := { tBase with xl := [(1024 + 0x100, 0xC015000000000000), (1024 + 0x108, 0x10000)] }

theorem witness_TranslationCommandsTakeEffect : tWalk.coreRuns = true ∧
    ((Instr.tlbWalk (.core 0) 1 0x1000 false).absent = none ∧ tlbHit (tWalk.tlb (.core 0)) 1 0x1000 = none ∧
      (match tWalk.findBlk 1 0x1000 16 0 with | some (_, x) => x.walked | none => false) = true) ∧
    ((tWalk.xpage 1).busy = false ∧ tWalk.xcheck 1 = 0) ∧ ({ tWalk with xl := [(1024, 0x8000000000000000)] } : State).xcheck 1 ≠ 0 ∧
    ((tWalk.setXpage 1 { tgo := true, goSeq := 1 }).xpage 1).busy = true ∧
    (tWalk.setXpage 1 { tgo := true, goSeq := 1 }).openBefore 1 1 = false ∧
    ({ tRun 0x100000 [] [] with waiters := [{ agent := 0, pa := 0, cid := 0, reg := 4, kind := .ldw }] } : State).openBefore
      (({ tRun 0x100000 [] [] with waiters := [{ agent := 0, pa := 0, cid := 0, reg := 4, kind := .ldw }] } : State).berthOf 0) 1 = true := by decide +kernel

/-- Shed 0 with a line to write back at port 0, one to nowhere, and a confident stream. -/
def tHay : State :=
  { tBase with sheds := [(0, { victims := [5, 0x100000], streams := [{ stall := 0, hash := 0, last := 0, same := 2, berth := 0, lo := 0, hi := 64 }] })] }

theorem witness_CoherenceCommandsTakeEffect : tHay.coreRuns = true ∧ tHay.lineReady 4 = true ∧ (tHay.shed 0).victims.contains 4 = false ∧
    (tHay.shed 0).victims.contains 5 = true ∧ tHay.lineReady 0x100000 = false ∧ tHay.locate (64 * 5) = some (0, 320) ∧ tHay.mirrored 0 = false ∧
    tHay.portState 0 = psACTIVE ∧ (tEnt tHay [(portIdx 0, 0x01, psFAILED)]).portState 0 ≠ psACTIVE ∧
    (∃ x, listAt (tHay.shed 0).streams 0 = some x ∧ (tHay.shed 0).pfEn = true ∧ 2 ≤ x.same) ∧
    (∀ x, listAt (tHay.shed 1).streams 0 = some x → (tHay.shed 1).pfEn = false ∨ x.same < 2) := by
  refine ⟨by decide +kernel, by decide +kernel, by decide +kernel, by decide +kernel, by decide +kernel, by decide +kernel, by decide +kernel,
    by decide +kernel, by decide +kernel, ⟨_, rfl, by decide +kernel, by decide +kernel⟩, fun _ h => nomatch h⟩

/-- A stream whose next line is out of its bounds, one whose next line is translated, one of another version, one of an address that no block covers. -/
def tStream (ver va : Nat) : Stream := { stall := 0, hash := 0, last := va, stride := 64, same := 2, berth := 0, lo := 0, hi := va + 72, ver := ver }

theorem witness_CoherenceCommandsTakeEffect_stream :
    (let x := { tStream 0 0 with hi := 64 }; x.hi < x.last + lineStride x.stride * (0 + 1) + 8) ∧
    (let x := tStream 0 0; (x.lo : Int) ≤ x.last + lineStride x.stride * (0 + 1) ∧ x.last + lineStride x.stride * (0 + 1) + 8 ≤ x.hi) ∧
    (match tHay.translate (.core 0) 0 64 with
      | (s, .ok pa) => s.lineReady (pa / 64) && verOk 0 (s.verAt pa) && !verOk 5 (s.verAt pa) | _ => false) = true ∧
    (match tHay.translate (.core 0) 1 64 with | (_, .error _) => true | _ => false) = true := by decide +kernel

theorem witness_HayloftWindowTakesEffect : (tBase.shed 0).maintGo = false ∧
    ((tBase.setShed 0 { tBase.shed 0 with maintGo := true, maintOp := 2 }).shed 0).maintGo = true ∧
    (tBase.setShed 0 { tBase.shed 0 with maintGo := true, maintOp := 2 }).inVictims 0 = false ∧
    (countWays ((0xFFF : Word64).setWidth 16) ≤ 12 ∧ ((0xFFF : Word64).setWidth 16 &&& ~~~(tBase.shed 0).pwrState) = 0 ∧
      4 ≤ countWays ((tBase.shed 0).powered &&& ~~~((0xFFF : Word64).setWidth 16))) ∧ 12 < countWays ((0x1FFF : Word64).setWidth 16) ∧
    (((0xFFF : Word64).setWidth 16 &&& (tBase.shed 0).lock) = 0 ∧
      4 ≤ countWays ((tBase.shed 0).pwrState &&& ~~~(tBase.shed 0).cleaning &&& ~~~((0xFFF : Word64).setWidth 16) &&& ~~~(tBase.shed 0).lock)) ∧
    countWays ((tBase.shed 0).pwrState &&& ~~~(tBase.shed 0).cleaning &&& ~~~((0x1FFF : Word64).setWidth 16) &&& ~~~(tBase.shed 0).lock) < 4 ∧
    maskBit ((tBase.setShed 0 { tBase.shed 0 with cleaning := 0x8000 }).shed 0).cleaning 15 = true ∧
    maskBit ((tBase.setShed 0 { tBase.shed 0 with powering := 1 }).shed 0).powering 0 = true := by decide +kernel

/-! ### Memory ports -/

theorem witness_PortsTrainInitialiseAndStop : tBase.coreRuns = true ∧
    (tBase.portState 15 = psOFF ∧ tBase.anyTraining = false) ∧ (tEnt tBase [(portIdx 1, 1, psTRAINING)]).anyTraining = true ∧
    (tBase.portState 0 ≠ psOFF ∧ tBase.portState 0 ≠ psFAILED) ∧
    ((tEnt tBase [(portIdx 1, 1, psTRAINING)]).portState 1 = psTRAINING ∧
      ((tEnt tBase [(portIdx 1, 1, psTRAINING)]).port 1).trainWait = false ∧ maskBit tBase.isoIocs 1 = false) ∧
    (tBase.portState 0 = psACTIVE ∧ (tBase.port 0).initRun = false ∧ 0 < tBase.ent (portIdx 0) 0x05) ∧
    ((tBase.updPort 0 (fun x => { x with initRun := true })).port 0).initRun = true ∧ (tBase.portState 15 ≠ psTRAINING ∧ tBase.portState 15 ≠ psACTIVE) := by
  decide +kernel

/-- Ports 0 and 1 are a mirrored pair that has lost port 1, which is ACTIVE again; port 0 holds a dirty group. -/
def tPair : State :=
  tEnt ({ tBase with applied := [(ekey 0x4000 0x10, 1), (ekey 0x4000 0x12, 2 ^ 21), (ekey 0x4000 0x13, 1), (ekey 0x4000 0x16, 1)] }.updPort 0
    (fun x => { x with sidecar := [(7, some 3584)], scOut := [(9, 4608)], flushing := true, badSide := 2 }))
    [(portIdx 0, 0x18, 2), (portIdx 1, 0x01, psACTIVE), (portIdx 1, 0x05, 1), (portIdx 1, 0x06, 2 ^ 21), (portIdx 1, 0x07, 1)]

theorem witness_PortsServeTheirDevices : tPair.coreRuns = true ∧ tPair.portState 0 = psACTIVE ∧
    (4095 * 512 < tPair.ent (portIdx 0) 0x06 ∧ (tPair.port 0).sidecar.any (fun e => e.1 == 4095) = false) ∧
    (tBase.locate (64 * 3) = some (0, 192) ∧ tBase.readPorts 0 192 = [0] ∧ tBase.portState 0 = psACTIVE ∧ tBase.lineHeld 3 = false) ∧
    ((tPair.port 0).sidecar.find? (fun e => e.1 == 7) = some (7, some 3584) ∧ listFind (fun e : Nat × Nat => e.1 == 7) (tPair.port 0).scOut = none) ∧
    (listFind (fun e : Nat × Nat => e.1 == 9) (tPair.port 0).scOut = some 0 ∧ listAt (tPair.port 0).scOut 0 = some (9, 4608)) ∧
    (let s := tPair.updPort 0 (fun x => { x with sidecar := [], scOut := [] });
      (s.port 0).flushing = true ∧ (s.port 0).offAfter = false ∧ (s.port 0).sidecar.any (·.2.isSome) = false ∧ (s.port 0).scOut = []) ∧
    tBase.locate (64 * 0x100000) = none ∧ tPair.portState 15 ≠ psACTIVE ∧ (tPair.port 0).trainWait = false ∧ tPair.inPair 0 = true ∧
    tPair.ent (portIdx 2) 0x18 ≠ 2 ∧ tPair.ent (portIdx 0) 0x19 < 2 ^ 23 ∧ Memory.wf tPair.mem = true ∧
    (tPair.ent (portIdx 0) 0x18 = 2 ∧ tPair.portState (tPair.partner 0) = psACTIVE ∧ tPair.app (portIdx 0) 0x12 ≤ tPair.ent (portIdx (tPair.partner 0)) 0x06) ∧
    (tEnt tPair [(portIdx 0, 0x18, 3)]).ent (portIdx 0) 0x18 = 3 := by decide +kernel

/-! ### Collectors and berths -/

/-- Berth 1's heap is on, with its phases. -/
def tHeap (minor old : Nat) : State :=
  ({ tBase with applied := [(ekey 0x3101 0x40, 1), (ekey 0x3101 0x41, 0), (ekey 0x3101 0x42, 2 ^ 21)] } : State).setPhase 1 minor old

theorem witness_CollectorCommandsTakeEffect : (tHeap 0 1).coreRuns = true ∧
    ((tHeap 0 1).heapOn 1 = true ∧ ((tHeap 0 1).berth 1).halted = false ∧ (tHeap 0 1).minorPhase 1 = 0 ∧ (tHeap 0 1).oldPhase 1 ≠ 0 ∧
      (tHeap 0 1).oldPhase 1 ≠ 3 ∧ (tHeap 0 1).oldPhase 1 ≠ 4) ∧ ((tHeap 0 0).oldPhase 1 = 0 ∧ (tHeap 0 1).oldPhase 1 = 1) ∧
    (2 ≤ (tHeap 0 2).oldPhase 1 ∧ (tHeap 0 2).oldPhase 1 ≠ 5) ∧ ((tHeap 1 1).anyBuffered 1 = false ∧ (tHeap 1 1).minorPhase 1 = 1) ∧
    ((tHeap 0 2).anyBuffered 1 = false ∧ (tHeap 0 2).oldPhase 1 = 2 ∧ (tHeap 0 2).minorPhase 1 = 0) ∧ (tHeap 2 1).minorPhase 1 = 2 ∧ (tHeap 0 3).oldPhase 1 = 3 ∧
    (tHeap 3 1).minorPhase 1 = 3 ∧ (tHeap 0 4).oldPhase 1 = 4 ∧ (tHeap 0 5).oldPhase 1 = 5 ∧ tBase.ent (berthIdx 1) 0x56 ≠ 1 ∧
    (((tBase.updBerth 1 (fun x => { x with objReq := some 0 })).berth 1).objReq = some 0 ∧ tBase.heapOn 1 = false) := by decide +kernel

/-- Berth 1's heap of two segments, the second an old one with room, and a claim into a mailbox outside it. -/
def tObj : State :=
  let s : State := ({ tBase with
    applied := tBase.applied ++ [(ekey 0x3101 0x40, 1), (ekey 0x3101 0x41, 0), (ekey 0x3101 0x42, 2 ^ 22)],
    xl := [(1024 + 0x100, 0x8015000000000000), (1024 + 0x110, 0x8015000000400000)] } : State).setPhase 1 0 1
  tEnt ((({ s := s, b := 1 } : Gc).setInfo 1 (mkSeginfo 2 1 0 false false 0)).s.updBerth 1 (fun x => { x with objReq := some 0 })) [(0x3101, 0x54, 0x5F0000)]

theorem witness_CollectorCommandsTakeEffect_claims : (tObj.berth 1).objReq = some 0 ∧ tObj.heapOn 1 = true ∧ (tObj.berth 1).halted = false ∧
    tObj.ent (berthIdx 1) 0x54 % 16 = 0 ∧ (tObj.setEnt (berthIdx 1) 0x54 8).ent (berthIdx 1) 0x54 % 16 ≠ 0 ∧
    (let g0 := tObj.updBerth 1 (fun x => { x with objReq := none });
      g0.segOf 1 (tObj.ent (berthIdx 1) 0x54) = none ∧ (g0.verVA 1 (tObj.ent (berthIdx 1) 0x54)).isSome = true ∧
        (match Gc.claimChunk { s := g0, b := 1 } 2 0 with | (g, .ok _) => g.bad.isNone | _ => false) = true) := by decide +kernel

theorem witness_BerthCommandsTakeEffect : tBase.coreRuns = true ∧ tBase.ent (berthIdx 0) 0x03 ≠ 0xFF ∧
    ((1 : Nat) ≠ 0 ∧ (tEnt tBase [(0x3101, 0x01, bsCONFIGURED)]).berthState 1 = bsCONFIGURED ∧ (tEnt tBase [(0x3101, 0x01, bsCONFIGURED)]).ent (berthIdx 1) 0x03 ≠ 0xFF) ∧
    tBase.berthState 63 ≠ bsCONFIGURED ∧
    ((tEnt (tBase.updBerth 1 (fun x => { x with resetStep := 3 })) [(0x3101, 0x01, bsRESETTING)]).berthState 1 = bsRESETTING ∧
      ((tEnt (tBase.updBerth 1 (fun x => { x with resetStep := 3 })) [(0x3101, 0x01, bsRESETTING)]).berth 1).resetStep = 3) ∧
    (let s := tEnt (tBase.updBerth 1 (fun x => { x with resetStep := 3, cmd := 2 })) [(0x3101, 0x03, 0xFF)];
      s.ent (berthIdx 1) 0x03 = 0xFF ∧ (s.berth 1).resetStep = 3 ∧ (s.berth 1).cmd = 2) := by decide +kernel

theorem witness_SquashedBerthsAreConfiguredAgain : ((tBase.updBerth 1 (fun x => { x with cmd := 3, resetStep := 3 })).berth 1).cmd < 4 ∧
    4 ≤ ((tBase.updBerth 1 (fun x => { x with cmd := 4, resetStep := 3 })).berth 1).cmd := by decide +kernel

theorem witness_BerthEventsQueueOrCount : (tBase.berth 1).events.length < 32 ∧
    32 ≤ ((tBase.updBerth 1 (fun x => { x with events := List.replicate 32 ⟨1, 0, 0⟩ })).berth 1).events.length := by decide +kernel

/-! ### Links and sounding -/

/-- Link 0 is up, four lanes wide, its peer heard. -/
def tLink : State :=
  tEnt { tBase with links := [(0, { greeted := true })] } [(0x5010, 0x01, 1), (0x5010, 0x03, lsUP), (0x5010, 0x04, 0x44), (0x5000, 0x01, 0x0101)]

/-- A flit of an acknowledged packet's kind in the retry buffer. -/
def tSent : State := tLink.updLink 0 (fun l => { l with retry := [{ seq := 0, vc := 0, bytes := [], pkt := some { pt := ptACK, dst := 0x0102, src := 0x0101 } }] })

theorem witness_LinksCarryCodewords : tLink.coreRuns = true ∧ lkRuns (tLink.lkState 0) = true ∧ (0x40000 : BitVec 20).toNat / 2 ^ 18 = 1 ∧
    (0 : BitVec 20).toNat / 2 ^ 18 = 0 ∧ (tSent.linkSt 0).retry ≠ [] ∧
    ((tLink.linkSt 0).txGood &&& 0xF = (tLink.linkSt 0).txGood ∧ (tEnt tLink [(0x5010, 0x03, lsDEGRADING)]).lkState 0 = lsDEGRADING) ∧
    ((tLink.linkSt 0).txGood &&& 0 ≠ (tLink.linkSt 0).txGood ∧ tLink.newWidth 0 (tLink.txWidth 0) ((tLink.linkSt 0).txGood &&& 0) = none) ∧
    (maskBit (tLink.linkSt 0).rxGood 3 = true ∧ maskClr (tLink.linkSt 0).rxGood 3 = 0x7 ∧ tLink.newWidth 0 (tLink.rxWidth 0) 0x7 = some 2 ∧ 2 ≠ tLink.rxWidth 0 ∧
      tLink.lkState 0 = lsUP) := by decide +kernel

theorem witness_LinksTrainAndStop : (tEnt tLink [(0x5010, 0x03, lsDOWN)]).ent (lkIdx 0) 0x01 = 1 ∧ (tEnt tLink [(0x5010, 0x03, lsDOWN)]).lkState 0 ≠ lsUP ∧
    (tEnt tLink [(0x5010, 0x03, lsDOWN)]).lkState 0 ≠ lsDEGRADING ∧ (maskBit tLink.isoLinks 0 = false ∧ maskBit tLink.isoIocs 0 = false) ∧ (tEnt tLink [(0x5010, 0x03, lsTRAINING)]).lkState 0 = lsTRAINING ∧
    ((tLink.newWidth 0 4 (tLink.linkSt 0).txGood).isSome = true ∧ (tLink.newWidth 0 4 (tLink.linkSt 0).rxGood).isSome = true) ∧
    ((Instr.lkEnable (.dictWin (some 0)) 11 true).absent = none ∧ tLink.writeTakes (.dictWin (some 0)) (lkIdx 11) 0x01 1 = true ∧ tLink.ent (lkIdx 11) 0x01 ≠ 1) ∧
    ((Instr.lkEnable (.dictWin (some 0)) 0 false).absent = none ∧ tLink.writeTakes (.dictWin (some 0)) (lkIdx 0) 0x01 0 = true) := by decide +kernel

theorem witness_DownLinksGiveBackTheirPackets : lkRuns (tSent.lkState 0) = true ∧ tSent.sounding = false := by decide +kernel

/-- The bytes of a message, written out. -/
def tBytes (l : List Nat) : List Byte := l.map (BitVec.ofNat 8)

/-- Sounding runs, with room for a hundred nodes, and an eligible node of serial 1 known, which is the master. -/
def tSound : State :=
  tEnt { tLink with sound := { db := [{ serial := 1, seq := 1, node := 0xFFFF, flags := 1, adj := [] }] } }
    [(0x5000, 0x05, 1), (0x5000, 0x08, 16000), (0x5000, 0x0B, 1)]

/-- An LSA of a node with serial `n`, and an ASSIGN of master 1, epoch 1, that gives serial 9 the ID 0x0103. -/
def tLsa (n : Nat) : List Byte := tBytes [2, 1, 1, 0, 0xFF, 0xFF, 0, 0, n, 0, 0, 0, 0, 0, 0, 0]
def tAssignMsg : List Byte := tBytes ([3, 0, 1, 0, 1, 0, 0, 0, 1, 0, 0, 0, 0, 0, 0, 0] ++ [0, 0, 0, 0, 1, 0, 0, 0, 9, 0, 0, 0, 0, 0, 0, 0, 3, 1])

theorem witness_SoundingCommandsTakeEffect_hello :
    let m := tBytes [1, 0, 0, 0, 0xFF, 0xFF, 1, 0, 9, 0, 0, 0, 0, 0, 0, 0]
    tSound.coreRuns = true ∧ leAt m 0 1 = 1 ∧ m.length = 16 ∧ lkRuns ((tSound.takeSound 0 m).lkState 0) = true ∧
      leAt m 3 1 = ((tSound.takeSound 0 m).linkSt 0).role ∧ leAt m 6 1 = 1 := by decide +kernel

/-- Of two serials at least one is not this part's. -/
theorem witness_SoundingCommandsTakeEffect_lsa : ∃ k, k ≠ mySerial ∧ (k = 5 ∨ k = 6) ∧ leAt (tLsa k) 0 1 = 2 ∧
    (readLsa (tLsa k)).map (·.serial) = some k ∧ (tSound.takeSound 0 (tLsa k)).sounding = true ∧
    (tSound.takeSound 0 (tLsa k)).sound.db.find? (fun x => x.serial == k) = none ∧
    ((readLsa (tLsa k)).bind (tSound.takeSound 0 (tLsa k)).storeNode).isSome = true := by
  by_cases h : 5 = mySerial
  · exact ⟨6, by omega, .inr rfl, by decide +kernel, by decide +kernel, by decide +kernel, by decide +kernel, by decide +kernel⟩
  · exact ⟨5, h, .inl rfl, by decide +kernel, by decide +kernel, by decide +kernel, by decide +kernel, by decide +kernel⟩

/-- One eligible node is known. -/
def tQuiet (k : Nat) : State := { tSound with sound := { db := [{ serial := k, seq := 1, node := 0xFFFF, flags := 1, adj := [] }] } }

theorem witness_SoundingCommandsTakeEffect_quiet : (∃ n, n ≠ mySerial ∧ (tQuiet n).sounding = true ∧
      minNat (((tQuiet n).sound.db.filter (fun n => nbit n.flags 0)).map (·.serial)) = some n ∧ (tQuiet n).ent 0x5000 0x05 ≠ 5) ∧
    (let s := tEnt { tSound with sound := {} } [(0x5000, 0x02, 0xFFFF)];
      s.sounding = true ∧ minNat ((s.sound.db.filter (fun n => nbit n.flags 0)).map (·.serial)) = none ∧ (s.setEnt 0x5000 0x0B 0).ent 0x5000 0x02 = 0xFFFF) := by
  refine ⟨?_, by decide +kernel⟩
  by_cases h : 5 = mySerial
  · exact ⟨6, by omega, by decide +kernel, by decide +kernel, by decide +kernel⟩
  · exact ⟨5, h, by decide +kernel, by decide +kernel, by decide +kernel⟩

theorem witness_SoundingCommandsTakeEffect_assign :
    let s1 := tSound.takeSound 0 tAssignMsg
    let m := tAssignMsg
    leAt m 0 1 = 3 ∧ soundOk m = true ∧ s1.sounding = true ∧ leAt m 8 8 = s1.ent 0x5000 0x0B ∧ s1.ent 0x5000 0x0C < leAt m 4 4 ∧ s1.sound.epoch ≠ leAt m 4 4 ∧
      leAt m 20 4 ≤ ((upTo (leAt m 2 2)).map (fun i => (leAt m 16 4 + i, leAt m (24 + 10 * i) 8, leAt m (32 + 10 * i) 2))).length := by decide +kernel

theorem witness_SoundingCommandsTakeEffect_rest :
    (let m := tBytes [4, 3, 0, 0, 0, 0, 0, 0, 9, 0, 0, 0, 0, 0, 0, 0];
      leAt m 0 1 = 4 ∧ m.length = 16 ∧ leAt m 1 1 ≠ 1 ∧ leAt m 1 1 ≠ 2) ∧
    tSound.ent 0x5000 0x08 ≠ 0 ∧ ((tSound.setEnt 0x5000 0x05 1).setEnt 0x5000 0x06 0).dbRoom ≠ 0 := by decide +kernel

/-! ### Packets and remote operations -/

/-- A word as a coded granule. -/
def tCg (w : TWord) : CG := { g := Gran.ofWord w, chk := rsEncode (Gran.ofWord w) }

/-- Node 0x0101, where berth 1 serves charter 7 on memory at 0, with an invoke pool, and link 0 leads to group 2. -/
def tNode : State :=
  tEnt { tLink with
    applied := tLink.applied ++ [(ekey 0x3101 0x04, 7), (ekey 0x3101 0x17, 0x10000), (ekey 0x3101 0x18, 1)],
    xl := [(1024 + 0x100, 0x8015000000000000)], charts := [(2 * 256 + 2, mkChart [0] 1)],
    mem := [(0x200, tWords ⟨tagEMPTY, 0⟩ TWord.zero), (0x300, tWords (TWord.fix 9) (TWord.fix 11))] }
    [(0x3101, 0x01, 2), (0x3101, 0x0B, 8)]

/-- A packet at hand in the compass. -/
def tRoute (dst : Nat) : State := { tNode with compass := [{ pkt := { pt := ptACK, dst := dst, src := 0x0101 } }], time := 100000000 }

/-- The first packet of the compass. -/
def tHop (dst : Nat) : Transit := { pkt := { pt := ptACK, dst := dst, src := 0x0101 } }

/-- A packet that has just come, with an older one at hand beside it. -/
def tYoung : Transit := { tHop 0x0101 with since := 100000000 }
def tOlder : State := { tRoute 0x0101 with compass := [tYoung, tHop 0x0101] }

/-- A request that waits in a slot. -/
def tSlot : State := { tNode with slots := [(32767, some { cid := 0, reg := some 3, home := 0x0202, pkt := { pt := ptLOAD, dst := 0x0202, src := 0x0101 } })] }

theorem witness_PacketsAreRouted :
    listAt (tRoute 0x0101).compass 0 = some (tHop 0x0101) ∧ (tHop 0x0101).pkt.dst = (tRoute 0x0101).nodeId ∧
    ((tHop 0x0203).pkt.dst ≠ (tRoute 0x0203).nodeId ∧ (tHop 0x0203).pkt.dst ≠ 0xFFFF ∧ chValid ((tRoute 0x0203).entryFor (tHop 0x0203).pkt.dst) = true ∧
      (tRoute 0x0203).route (tHop 0x0203) = some (0, (tHop 0x0203).pkt) ∧ (tRoute 0x0203).outranked (tHop 0x0203) = false) ∧
    ((tRoute 0x0101).outranked (tHop 0x0101) = false ∧ listAt tOlder.compass 0 = some tYoung ∧ tOlder.outranked tYoung = true) ∧
    ((tHop 0x0503).pkt.dst ≠ (tRoute 0x0503).nodeId ∧ (tHop 0x0503).since + (tRoute 0x0503).ent 0x5000 0x12 * 100 ≤ (tRoute 0x0503).time ∧
      (tRoute 0x0503).routes (tHop 0x0503).pkt.dst = [] ∧ (tRoute 0x0503).treeLink (tHop 0x0503).pkt.dst = none) ∧
    chValid ((tRoute 0x0503).entryFor (tHop 0x0503).pkt.dst) = false ∧
    (let s := tEnt (tRoute 0x0203) [(0x5010, 0x03, lsDOWN)]; chValid (s.entryFor 0x0203) = true ∧ (s.route (tHop 0x0203)).isNone = true) ∧
    (tSlot.injectBerth.isSome = true ∧ (tSlot.oldestSlot 0).isSome = true) := by decide +kernel

/-- A request from node 0x0202 on berth 1 that has arrived. -/
def tReq (pt addr : Nat) (cgs : List CG) : State :=
  { tNode with inbox := [{ pkt := { pt := pt, dst := 0x0101, src := 0x0202, charter := 7, addr := addr, cgs := cgs } }] }

/-- The request at hand is accepted, its target found, and `f` holds of both. -/
def homeMeets (s : State) (pt : Nat) (f : State → Pkt → Nat → List Gran → Target → Bool) : Bool :=
  match s.accepts pt with
  | none => false
  | some (p, b, gs, s1) => match s1.homeTarget b p.ver p.addr with | (s2, .ok t) => f s2 p b gs t | _ => false

/-- An answer that carries data which finds room in the export table, and the import of what came. -/
def dataRoom (s s3 : State) (p : Pkt) (b : Nat) (gs : List Gran) : Answer → Bool
  | .data v _ => (s.importCaps b p.src gs).isSome && s3.exportRoom b p.src v
  | _ => false

/-- A sealed ENTRY capability of node 0x0101. -/
def tEntry : Gran := ({ Cap.ofGran (tPcc 0x1000) with node := 0x0101, kind := kENTRY, otype := 1, perms := 0x20C } : Cap).toGran

theorem witness_HomesPerformRequests_load : (tReq ptLOAD 0x3000 []).coreRuns = true ∧
    homeMeets (tReq ptLOAD 0x3000 []) ptLOAD (fun s p b gs t => dataRoom s (s.homeLoad p b t).1 p b gs (s.homeLoad p b t).2) = true ∧
    homeMeets (tReq ptLOAD 0x2000 []) ptLOAD (fun s p b _ t => (match (s.homeLoad p b t).2 with | .waits => true | _ => false)) = true := by decide +kernel

theorem witness_HomesPerformRequests_store :
    homeMeets (tReq ptSTORE 0x3008 [tCg (TWord.fix 1)]) ptSTORE (fun s p b gs _ => gs.length == 1 && (s.importCaps b p.src gs).isSome) = true ∧
    homeMeets (tReq ptFILL 0x2000 [tCg (TWord.fix 1)]) ptFILL (fun s p b gs t => gs.length == 1 && (s.importCaps b p.src gs).isSome &&
      (match (s.homeFill p b t (s.capIn (gs.headD Gran.zero))).2 with | .ack => true | _ => false)) = true := by decide +kernel

theorem witness_HomesPerformRequests_atomics :
    homeMeets (tReq ptCAS 0x3000 [tCg (TWord.fix 9), tCg (TWord.fix 1)]) ptCAS (fun s p b gs t => gs.length == 2 &&
      dataRoom s (s.homeCas p b t (Gran.ofWord (TWord.fix 9)) (Gran.ofWord (TWord.fix 1))).1 p b gs
        (s.homeCas p b t (Gran.ofWord (TWord.fix 9)) (Gran.ofWord (TWord.fix 1))).2) = true ∧
    homeMeets (tReq ptFADD 0x3008 [tCg (TWord.fix 1)]) ptFADD (fun s p b gs t => gs.length == 1 &&
      dataRoom s (s.homeFadd p b t (TWord.fix 1)).1 p b gs (s.homeFadd p b t (TWord.fix 1)).2) = true := by decide +kernel

/-- The same, not sealed. -/
def tUnsealed : Gran := ({ Cap.ofGran (tPcc 0x1000) with node := 0x0101, kind := kENTRY, perms := 0x20C } : Cap).toGran

/-- An INVOKE of an entry. Shed 1 holds the invoke pool's lines, and berth 1 takes no way of the haylofts, so that no line is brought in. -/
def tInvoke (e : Gran) : State :=
  { tEnt (tReq ptINVOKE 0x1000 [{ g := e, chk := rsEncode e }, tCg (TWord.fix 1)]) [(0x3101, 0x0D, 0)] with
    sheds := [(1, { victims := (upTo 64).map (· + 0x400) })] }

/-- The invocation succeeds, or is refused, as `good` says. -/
def invokes (s : State) (good : Bool) : Bool :=
  homeMeets s ptINVOKE (fun s p b gs _ => gs.length == 2 &&
    (match s.importCaps b p.src gs with
      | some s3 => (match (s3.invokeHome .compass b p.src (s.capIn (gs.headD Gran.zero)) (Gran.ofWord (TWord.fix 1))).2 with | .ok _ => good | .error _ => !good)
      | none => false))

theorem witness_HomesPerformRequests_invoke : invokes (tInvoke tEntry) true = true ∧ invokes (tInvoke tUnsealed) false = true := by decide +kernel

/-- What the home answers to the request at hand meets `f`. -/
def answers (s : State) (pt : Nat) (op : State → Pkt → Nat → Target → State × Answer) (f : Answer → Bool) : Bool :=
  homeMeets s pt (fun s p b _ t => f (op s p b t).2)
def refuses (a : Answer) : Bool := match a with | .refuse _ => true | _ => false

theorem witness_HomesPerformRequests_refused :
    answers (tReq ptLOAD 0x3000 []) ptLOAD (fun s p b t => s.homeLoad { p with list := true } b t) refuses = true ∧
    answers (tReq ptLOAD 0x3000 []) ptLOAD (fun s p b t => s.homeLoad { p with line := true } b t) (fun a => match a with | .line _ => true | _ => false) = true ∧
    answers { tReq ptCAS 0x3000 [tCg (TWord.fix 9), tCg (TWord.fix 1)] with mem := [(0x300, tWords ⟨0xFF, 0⟩ TWord.zero)] } ptCAS
      (fun s p b t => s.homeCas p b t (Gran.ofWord (TWord.fix 9)) (Gran.ofWord (TWord.fix 1))) refuses = true ∧
    answers (tReq ptFADD 0x2000 [tCg (TWord.fix 1)]) ptFADD (fun s p b t => s.homeFadd p b t (TWord.fix 1))
      (fun a => match a with | .waits => true | _ => false) = true ∧
    answers (tReq ptFADD 0x3000 [tCg ⟨tagNIL, 0⟩]) ptFADD (fun s p b t => s.homeFadd p b t ⟨tagNIL, 0⟩) refuses = true ∧
    answers (tReq ptFILL 0x3000 [tCg (TWord.fix 1)]) ptFILL (fun s p b t => s.homeFill p b t (Gran.ofWord (TWord.fix 1))) refuses = true := by decide +kernel

/-- A reference-listing packet of charter 7, for node 0x0101's granule 5. -/
def tList (pt src : Nat) (home : Nat) (again : Bool) : Pkt :=
  { pt := pt, dst := 0x0101, src := src, charter := 7, key := home * 2 ^ 48 + 5, count := 1, resent := again }

/-- It has arrived. -/
def tListed (p : Pkt) : State :=
  ({ tNode with inbox := [{ pkt := p }], resent := [(1, 2, 3, 0)], time := 102400 } : State).updBerth 1
    (fun x => { x with imports := [{ home := 0x0202, gran := 5, pending := true }] })

theorem witness_ReferencesAreListed :
    (((tListed (tList ptLIST 0x0202 0x0101 false)).nextOf ptLIST).map (·.1) = some (tList ptLIST 0x0202 0x0101 false) ∧
      (tListed (tList ptLIST 0x0202 0x0101 false)).charterBerth 7 = some 1 ∧
      ((tListed (tList ptLIST 0x0202 0x0101 false)).berth 1).exports.any (fun e => e.home == 0x0101 && e.gran == 5 && e.peer == 0x0202) = false) ∧
    (((tNode.updBerth 1 (fun x => { x with exports := [{ home := 0x0101, gran := 5, peer := 0x0202 }] })).berth 1).exports.any
      (fun e => e.home == 0x0101 && e.gran == 5 && e.peer == 0x0202) = true) ∧
    (((tListed (tList ptDROP 0x0202 0x0101 false)).nextOf ptDROP).isSome = true ∧ ((tListed (tList ptDROP 0x0202 0x0101 true)).nextOf ptDROP).isSome = true ∧
      ((tListed (tList ptXACK 0x0202 0x0202 true)).nextOf ptXACK).isSome = true) ∧
    (((tListed (tList ptXACK 0x0202 0x0202 false)).nextOf ptXACK).isSome = true ∧
      ((tListed (tList ptXACK 0x0202 0x0202 false)).berth 1).imports.find? (fun e => (e.home == 0x0202 && e.gran == 5) && e.pending && 0x0202 == 0x0202) =
        some { home := 0x0202, gran := 5, pending := true }) ∧
    (let s := tListed (tList ptXACK 0x0303 0x0202 false);
      (s.nextOf ptXACK).isSome = true ∧
        ((s.berth 1).imports.find? (fun e => (e.home == 0x0202 && e.gran == 5) && e.pending && 0x0303 == 0x0202)).isNone = true ∧
        ((s.updBerth 1 (fun x => { x with exports := [{ home := 0x0202, gran := 5, peer := 0x0303 }] })).berth 1).exports.any
          (fun e => (e.home == 0x0202 && e.gran == 5) && e.peer == 0x0303) = true ∧ 0x0202 ≠ s.nodeId) ∧
    listAt (tListed (tList ptLIST 0x0202 0x0101 false)).resent 0 = some (1, 2, 3, 0) := by decide +kernel

/-- A request that a slot sent. -/
def tLoad (line : Bool) : Pkt := { pt := ptLOAD, dst := 0x0202, src := 0x0101, cap := line, line := line }

/-- A slot sent, and a response to it. -/
def tResp (pt : Nat) (line : Bool) (reg : Option Nat) (cgs : List CG) : State :=
  { tNode with
    slots := [(0, some { cid := 0, reg := reg, home := 0x0202, berth := 1, st := .sent, pkt := tLoad line })],
    inbox := [{ pkt := { pt := pt, dst := 0x0101, src := 0x0202, tag := 0, cgs := cgs } }], time := 2 ^ 40 }

/-- The response at hand, its slot and its granules. -/
def respMeets (s : State) (pt : Nat) (n : Nat) (f : State → Pkt → Slot → List Gran → Bool) : Bool :=
  match s.nextOf pt with
  | none => false
  | some (p, s1) =>
    match s1.liveSlot p with
    | none => false
    | some x =>
      match s1.decodeCGs p.src (p.cgs.take n) with
      | (s2, .ok gs) => f s2 p x gs
      | (_, .error _) => false

/-- A capability of the home as a coded granule. -/
def tCapCg : CG := { g := ({ Cap.ofGran rootMemory with node := 0x0101 } : Cap).toGran, chk := rsEncode ({ Cap.ofGran rootMemory with node := 0x0101 } : Cap).toGran }

theorem witness_ResponsesReachTheirSlot_data :
    respMeets (tResp ptDATA false (some 3) [tCg (TWord.fix 1)]) ptDATA 1 (fun s p x gs => (match s.slotImports p x gs with | .ok _ => true | _ => false) &&
      x.pkt.pt != ptFADD && !gs.any x.badValue) = true ∧
    respMeets (tResp ptDATA false (some 3) [tCg ⟨0xFF, 1⟩]) ptDATA 1 (fun _ _ x gs => gs.any x.badValue) = true ∧
    respMeets { tResp ptDATA false (some 3) [tCg (TWord.fix 1)] with
        slots := [(0, some { cid := 0, reg := some 3, home := 0x0202, berth := 1, st := .sent, pkt := { tLoad false with pt := ptFADD } })] } ptDATA 1
      (fun s p x gs => (match s.slotImports p x gs with | .ok _ => true | _ => false) && x.pkt.pt == ptFADD && !gs.any x.badValue) = true ∧
    (match (tResp ptDATA false (some 3) [{ g := Gran.zero, chk := 0x010100 }]).nextOf ptDATA with
      | some (p, s1) => (s1.liveSlot p).isSome && (match (s1.decodeCGs p.src (p.cgs.take 1)).2 with | .error e => e == beUNC | .ok _ => false) | none => false) = true := by decide +kernel

theorem witness_ResponsesReachTheirSlot_line :
    respMeets (tResp ptLINE true (some 3) [tCapCg, tCg (TWord.fix 1), tCg (TWord.fix 1), tCg (TWord.fix 1)]) ptLINE 4 (fun s p x gs =>
      (match s.slotImports p x gs with
        | .ok s3 => ((listAt (gs.map s3.capIn) (x.pkt.addr / 16 % 4)).getD Gran.zero).isCap | _ => false) && x.pkt.cap && x.pkt.line) = true ∧
    respMeets (tResp ptLINE true (some 3) [tCg ⟨0xFF, 1⟩, tCg (TWord.fix 1), tCg (TWord.fix 1), tCg (TWord.fix 1)]) ptLINE 4 (fun s p x gs =>
      (match s.slotImports p x gs with
        | .ok s3 => (match readGran ((listAt (gs.map s3.capIn) 0).getD Gran.zero) false with | .bad _ => true | _ => false) | _ => false)) = true := by decide +kernel

theorem witness_ResponsesReachTheirSlot_rest :
    respMeets (tResp ptACK false none []) ptACK 0 (fun _ _ x _ => x.reg == none) = true ∧ respMeets (tResp ptREFUSE false none []) ptREFUSE 0 (fun _ _ _ _ => true) = true ∧
    respMeets (tResp ptRETRY false none []) ptRETRY 0 (fun _ _ _ _ => true) = true ∧ respMeets (tResp ptWAITING false none []) ptWAITING 0 (fun _ _ _ _ => true) = true ∧
    (let s := { tResp ptACK false none [] with slots := [] };
      (match s.nextOf ptACK with | some (p, s1) => (s1.liveSlot p).isNone | none => false) = true) ∧
    ({ tResp ptACK false none [] with time := 5 }.slot 0).any (fun (x : Slot) => decide (5 < x.tick + (tResp ptACK false none []).ent 0x5000 0x13 * 100000)) = true ∧
    ((tResp ptACK false none []).slot 0).any (fun x => x.st == .sent && decide (x.tick + (tResp ptACK false none []).ent 0x5000 0x13 * 100000 ≤
      (tResp ptACK false none []).time)) = true := by decide +kernel

theorem witness_TimeIsExchanged : tNode.coreRuns = true ∧
    (tNode.ent 0x5000 0x15 = 0 ∨ (tEnt tNode [(0x5000, 0x15, 0)]).ent 0x5000 0x15 = 0) ∧ (tNode.lkState 0 = lsUP ∧ 1 ≤ ((tNode.linkSt 0).ch 2).credits ∧
      (tNode.linkSt 0).room 1 = true) ∧
    (({ tNode with tsOut := some 0 } : State).tsOut = some 0 ∧ tNode.ent 0x5000 0x17 = 0 ∧ 10000000 < tsOffset 0 200000000 200000000 0) ∧
    ((tEnt { tNode with tsOut := some 0, tsGood := 15 } [(0x5000, 0x17, 1)]).ent 0x5000 0x17 = 1 ∧ (tsOffset 0 1 1 0).natAbs < 5000) := by decide +kernel

/-! ### The dictionary -/

/-- The door of stall 0's dictionary window, and a manager's. -/
abbrev tDoor : Path := .dictWin (some 0)
abbrev tMgr : Path := .helm 5

theorem witness_WritesAreAppliedOrRefused : tMgr.units.find? (fun u => !u.1.has u.2) = none ∧ tBase.helmRuns = true ∧
    tBase.writeTakes tMgr 0x1000 0x10 2 = true ∧
    ((0x6000 : Nat) ≠ 0x9000 ∧ tBase.pathWorks (.fabric 9) = true ∧ tBase.served 0x6000 = true ∧ pathReaches (.fabric 9) 0x6000 = true ∧
      (entryInfo 0x6000 0x01).isSome = true ∧ pathWrites (.fabric 9) 0x6000 0x01 = false) ∧
    (tBase.pathWorks tMgr = true ∧ tBase.served 0x2100 = true ∧ pathReaches tMgr 0x2100 = true ∧ pathWrites tMgr 0x2100 0x03 = true ∧
      tBase.ent 0x6000 0x02 ≠ 1 ∧ (entryInfo 0x2100 0x03).any (fun e => e.1 != .dom && e.2 != .tal && e.2 != .ro) = true ∧
      entryRange 0x2100 0x03 200 = false) ∧
    ((tEnt tBase [(0x703F, 0x06, 1)]).pathWorks tMgr = true ∧ pathWrites tMgr (0x7000 + 63) 0x04 = true ∧ (255 : Nat) < 2 ^ 8 ∧
      (tEnt tBase [(0x703F, 0x06, 1)]).ent (0x7000 + 63) 0x06 = 1) := by decide +kernel

theorem witness_WriteRowsTakeTheirEffect_gates : tBase.writeTakes tMgr (0x7000 + 0) 0x03 0x10000000 = true ∧ tBase.writeTakes tMgr (0x7000 + 63) 0x06 1 = true ∧
    tBase.writeTakes tMgr (0x7000 + 5) 0x13 1 = true ∧ tBase.writeTakes tMgr 0x7000 0xF0 1 = true ∧ tBase.writeTakes tMgr 0x6000 0x05 0x4D = true ∧
    tBase.writeTakes tMgr 0x6000 0x0B 1 = true := by decide +kernel

theorem witness_WriteRowsTakeTheirEffect_inject : nbit (tBase.ent 0x6000 0x0C) 31 = false ∧
    [1, 2, 3, 4].all (fun m => tBase.writeTakes tMgr 0x6000 0x0C (injectValue m 0x80010000)) = true ∧ (0x80010000 : BitVec 32).getLsbD 31 = true := by decide +kernel

theorem witness_WriteRowsTakeTheirEffect_rest : (tBase.writeTakes tMgr 0x2000 0x02 8 = true ∧ tBase.clkRun = none ∧ tBase.coreDiv ≤ 8) ∧
    ((tEnt tBase [(0x2000, 0x03, 8)]).writeTakes tMgr 0x2000 0x02 4 = true ∧ 4 < (tEnt tBase [(0x2000, 0x03, 8)]).coreDiv) ∧
    tBase.writeTakes tMgr 0x2200 0x01 0xA5 = true ∧ tBase.writeTakes tMgr 0x2200 0x07 1 = true ∧ tBase.writeTakes tMgr 0x1100 0x10 1 = true ∧
    (tBase.pathWorks tMgr = true ∧ tBase.served 0x1100 = true ∧ pathReaches tMgr 0x1100 = true ∧ pathWrites tMgr 0x1100 5 = true ∧ tMgr ≠ .jtag ∧
      ({ tBase with arms := [{ path := armPath tMgr, tally := 5, tick := 0 }] } : State).armed tMgr 5 = true ∧ tBase.tally 5 ≠ 2 ∧ tBase.tallyRun = none ∧
      tBase.tallyOk 5 2 = true ∧ tBase.tallyOk 1 0x0101 = true) := by decide +kernel

/-- A commit of berth 1's group runs. -/
def tCommit : State := { tBase with commits := [{ index := 0x3101, path := tMgr }] }

theorem witness_CommitsRunToTheirPoint : tBase.writeTakes tMgr (berthIdx 63) 0xFF 1 = true ∧ tBase.writeTakes tMgr 0x4000 0xFF 1 = true ∧
    tBase.writeTakes tMgr 0x5100 0xFF 1 = true ∧ tCommit.commits.any (fun c => c.index == 0x3101) = true ∧ tBase.writeTakes tMgr 0xF000 0x06 0x3101 = true ∧
    tBase.patchRun = none ∧ ({ tBase with patchRun := some true } : State).patchRun = some true ∧ tBase.writeTakes tMgr 0x8000 0x06 1 = true ∧ tBase.writeTakes tMgr 0x8000 0x06 2 = true := by decide +kernel

/-! ### The Helm bus and the data port -/

/-- Manager 5 has a session, after SEQ 0. -/
def tSess : State := tEnt { tBase with sessions := [{ node := 5 }] } [(0x5000, 0x01, 0x0101)]

theorem witness_HelmRequestsAreAnswered : (tBase.busOff = false ∧ tBase.session 127 = none ∧ tBase.sessions.length < 8) ∧ tSess.reqTakes 5 1 = true ∧
    (match (tSess.reqState 5 1).dictReadAll tMgr 0x1000 0x77 with | .error _ => true | .ok _ => false) = true ∧
    (match (tSess.reqState 5 1).dictReadAll tMgr 0x5000 0x01 with | .ok (.num v) => v == 0x0101 && (entryInfo 0x5000 0x01).isSome | _ => false) = true ∧
    ((tSess.reqState 5 1).dictWrite tMgr 0x1000 0x10 (.num 2)).1.inReset = false ∧ ((tSess.reqState 5 1).helmCtl 5 8 none).1.inReset = false ∧
    ((tSess.reqState 5 1).helmCtl 5 8 (some 1)).1.inReset = false := by decide +kernel

/-- The same session with a burst armed, with its first segment of a write awaited, and with a read whose last segment is out. -/
def tBurst : State := tSess.setDport (.helm 5) { len := 8, remain := 8, status := dpRUNS, burst := some { left := 8 } }
def tWriting : State := (tBurst.dpTurn (.helm 5) true).1.setSession { node := 5, xfer := some { seqn := 0, wr := true, left := 9 } }
def tReading : State := tBurst.setSession { node := 5, xfer := some { seqn := 7, wr := false, next := 1, buf := List.replicate 9 0 } }

theorem witness_TransfersMoveTheirBurst_session : tBurst.reqTakes 5 1 = true ∧ ((tBurst.reqState 5 1).startXfer 5 1 true).2.isNone = true ∧
    ((tBurst.reqState 5 1).startXfer 5 1 false).2.isNone = true ∧
    ((tSess.reqState 5 1).startXfer 5 1 true).2 = some (0, []) ∧ ((tSess.reqState 5 1).startXfer 5 1 true).1.inReset = false ∧
    ((tReading.session 5).bind (·.xfer)).any (fun t => !t.wr && t.seqn == 7 &&
      (upTo 17).find? (fun e => decide (t.base + e ≤ t.next) && (t.base + e) % 65536 == t.next % 65536) == some 1 && (t.buf.drop (1 * 64)).isEmpty && t.left == 0) = true ∧
    ((tWriting.session 5).bind (·.xfer)).any (fun t => t.wr && t.left == 9 && decide (t.left ≤ 64)) = true ∧
    ((tWriting.setSession { node := 5, xfer := some { seqn := 0, wr := true, left := 9 }, seen := 0 }).dpPush (.helm 5) tMgr (List.replicate 9 0)).inReset = false := by
  decide +kernel

theorem witness_TransfersMoveTheirBurst_ends : (({ tSess with time := 3000000000 } : State).session 5).any (fun y => decide (y.seen +
      ({ tSess with time := 3000000000 } : State).ent 0x1000 0x11 * 100000000 ≤ 3000000000)) = true ∧
    (let s := tSess.setSession { node := 5, xfer := some { seqn := 0, wr := true, left := 9, repeats := 4 } };
      ((s.session 5).bind (·.xfer)).any (fun t => decide (4 ≤ t.repeats)) = true ∧ (s.dport (.helm 5)).burst = none) ∧
    ((tWriting.session 5).bind (·.xfer)).any (fun t => decide (t.repeats < 4) && t.wr) = true := by decide +kernel

theorem witness_TransfersMoveTheirBurst_port : DpInst.win.units.find? (fun u => !u.1.has u.2) = none ∧ tBase.instWorks .win = true ∧
    ((8 : Word64).toNat % 8 = 0 ∧ (0x0400000000000008 : Word64).toNat / 2 ^ 56 ≤ 4 ∧ (tBase.dport .win).burst = none) ∧
    tBase.spaceOk .win ((tBase.dport .win).addr / 2 ^ 56) = true ∧
    (tBase.setDport .win { len := 8, remain := 8, status := dpRUNS, burst := some { left := 8 } } |>.dpTurn .win true).2 = true ∧
    (tBase.setDport .win { len := 8, remain := 8, status := dpRUNS, burst := some { left := 8 } } |>.dpTurn .win false).2 = true := by decide +kernel

/-! ### Watch, host, power, reset -/

/-- A port's report. -/
def tReport : Report := { bit := 16, kind := .contained, source := 25 }

theorem witness_WatchAndHostCommandsTakeEffect : (tReport.bit < 56 ∧ tBase.errorLines = [] ∧ tBase.ent 0x6000 0x06 = 0xFF) ∧
    (tEnt tBase [(0x6000, 0x50, 0)]).level tReport = 0 ∧ tBase.ent 0x6000 0x02 ≠ 1 ∧ (tEnt tBase [(0x6000, 0x02, 1)]).ent 0x6000 0x02 = 1 ∧
    (({ tBase with bootStep := 3 } : State).bootStep ≠ 0) ∧
    ({ tBase with host := { link := true } } : State).writeTakes .pf 0x1000 0x19 (1 : Word64).toNat = true ∧
    ({ tBase with host := { link := true } } : State).host.link = true ∧ (tBase.host.link = false ∧ tBase.pins.perstN = true ∧ maskBit tBase.isoIocs 0 = false) := by decide +kernel

theorem witness_PowerCommandsTakeEffect : (({ tBase with clkRun := some 8 } : State).clkRun = some 8 ∧ ({ tBase with clkRun := some 8 } : State).clkWant = none) ∧
    ((tBase.shed 15).throttled = false ∧ 10 * tBase.ent 0x2100 0x03 ≤ 950) ∧ 899 + 50 < 10 * tBase.ent 0x2100 0x03 ∧
    ((tEnt tBase [(0x2100, 0x10 + 10, 0x40)]).ent 0x2100 (0x10 + 10) ≠ 0 ∧ pmbFault 0x8000 = true) := by decide +kernel

theorem witness_ResetBootAndTapCommandsTakeEffect : tBase.tallyRun = none ∧ tBase.inReset = false ∧
    (({ tBase with inReset := true } : State).pins.resetN = true ∧ tBase.pins.pwrgood = true ∧ tBase.pins.moorN = true ∧ tBase.pins.thermIn = true) ∧
    ({ tBase with pins := { tBase.pins with moorN := false } } : State).pins.moorN = false ∧
    (tBase.helmRuns = true ∧ tBase.ent 0x6000 0x02 = 0 ∧ tBase.ent 0x2200 0x03 < 2 ∧ tBase.bootStep = 0 ∧ ({ tBase with bootStep := 2 } : State).bootStep = 2) ∧
    ({ tBase with tallyRun := some { tally := 5, value := 2 } } : State).tallyRun = some { tally := 5, value := 2 } ∧
    (tBase.romHalted = false ∧ (match (tBase.ctlAccess .debug 0 none).2 with | .ok _ => true | .error _ => false) = true) := by decide +kernel

end Sys2Proof.Tests
end

section
/-!
The queue (O4, O5): what one command answers, what one step answers, and a run over the whole queue.
-/

namespace Sys2Proof.Machine

/-! ### One command -/

/-- No command touches the queue: one whose units the part has answers a next state with the queue as it found it, whether its
domain runs or not. -/
theorem exec_next_of_present (c : Instr) (s : State) (h : c.absent = none) : ∃ t, exec c s = .next t ∧ t.pending = s.pending := by
  obtain ⟨on, f, -, hexec⟩ := exec_is_command c
  rw [hexec]
  cases hon : on s with
  | true => exact ⟨_, command_runs c on f s h hon, after_pending s (f s)⟩
  | false => exact ⟨s, command_idle c on f s h hon, rfl⟩

/-- The fault for an absent unit is the model's own (log entry 8); 00 R10 gives the counts of the units. -/
theorem exec_fault_of_absent (c : Instr) (s : State) (h : c.absent ≠ none) : exec c s = .fault .noSuchUnit := by
  obtain ⟨on, f, -, hexec⟩ := exec_is_command c
  obtain ⟨u, hu⟩ := Option.ne_none_iff_exists'.mp h
  rw [hexec, command_absent c on f s u hu]

/-- Settles O5: every meaning is a `command`, which asks for the units first. -/
theorem onlyAbsentUnitsStop : Obligations.OnlyAbsentUnitsStop :=
  fun c s => ⟨exec_next_of_present c s, exec_fault_of_absent c s⟩

/-! ### One step, and a run -/

theorem step_next_of_present_front {s : State} {c : Instr} {rest : List Instr} (hq : s.pending = c :: rest) (hc : c.absent = none) :
    ∃ t, step s = .next t ∧ t.pending = rest := by
  rw [step_front s c rest hq]
  exact exec_next_of_present c { s with pending := rest } hc

theorem run_succ_next_iff (M : Host.Core) (n : Nat) (s t : M.State) :
    M.run (n + 1) s = .next t ↔ ∃ u, M.step s = .next u ∧ M.run n u = .next t := by
  rw [Host.Core.run]
  cases M.step s with
  | next u => simp
  | fault r => simp
  | refused r => simp

/-- A run that answers a state has not stopped on its way. -/
theorem safeFor_of_run_next (n : Nat) (s t : State) (h : Host.Core.run core n s = .next t) : SafeFor n s := by
  induction n generalizing s with
  | zero => trivial
  | succ n ih =>
    obtain ⟨u, hstep, hrun⟩ := (run_succ_next_iff core n s t).mp h
    exact ⟨u, hstep, ih u hrun⟩

/-- By induction on the queue: the front command's step leaves the rest as the queue of the next state. -/
theorem run_empties_present_queue (q : List Instr) (s : State) (hq : s.pending = q) (hpresent : ∀ c ∈ q, c.absent = none) :
    ∃ t, Host.Core.run core q.length s = .next t ∧ t.pending = [] := by
  induction q generalizing s with
  | nil => exact ⟨s, rfl, hq⟩
  | cons c rest ih =>
    obtain ⟨hc, hrest⟩ := List.forall_mem_cons.mp hpresent
    obtain ⟨u, hstep, hu⟩ := step_next_of_present_front hq hc
    obtain ⟨t, hrun, hempty⟩ := ih u hu hrest
    exact ⟨t, (run_succ_next_iff core rest.length s t).mpr ⟨u, hstep, hrun⟩, hempty⟩

/-- Settles O4: the run over the queue answers a state, so no step of it has stopped. -/
theorem queueRunsToItsEnd : Obligations.QueueRunsToItsEnd := by
  intro s hpresent
  obtain ⟨t, hrun, hempty⟩ := run_empties_present_queue s.pending s rfl hpresent
  exact ⟨safeFor_of_run_next s.pending.length s t hrun, t, hrun, hempty⟩

end Sys2Proof.Machine
end

section
/-!
Tagged words (O16): what a store of a word leaves of a granule.
-/

namespace Sys2Proof

@[simp] theorem Gran.word_setWord_same (g : Gran) (hi : Bool) (w : TWord) : (g.setWord hi w).word hi = w := by
  cases hi <;> rfl

@[simp] theorem Gran.word_setWord_other (g : Gran) (hi : Bool) (w : TWord) : (g.setWord hi w).word (!hi) = g.word (!hi) := by
  cases hi <;> rfl

theorem Gran.writeWord_of_isCap (g : Gran) (hi : Bool) (w : TWord) (h : g.isCap = true) :
    g.writeWord hi w = Gran.setWord ⟨TWord.raw g.lo.val, TWord.raw g.hi.val⟩ hi (TWord.raw w.val) := by
  rw [Gran.writeWord, h]
  rfl

theorem Gran.word_raw (g : Gran) (hi : Bool) : Gran.word ⟨TWord.raw g.lo.val, TWord.raw g.hi.val⟩ hi = TWord.raw (g.word hi).val := by
  cases hi <;> rfl

/-- Settles O16: the store makes both words RAW first, then replaces the one it names. -/
theorem wordStoreEndsACapability : Obligations.WordStoreEndsACapability := by
  intro g hi w hcap
  rw [g.writeWord_of_isCap hi w hcap, Gran.word_setWord_same, Gran.word_setWord_other, Gran.word_raw]
  exact ⟨rfl, rfl⟩

end Sys2Proof
end

section
/-!
The field of the check code (02 R30), for O20: multiplication by α is additive and injective, multiplication commutes with it, and no power
of α from 1 to 20 fixes a value other than 0.
-/

namespace Sys2Proof

/-! ### Multiplication by α -/

/-- With `BitVec.xor_assoc` and `BitVec.xor_comm`, lets `simp` order a sum of bytes, where equal terms then cancel. -/
theorem byte_xor_left_comm (a b c : Byte) : a ^^^ (b ^^^ c) = b ^^^ (a ^^^ c) := by
  rw [← BitVec.xor_assoc, BitVec.xor_comm a b, BitVec.xor_assoc]

@[simp] theorem gfAlpha_zero : gfAlpha 0#8 = 0#8 := rfl

theorem gfAlpha_xor (a b : BitVec 8) : gfAlpha (a ^^^ b) = gfAlpha a ^^^ gfAlpha b := by
  simp only [gfAlpha, BitVec.shiftLeft_xor_distrib, BitVec.getLsbD_xor]
  cases a.getLsbD 7 <;> cases b.getLsbD 7 <;> simp [BitVec.xor_assoc, BitVec.xor_comm, byte_xor_left_comm]

theorem eq_zero_of_gfAlpha_eq_zero : ∀ a : BitVec 8, gfAlpha a = 0#8 → a = 0#8 := by decide

theorem gfAlpha_iterate_xor (k : Nat) (a b : BitVec 8) : gfAlpha^[k] (a ^^^ b) = gfAlpha^[k] a ^^^ gfAlpha^[k] b := by
  induction k generalizing a b with
  | zero => rfl
  | succ k ih => simp only [Function.iterate_succ_apply, gfAlpha_xor, ih]

@[simp] theorem gfAlpha_iterate_zero (k : Nat) : gfAlpha^[k] 0#8 = 0#8 := Function.iterate_fixed gfAlpha_zero k

theorem gfAlpha_injective : Function.Injective gfAlpha := by
  intro a b hab
  have hsum : gfAlpha (a ^^^ b) = 0#8 := by rw [gfAlpha_xor, hab, BitVec.xor_self]
  exact BitVec.xor_eq_zero_iff.mp (eq_zero_of_gfAlpha_eq_zero _ hsum)

theorem gfAlpha_iterate_ne_zero (k : Nat) {a : BitVec 8} (ha : a ≠ 0#8) : gfAlpha^[k] a ≠ 0#8 := by
  intro h
  exact ha (gfAlpha_injective.iterate k (h.trans (gfAlpha_iterate_zero k).symm))

/-- Why the decoder can tell 21 positions apart (02 R31): α is primitive, so none of α^1 to α^20 is 1. -/
theorem gfAlpha_iterate_ne_self : ∀ d < 20, ∀ a : BitVec 8, a ≠ 0 → gfAlpha^[d + 1] a ≠ a := by decide +kernel

theorem gfAlpha_iterate_ne_iterate {j p : Nat} (hjp : j < p) (hp : p < 21) {a : BitVec 8} (ha : a ≠ 0) :
    gfAlpha^[j] a ≠ gfAlpha^[p] a := by
  intro h
  obtain ⟨d, rfl⟩ := Nat.exists_eq_add_of_lt hjp
  rw [Nat.add_assoc, Function.iterate_add_apply] at h
  exact gfAlpha_iterate_ne_self d (by omega) a ha (gfAlpha_injective.iterate j h).symm

/-! ### Multiplication -/

theorem gfMulAux_gfAlpha (n : Nat) (a b : BitVec 8) : gfMulAux n (gfAlpha a) b = gfAlpha (gfMulAux n a b) := by
  induction n generalizing a b with
  | zero => simp [gfMulAux]
  | succ n ih => simp only [gfMulAux, ih, gfAlpha_xor, apply_ite gfAlpha, BitVec.ofNat_eq_ofNat, gfAlpha_zero]

theorem gfMul_gfAlpha_left (a b : BitVec 8) : gfMul (gfAlpha a) b = gfAlpha (gfMul a b) := gfMulAux_gfAlpha 8 a b

theorem gfMulAux_xor_right (n : Nat) (a b c : BitVec 8) :
    gfMulAux n a (b ^^^ c) = gfMulAux n a b ^^^ gfMulAux n a c := by
  induction n generalizing a b c with
  | zero => simp [gfMulAux]
  | succ n ih =>
    simp only [gfMulAux, BitVec.ushiftRight_xor_distrib, ih, BitVec.getLsbD_xor]
    cases b.getLsbD 0 <;> cases c.getLsbD 0 <;> simp [BitVec.xor_assoc, byte_xor_left_comm]

/-- The recursion splits off the first bit's term; this splits off the last one's. -/
theorem gfMulAux_succ (n : Nat) (a b : BitVec 8) :
    gfMulAux (n + 1) a b = gfMulAux n a b ^^^ (if b.getLsbD n then gfAlpha^[n] a else 0#8) := by
  induction n generalizing a b with
  | zero => simp [gfMulAux]
  | succ n ih =>
    rw [gfMulAux, ih, gfMulAux, BitVec.getLsbD_ushiftRight, Nat.add_comm 1 n, Function.iterate_succ_apply, BitVec.xor_assoc]

theorem gfMulAux_shiftLeft (n : Nat) (hn : n < 8) (a b : BitVec 8) :
    gfMulAux (n + 1) a (b <<< 1) = gfAlpha (gfMulAux n a b) := by
  induction n with
  | zero => simp [gfMulAux]
  | succ n ih =>
    have hbit : (b <<< 1).getLsbD (n + 1) = b.getLsbD n := by
      rw [BitVec.getLsbD_shiftLeft]
      simp [hn]
    rw [gfMulAux_succ, ih (by omega), gfMulAux_succ n, gfAlpha_xor, hbit, apply_ite gfAlpha, gfAlpha_zero,
      Function.iterate_succ_apply']

/-- The reduction by the field's polynomial (02 R30): α^8 = α^4 + α^3 + α^2 + 1, whose right side is the byte 0x1D. -/
theorem gfMul_0x1D : ∀ a : BitVec 8, gfMul a 0x1D = gfAlpha^[8] a := by decide +kernel

theorem gfMul_gfAlpha_right (a b : BitVec 8) : gfMul a (gfAlpha b) = gfAlpha (gfMul a b) := by
  have hcarry : gfMul a (if b.getLsbD 7 then 0x1D else 0#8) = if b.getLsbD 7 then gfAlpha^[8] a else 0#8 := by
    rw [apply_ite (gfMul a), gfMul_0x1D]
    simp [gfMul, gfMulAux]
  calc gfMul a (gfAlpha b)
      = gfMul a (b <<< 1) ^^^ gfMul a (if b.getLsbD 7 then 0x1D else 0#8) := gfMulAux_xor_right 8 a _ _
    _ = gfAlpha (gfMulAux 7 a b) ^^^ (if b.getLsbD 7 then gfAlpha^[8] a else 0#8) := by
        rw [hcarry, gfMul, gfMulAux_shiftLeft 7 (by decide)]
    _ = gfAlpha (gfMul a b) := by
        rw [gfMul, gfMulAux_succ 7, gfAlpha_xor, apply_ite gfAlpha, gfAlpha_zero, ← Function.iterate_succ_apply' gfAlpha]

theorem gfMul_iterate_left (k : Nat) (a b : BitVec 8) : gfMul (gfAlpha^[k] a) b = gfAlpha^[k] (gfMul a b) :=
  Function.Semiconj.iterate_right (f := (gfMul · b)) (fun a => gfMul_gfAlpha_left a b) k a

theorem gfMul_iterate_right (k : Nat) (a b : BitVec 8) : gfMul a (gfAlpha^[k] b) = gfAlpha^[k] (gfMul a b) :=
  Function.Semiconj.iterate_right (f := gfMul a) (gfMul_gfAlpha_right a) k b

end Sys2Proof
end

section
/-!
Codewords (02 R30, Table 2.4): bytes and numbers, and a granule with its check bytes as 21 bytes.
-/

namespace Sys2Proof

/-! ### Bytes and numbers -/

@[simp] theorem length_leBytes (n x : Nat) : (leBytes n x).length = n := by
  induction n generalizing x with
  | zero => rfl
  | succ n ih => simp [leBytes, ih]

theorem leNat_leBytes (n x : Nat) : leNat (leBytes n x) = x % 256 ^ n := by
  induction n generalizing x with
  | zero => simp [leBytes, leNat, Nat.mod_one]
  | succ n ih =>
    rw [leBytes, leNat, ih, BitVec.toNat_ofNat, pow_succ' 256 n]
    exact Nat.mod_mul.symm

theorem leBytes_mod (n x : Nat) : leBytes n (x % 256 ^ n) = leBytes n x := by
  induction n generalizing x with
  | zero => rfl
  | succ n ih =>
    have hlow : x % 256 ^ (n + 1) % 256 = x % 256 := Nat.mod_mod_of_dvd x (Dvd.intro_left _ rfl)
    rw [leBytes, leBytes, Nat.pow_succ', Nat.mod_mul_right_div_self, ih]
    congr 1
    apply BitVec.eq_of_toNat_eq
    rw [BitVec.toNat_ofNat, BitVec.toNat_ofNat, ← Nat.pow_succ', hlow]

theorem leBytes_leNat (bs : List Byte) : leBytes bs.length (leNat bs) = bs := by
  induction bs with
  | nil => rfl
  | cons b bs ih =>
    have hb := b.isLt
    have hdiv : (b.toNat + 256 * leNat bs) / 256 = leNat bs := by omega
    rw [List.length_cons, leBytes, leNat, hdiv, ih]
    congr 1
    apply BitVec.eq_of_toNat_eq
    rw [BitVec.toNat_ofNat]
    omega

theorem leBytes_leAt {bs : List Byte} {o n : Nat} (h : o + n ≤ bs.length) :
    leBytes n (leAt bs o n % 256 ^ n) = (bs.drop o).take n := by
  have hlen : ((bs.drop o).take n).length = n := by simp; omega
  have hbytes := leBytes_leNat ((bs.drop o).take n)
  rwa [hlen, ← leBytes_mod] at hbytes

/-! ### A list with one element replaced -/

theorem listSet_eq_set {α : Type} (xs : List α) (p : Nat) (y : α) : listSet xs p y = xs.set p y := by
  induction xs generalizing p with
  | nil => rfl
  | cons x xs ih => cases p <;> simp [listSet, ih]

theorem listAt_eq_getElem? {α : Type} (xs : List α) (p : Nat) : listAt xs p = xs[p]? := by
  induction xs generalizing p with
  | nil => rfl
  | cons x xs ih => cases p <;> simp [listAt, ih]

/-- The codeword with `e` added at position `p`, as O20 writes the error and `rsDecode` the correction (02 R31). -/
def addAt (cw : List Byte) (p : Nat) (e : Byte) : List Byte := listSet cw p ((listAt cw p).getD 0 ^^^ e)

theorem length_addAt (cw : List Byte) (p : Nat) (e : Byte) : (addAt cw p e).length = cw.length := by
  simp [addAt, listSet_eq_set]

/-- The same error a second time cancels the first. -/
theorem addAt_addAt {cw : List Byte} {p : Nat} (hp : p < cw.length) (e : Byte) : addAt (addAt cw p e) p e = cw := by
  simp [addAt, listSet_eq_set, listAt_eq_getElem?, hp]

/-! ### A granule and its 21 bytes -/

@[simp] theorem length_codeword (g : Gran) (chk : BitVec 24) : (codeword g chk).length = 21 := by
  simp [codeword, infoBytes]

theorem ofCodeword_codeword (g : Gran) (chk : BitVec 24) : ofCodeword (codeword g chk) = (g, chk) := by
  have hchk : leAt (codeword g chk) 0 3 = chk.toNat := by
    simp [leAt, codeword, leNat_leBytes, Nat.mod_eq_of_lt chk.isLt]
  have hlo : leAt (codeword g chk) 3 8 = g.lo.val.toNat := by
    simp [leAt, codeword, infoBytes, leNat_leBytes, Nat.mod_eq_of_lt g.lo.val.isLt]
  have hhi : leAt (codeword g chk) 11 8 = g.hi.val.toNat := by
    simp (disch := simp) [leAt, codeword, infoBytes, List.drop_append, List.drop_of_length_le, leNat_leBytes,
      Nat.mod_eq_of_lt g.hi.val.isLt]
  have hloTag : leAt (codeword g chk) 19 1 = g.lo.tag.toNat := by
    simp (disch := simp) [leAt, codeword, infoBytes, List.drop_append, List.drop_of_length_le, leNat]
  have hhiTag : leAt (codeword g chk) 20 1 = g.hi.tag.toNat := by
    simp (disch := simp) [leAt, codeword, infoBytes, List.drop_append, List.drop_of_length_le, leNat]
  simp [ofCodeword, w64, hchk, hlo, hhi, hloTag, hhiTag]

theorem codeword_ofCodeword {c : List Byte} (h : c.length = 21) : codeword (ofCodeword c).1 (ofCodeword c).2 = c := by
  have htag (o : Nat) (ho : o + 1 ≤ 21) : [BitVec.ofNat 8 (leAt c o 1)] = (c.drop o).take 1 := by
    rw [← leBytes_leAt (by omega), leBytes_mod]
    rfl
  have hchk : leBytes 3 (leAt c 0 3 % 2 ^ 24) = (c.drop 0).take 3 := leBytes_leAt (by omega)
  have hlo : leBytes 8 (leAt c 3 8 % 2 ^ 64) = (c.drop 3).take 8 := leBytes_leAt (by omega)
  have hhi : leBytes 8 (leAt c 11 8 % 2 ^ 64) = (c.drop 11).take 8 := leBytes_leAt (by omega)
  have htags : [BitVec.ofNat 8 (leAt c 19 1), BitVec.ofNat 8 (leAt c 20 1)] = (c.drop 19).take 1 ++ (c.drop 20).take 1 := by
    rw [← htag 19 (by omega), ← htag 20 (by omega)]
    rfl
  simp only [codeword, infoBytes, ofCodeword, w64, BitVec.toNat_ofNat, hchk, hlo, hhi, htags]
  calc (c.drop 0).take 3 ++ ((c.drop 3).take 8 ++ (c.drop 11).take 8 ++ ((c.drop 19).take 1 ++ (c.drop 20).take 1))
      = c.take (3 + 8 + 8 + 1 + 1) := by
        rw [List.take_add, List.take_add, List.take_add, List.take_add]
        simp only [List.drop_zero, List.append_assoc, Nat.reduceAdd]
    _ = c := List.take_of_length_le (by omega)

end Sys2Proof
end

section
/-!
The check code corrects one symbol (O20; 02 R30, R31): what is stored has syndromes 0, an error e at position p has syndromes
e, e·α^p and e·α^(2p), and the decoder finds p and e from these.
-/

namespace Sys2Proof

/-! ### Syndromes -/

/-- The value at α^k of the polynomial whose coefficients are the bytes, position 0 first. -/
def syndrome (k : Nat) : List Byte → Byte
  | [] => 0#8
  | c :: cs => c ^^^ gfAlpha^[k] (syndrome k cs)

theorem rsSyndromes_eq (cs : List Byte) : rsSyndromes cs = (syndrome 0 cs, syndrome 1 cs, syndrome 2 cs) := by
  induction cs with
  | nil => rfl
  | cons c cs ih =>
    rw [rsSyndromes, ih]
    rfl

theorem syndrome_addAt (k : Nat) {cw : List Byte} {p : Nat} (hp : p < cw.length) (e : Byte) :
    syndrome k (addAt cw p e) = syndrome k cw ^^^ gfAlpha^[k * p] e := by
  induction cw generalizing p with
  | nil => simp at hp
  | cons c cs ih =>
    cases p with
    | zero => simp [addAt, listSet, listAt, syndrome, BitVec.xor_assoc, BitVec.xor_comm e]
    | succ p =>
      have ih := ih (Nat.lt_of_succ_lt_succ hp)
      have hcons : addAt (c :: cs) (p + 1) e = c :: addAt cs p e := rfl
      rw [hcons, syndrome, ih, gfAlpha_iterate_xor, ← Function.iterate_add_apply, syndrome, BitVec.xor_assoc, Nat.mul_succ,
        Nat.add_comm k]

/-! ### The check bytes make the syndromes 0 -/

/-- The remainder of the division by g(x), as `rsEncode` computes it from the position 20 down. -/
def rsRemainder (cs : List Byte) : Byte × Byte × Byte := cs.foldr (fun c r => rsStep r c) (0, 0, 0)

theorem leBytes_rsEncode (g : Gran) :
    leBytes 3 (rsEncode g).toNat =
      [(rsRemainder (infoBytes g)).1, (rsRemainder (infoBytes g)).2.1, (rsRemainder (infoBytes g)).2.2] := by
  rcases hr : rsRemainder (infoBytes g) with ⟨r0, r1, r2⟩
  have hnum : (rsEncode g).toNat = leNat [r0, r1, r2] % 256 ^ 3 := by
    rw [rsRemainder] at hr
    rw [rsEncode, List.foldl_reverse, hr, BitVec.toNat_ofNat, leNat, leNat, leNat, leNat]
    dsimp only
    congr 1
    omega
  rw [hnum, leBytes_mod]
  exact leBytes_leNat [r0, r1, r2]

theorem gfMul_0x08 (b : BitVec 8) : gfMul b 0x08 = gfAlpha^[3] b := by
  simp [gfMul, gfMulAux]

theorem gfMul_0x0E (b : BitVec 8) : gfMul b 0x0E = gfAlpha b ^^^ gfAlpha^[2] b ^^^ gfAlpha^[3] b := by
  simp [gfMul, gfMulAux, BitVec.xor_assoc]

theorem gfMul_0x07 (b : BitVec 8) : gfMul b 0x07 = b ^^^ gfAlpha b ^^^ gfAlpha^[2] b := by
  simp [gfMul, gfMulAux, BitVec.xor_assoc]

/-- 1, α and α² are roots of g(x) (02 R30). -/
theorem generator_root {k : Nat} (hk : k < 3) (b : BitVec 8) :
    gfMul b 0x08 ^^^ gfAlpha^[k] (gfMul b 0x0E ^^^ gfAlpha^[k] (gfMul b 0x07)) = gfAlpha^[k] (gfAlpha^[k] (gfAlpha^[k] b)) := by
  rw [gfMul_0x08, gfMul_0x0E, gfMul_0x07]
  interval_cases k <;>
    simp [gfAlpha_xor, BitVec.xor_assoc, BitVec.xor_comm, byte_xor_left_comm]

/-- The remainder and the information bytes shifted by x³ agree at each root of g(x). -/
theorem remainder_at_root {k : Nat} (hk : k < 3) (cs : List Byte) :
    (rsRemainder cs).1 ^^^ gfAlpha^[k] ((rsRemainder cs).2.1 ^^^ gfAlpha^[k] (rsRemainder cs).2.2) =
      gfAlpha^[k] (gfAlpha^[k] (gfAlpha^[k] (syndrome k cs))) := by
  induction cs with
  | nil => simp [rsRemainder, syndrome]
  | cons c cs ih =>
    rcases hr : rsRemainder cs with ⟨r0, r1, r2⟩
    have hstep : rsRemainder (c :: cs) = rsStep (r0, r1, r2) c := by rw [← hr]; rfl
    rw [hr] at ih
    rw [hstep, syndrome]
    calc gfMul (c ^^^ r2) 0x08 ^^^ gfAlpha^[k] (r0 ^^^ gfMul (c ^^^ r2) 0x0E ^^^ gfAlpha^[k] (r1 ^^^ gfMul (c ^^^ r2) 0x07))
        = gfMul (c ^^^ r2) 0x08 ^^^ gfAlpha^[k] (gfMul (c ^^^ r2) 0x0E ^^^ gfAlpha^[k] (gfMul (c ^^^ r2) 0x07)) ^^^
            gfAlpha^[k] (r0 ^^^ gfAlpha^[k] r1) := by
          simp [gfAlpha_iterate_xor, BitVec.xor_assoc, BitVec.xor_comm, byte_xor_left_comm]
      _ = gfAlpha^[k] (gfAlpha^[k] (gfAlpha^[k] (c ^^^ r2))) ^^^ gfAlpha^[k] (r0 ^^^ gfAlpha^[k] r1) := by rw [generator_root hk]
      _ = gfAlpha^[k] (gfAlpha^[k] (gfAlpha^[k] c)) ^^^ gfAlpha^[k] (r0 ^^^ gfAlpha^[k] (r1 ^^^ gfAlpha^[k] r2)) := by
          simp [gfAlpha_iterate_xor, BitVec.xor_assoc, BitVec.xor_comm, byte_xor_left_comm]
      _ = gfAlpha^[k] (gfAlpha^[k] (gfAlpha^[k] (c ^^^ gfAlpha^[k] (syndrome k cs)))) := by
          rw [ih]
          simp only [gfAlpha_iterate_xor]

theorem syndrome_rsEncode {k : Nat} (hk : k < 3) (g : Gran) : syndrome k (codeword g (rsEncode g)) = 0#8 := by
  have hroot := remainder_at_root hk (infoBytes g)
  simp only [gfAlpha_iterate_xor] at hroot
  simp only [codeword, leBytes_rsEncode, List.cons_append, List.nil_append, syndrome, gfAlpha_iterate_xor, ← hroot]
  simp [byte_xor_left_comm]

theorem rsSyndromes_rsEncode (g : Gran) : rsSyndromes (codeword g (rsEncode g)) = (0#8, 0#8, 0#8) := by
  rw [rsSyndromes_eq, syndrome_rsEncode (by decide), syndrome_rsEncode (by decide), syndrome_rsEncode (by decide)]

theorem rsSyndromes_addAt_rsEncode (g : Gran) {p : Nat} (hp : p < 21) (e : Byte) :
    rsSyndromes (addAt (codeword g (rsEncode g)) p e) = (e, gfAlpha^[p] e, gfAlpha^[2 * p] e) := by
  have hsyn (k : Nat) (hk : k < 3) : syndrome k (addAt (codeword g (rsEncode g)) p e) = gfAlpha^[k * p] e := by
    rw [syndrome_addAt k (by simpa using hp), syndrome_rsEncode hk, BitVec.zero_xor]
  rw [rsSyndromes_eq, hsyn 0 (by decide), hsyn 1 (by decide), hsyn 2 (by decide), Nat.zero_mul, Nat.one_mul, Function.iterate_zero_apply]

/-! ### The decoder -/

theorem rsDecode_clean {g : Gran} {chk : BitVec 24} (h : rsSyndromes (codeword g chk) = (0#8, 0#8, 0#8)) :
    rsDecode g chk = (.clean, g, chk) := by
  simp [rsDecode, h]

theorem rsLocate_iterate {n d : Nat} {x s1 : Byte} (q : Nat) (hd : d < n) (hfirst : ∀ j < d, gfAlpha^[j] x ≠ s1)
    (hfound : gfAlpha^[d] x = s1) : rsLocate n q x s1 = some (q + d) := by
  induction d generalizing n q x with
  | zero =>
    obtain ⟨n, rfl⟩ := Nat.exists_eq_add_of_lt hd
    have hx : x = s1 := hfound
    simp [rsLocate, hx]
  | succ d ih =>
    obtain ⟨n, rfl⟩ : ∃ m, n = m + 1 := ⟨n - 1, by omega⟩
    have hx : x ≠ s1 := hfirst 0 d.succ_pos
    rw [rsLocate, if_neg (by simpa using hx), ih (q + 1) (by omega) (fun j hj => hfirst (j + 1) (by omega)) hfound, Nat.add_assoc,
      Nat.add_comm 1 d]

theorem rsLocate_error {p : Nat} (hp : p < 21) {e : Byte} (he : e ≠ 0#8) : rsLocate 21 0 e (gfAlpha^[p] e) = some p := by
  rw [rsLocate_iterate 0 hp (fun j hj => gfAlpha_iterate_ne_iterate hj hp he) rfl, Nat.zero_add]

/-- The syndromes of one error at position p meet s1² = s0·s2. -/
theorem gfMul_syndromes (p : Nat) (e : Byte) : gfMul (gfAlpha^[p] e) (gfAlpha^[p] e) = gfMul e (gfAlpha^[2 * p] e) := by
  rw [gfMul_iterate_left, gfMul_iterate_right, gfMul_iterate_right, ← Function.iterate_add_apply, Nat.two_mul]

theorem rsDecode_one_error {g : Gran} {chk : BitVec 24} {p : Nat} {e : Byte} (hp : p < 21) (he : e ≠ 0#8)
    (h : rsSyndromes (codeword g chk) = (e, gfAlpha^[p] e, gfAlpha^[2 * p] e)) :
    rsDecode g chk = (.corrected, ofCodeword (addAt (codeword g chk) p e)) := by
  have h1 : gfAlpha^[p] e ≠ 0#8 := gfAlpha_iterate_ne_zero p he
  have h2 : gfAlpha^[2 * p] e ≠ 0#8 := gfAlpha_iterate_ne_zero (2 * p) he
  simp [rsDecode, h, he, h1, h2, gfMul_syndromes, rsLocate_error hp he, addAt]

/-- Settles O20: the stored codeword has syndromes 0, so the received one has those of the error alone; adding the error again at
the position found gives back what was stored. -/
theorem oneSymbolErrorsAreCorrected : Obligations.OneSymbolErrorsAreCorrected := by
  refine ⟨fun g => ?_, fun g p e hp he => ?_⟩
  · rw [rsDecode_clean (rsSyndromes_rsEncode g)]
    exact ⟨rfl, rfl⟩
  · show rsDecode (ofCodeword (addAt (codeword g (rsEncode g)) p e)).1 (ofCodeword (addAt (codeword g (rsEncode g)) p e)).2 = _
    have hcw := codeword_ofCodeword (c := addAt (codeword g (rsEncode g)) p e) (by rw [length_addAt, length_codeword])
    rw [rsDecode_one_error hp he (by rw [hcw]; exact rsSyndromes_addAt_rsEncode g hp e), hcw, addAt_addAt (by simpa using hp),
      ofCodeword_codeword]

end Sys2Proof
end

section
/-!
Capabilities (O17): the range of addresses that the bounds admit.
-/

namespace Sys2Proof

/-- Base and top count granules of 16 bytes; the address and the end of the access are integers, so neither wraps. -/
theorem Cap.inBounds_iff (c : Cap) (x : Int) (n : Nat) :
    c.inBounds x n = true ↔ 16 * (c.base : Int) ≤ x ∧ x + n ≤ 16 * (c.top : Int) := by
  rw [Cap.inBounds, Bool.and_eq_true, decide_eq_true_iff, decide_eq_true_iff]

/-- Settles O17: the check is the conjunction of its two comparisons. -/
theorem boundsAdmitExactlyTheRange : Obligations.BoundsAdmitExactlyTheRange :=
  Cap.inBounds_iff

end Sys2Proof
end

section
/-!
The registers of a stall (O12; 04 R76, R78): a read after a write of the slots G0 to G31 and of the predicates P0 to P7.
-/

namespace Sys2Proof

/-! ### Bits of a mask -/

theorem maskBit_maskSet {w : Nat} (m : BitVec w) (i j : Nat) :
    maskBit (maskSet m i) j = (maskBit m j || (decide (i < w) && decide (i = j))) := by
  rw [maskSet, ← BitVec.twoPow_eq, maskBit, BitVec.getLsbD_or, BitVec.getLsbD_twoPow, maskBit]

/-- A mask has no bit beyond its width, so the width bounds neither side. -/
theorem maskBit_maskClr {w : Nat} (m : BitVec w) (i j : Nat) : maskBit (maskClr m i) j = (maskBit m j && !decide (i = j)) := by
  rw [maskClr, ← BitVec.twoPow_eq, maskBit, BitVec.getLsbD_and, BitVec.getLsbD_not, BitVec.getLsbD_twoPow, maskBit]
  by_cases hj : j < w
  · by_cases hij : i = j <;> simp [hij, hj]
  · rw [BitVec.getLsbD_of_ge m j (Nat.le_of_not_lt hj), Bool.false_and, Bool.false_and]

end Sys2Proof

namespace Sys2Proof.Machine

/-! ### Slots -/

@[simp] theorem Stall.getG_zero (t : Stall) : t.getG 0 = Gran.zero := rfl

@[simp] theorem Stall.setG_zero (t : Stall) (v : Gran) : t.setG 0 v = t := rfl

theorem Stall.setG_g (t : Stall) {n : Nat} (hn : n ≠ 0) (v : Gran) : (t.setG n v).g = SMap.set (fun _ => Gran.zero) t.g n v := by
  rw [Stall.setG, if_neg hn]

theorem Stall.getG_setG_same (t : Stall) {n : Nat} (hn : n ≠ 0) (v : Gran) : (t.setG n v).getG n = v := by
  rw [Stall.getG, if_neg hn, Stall.setG_g t hn, SMap.get_set_same]

theorem Stall.getG_setG_other (t : Stall) {m n : Nat} (hmn : m ≠ n) (v : Gran) : (t.setG n v).getG m = t.getG m := by
  by_cases hn : n = 0
  · rw [hn, Stall.setG_zero]
  · rw [Stall.getG, Stall.setG_g t hn, SMap.get_set_other _ _ _ hmn, Stall.getG]

/-! ### Predicates -/

@[simp] theorem Stall.getP_zero (t : Stall) : t.getP 0 = true := rfl

@[simp] theorem Stall.setP_zero (t : Stall) (b : Bool) : t.setP 0 b = t := rfl

theorem Stall.setP_preds (t : Stall) {n : Nat} (hn : n ≠ 0) (b : Bool) :
    (t.setP n b).preds = if b then maskSet t.preds n else maskClr t.preds n := by
  rw [Stall.setP, if_neg hn]

theorem Stall.getP_setP_same (t : Stall) {n : Nat} (hn : n ≠ 0) (hn8 : n < 8) (b : Bool) : (t.setP n b).getP n = b := by
  rw [Stall.getP, Stall.setP_preds t hn]
  cases b with
  | true => simp [maskBit_maskSet, hn8]
  | false => simp [maskBit_maskClr, hn]

theorem Stall.getP_setP_other (t : Stall) {m n : Nat} (hmn : m ≠ n) (b : Bool) : (t.setP n b).getP m = t.getP m := by
  by_cases hn : n = 0
  · rw [hn, Stall.setP_zero]
  · rw [Stall.getP, Stall.setP_preds t hn, Stall.getP]
    cases b with
    | true => simp [maskBit_maskSet, hmn.symm]
    | false => simp [maskBit_maskClr, hmn.symm]

/-- Settles O12: each register reads from its own entry of the stall's map or its own bit of the mask, which a write of another
leaves; register 0 is never looked up. -/
theorem registersReadWhatWasWritten : Obligations.RegistersReadWhatWasWritten :=
  fun t _ _ v b =>
    ⟨⟨t.setG_zero v, t.getG_zero⟩, fun hn => t.getG_setG_same hn v, fun hmn => t.getG_setG_other hmn v,
      ⟨t.getP_zero, t.setP_zero b⟩, fun hn hn8 => t.getP_setP_same hn hn8 b, fun hmn => t.getP_setP_other hmn b⟩

end Sys2Proof.Machine
end

section
/-!
BUNDLE_ISSUE (O21; 04 R72; 07 R151, R152; 08 R171): what the bundle that fetch found does, what the next bundle of a stall does, and the command.
-/

namespace Sys2Proof.Machine

/-! ### A bundle, by what its evaluation comes to -/

section
variable {c : Ctl} {s : State} {k : Nat} {b : Bundle} {addr : Nat} {iter micro : Bool}

theorem State.bundleRuns_iff : s.bundleRuns k b addr micro = true ↔
    b.isRep = false ∧ (s.stall k).blocked b = false ∧ (s.stall k).refusedNamed b = none ∧ (s.evalBundle ctl k b addr micro).wait = false ∧
      (s.evalBundle ctl k b addr micro).fails = [] ∧ (s.evalBundle ctl k b addr micro).micro = false ∧
      (s.evalBundle ctl k b addr micro).run.ends = false := by
  simp [State.bundleRuns, and_assoc]

theorem State.runBundle_refused {n : Nat} (hn : (s.stall k).refusedNamed b = some n) (hfails : (s.evalBundle c k b addr micro).fails = []) :
    s.runBundle c k b addr iter micro = s.takeRefusal k n := by
  simp [State.runBundle, hn, hfails, lowestFail]

theorem State.runBundle_waits (hn : (s.stall k).refusedNamed b = none) (hwait : (s.evalBundle c k b addr micro).wait = true) :
    s.runBundle c k b addr iter micro = s := by
  simp [State.runBundle, hn, hwait]

theorem State.runBundle_claims (hn : (s.stall k).refusedNamed b = none) (hwait : (s.evalBundle c k b addr micro).wait = false)
    (hmicro : (s.evalBundle c k b addr micro).micro = true) : s.runBundle c k b addr iter micro = s.claimSeqr k := by
  simp [State.runBundle, hn, hwait, hmicro]

theorem State.runBundle_faults {st : State} {f : Fail} (hn : (s.stall k).refusedNamed b = none)
    (hwait : (s.evalBundle c k b addr micro).wait = false) (hmicro : (s.evalBundle c k b addr micro).micro = false)
    (hfault : lowestFail (s.evalBundle c k b addr micro).fails = some (st, f)) :
    s.runBundle c k b addr iter micro = st.faultBundle k f := by
  simp [State.runBundle, hn, hwait, hmicro, hfault]

theorem State.runBundle_ends (hn : (s.stall k).refusedNamed b = none) (hwait : (s.evalBundle c k b addr micro).wait = false)
    (hmicro : (s.evalBundle c k b addr micro).micro = false) (hfails : (s.evalBundle c k b addr micro).fails = [])
    (hends : (s.evalBundle c k b addr micro).run.ends = true) :
    s.runBundle c k b addr iter micro =
      (((s.evalBundle c k b addr micro).run.post (s.evalBundle c k b addr micro).run.s.leaveBoot).dropRoutine k).tryExit k := by
  simp [State.runBundle, hn, hwait, hmicro, hfails, hends, lowestFail]

theorem State.runBundle_completes (hruns : s.bundleRuns k b addr micro = true) :
    s.runBundle ctl k b addr iter micro =
      (State.complete k (s.evalBundle ctl k b addr micro).run iter addr (addr + 4 * b.len) (s.stall k)).dropRoutine k := by
  obtain ⟨-, -, hn, hwait, hfails, hmicro, hends⟩ := State.bundleRuns_iff.mp hruns
  simp [State.runBundle, hn, hwait, hmicro, hfails, hends, lowestFail]

end

/-! ### The next bundle of a stall, by what fetch finds -/

section
variable {c : Ctl} {s s1 : State} {k : Nat} {b : Bundle} {addr : Nat} {micro : Bool}

theorem State.runNext_fetchFault {f : Fail} (hnext : s.fetchNext k = (s1, .error f)) (hrank : f.rank ≠ 3) :
    s.runNext c k micro = (s1.dropRoutine k).raiseFault k f.exc := by
  simp [State.runNext, hnext, hrank]

theorem State.runNext_done (hnext : s.fetchNext k = (s1, .ok (.done addr))) :
    s.runNext c k micro = (s1.entered k).updStall k
      (fun t => { t with status := setBit t.status 8 false, repFirst := false, pcc := pccAt t.pcc addr, fetched := [] }) := by
  simp [State.runNext, hnext]

theorem State.runNext_rep (hnext : s.fetchNext k = (s1, .ok (.once b addr))) (hrep : b.isRep = true)
    (hblocked : ((s1.entered k).stall k).blocked b = false) : s.runNext c k micro = (s1.entered k).runRep k b addr := by
  simp [State.runNext, hnext, hrep, hblocked]

theorem State.runNext_once (hnext : s.fetchNext k = (s1, .ok (.once b addr))) (hrep : b.isRep = false)
    (hblocked : ((s1.entered k).stall k).blocked b = false) :
    s.runNext c k micro = (s1.entered k).runBundle c k b addr false micro := by
  simp [State.runNext, hnext, hrep, hblocked]

theorem State.runNext_iter (hnext : s.fetchNext k = (s1, .ok (.iter b addr))) (hblocked : ((s1.entered k).stall k).blocked b = false) :
    s.runNext c k micro = (s1.entered k).runBundle c k b addr true micro := by
  simp [State.runNext, hnext, hblocked]

theorem State.runNext_blocked {it : Next} (hnext : s.fetchNext k = (s1, .ok it)) (hit : it = .once b addr ∨ it = .iter b addr)
    (hblocked : ((s1.entered k).stall k).blocked b = true) : s.runNext c k micro = s1.entered k := by
  rcases hit with rfl | rfl <;> simp [State.runNext, hnext, hblocked]

/-- Where an iteration of a repeat and a bundle by itself do not differ. -/
theorem State.runNext_runsBundle {it : Next} (hnext : s.fetchNext k = (s1, .ok it)) (hit : it = .once b addr ∨ it = .iter b addr)
    (hrep : b.isRep = false) (hblocked : ((s1.entered k).stall k).blocked b = false) :
    ∃ iter, s.runNext c k micro = (s1.entered k).runBundle c k b addr iter micro := by
  rcases hit with rfl | rfl
  · exact ⟨false, State.runNext_once hnext hrep hblocked⟩
  · exact ⟨true, State.runNext_iter hnext hblocked⟩

end

/-! ### The command -/

theorem absent_bundleIssue {k : Nat} (hk : k < nStalls) : (Instr.bundleIssue k).absent = none := by
  have hhas : UnitKind.stall.has k = true := (UnitKind.has_iff _ _).mpr ⟨Nat.zero_le k, hk⟩
  have hunits : (Instr.bundleIssue k).units = [(.stall, k)] := rfl
  simp [Instr.absent, hunits, hhas]

theorem issueWith_of_mayIssue {s : State} {k : Nat} (hmay : s.mayIssue k = true) : issueWith ctl k s = s.runNext ctl k false := by
  simp only [State.mayIssue, Bool.and_eq_true, Bool.not_eq_true'] at hmay
  obtain ⟨⟨⟨hissuable, hcm⟩, hs63⟩, hexiting⟩ := hmay
  simp [issueWith, hissuable, hcm, hs63, hexiting]

theorem exec_bundleIssue_of_mayIssue {s : State} {k : Nat} (hk : k < nStalls) (hruns : s.coreRuns = true) (hmay : s.mayIssue k = true) :
    exec (.bundleIssue k) s = .next (s.after (s.runNext ctl k false)) := by
  rw [exec_bundleIssue k s (absent_bundleIssue hk) hruns, issueWith_of_mayIssue hmay]

/-- Settles O21: the command runs the stall's next bundle, and each outcome is that of its bundle. -/
theorem bundleIssueExecutesTheBundle : Obligations.BundleIssueExecutesTheBundle := by
  refine ⟨fun s hruns k hk => exec_bundleIssue k s hk hruns, fun s s1 k addr b hk hruns hmay => ?_⟩
  rw [exec_bundleIssue_of_mayIssue hk hruns hmay]
  refine ⟨fun hnext hgoes => ?completes, fun hnext hgoes => ?iterates, fun hnext hrep hblocked hn hwait => ⟨?claims, ?faults, ?ends⟩,
    fun hnext hrep hblocked => ?rep, fun hnext => ?done, fun it hnext hit => ⟨?blocked, fun hrep hblocked => ⟨?refused, ?waits⟩⟩, ?fetchFault⟩
  case completes =>
    obtain ⟨hrep, hblocked, -⟩ := State.bundleRuns_iff.mp hgoes
    rw [State.runNext_once hnext hrep hblocked, State.runBundle_completes hgoes]
  case iterates =>
    obtain ⟨-, hblocked, -⟩ := State.bundleRuns_iff.mp hgoes
    rw [State.runNext_iter hnext hblocked, State.runBundle_completes hgoes]
  case claims =>
    intro hmicro
    rw [State.runNext_once hnext hrep hblocked, State.runBundle_claims hn hwait hmicro]
  case faults =>
    intro st f hmicro hfault
    rw [State.runNext_once hnext hrep hblocked, State.runBundle_faults hn hwait hmicro hfault]
  case ends =>
    rintro e rfl hmicro hfails hends
    rw [State.runNext_once hnext hrep hblocked, State.runBundle_ends hn hwait hmicro hfails hends]
  case rep => rw [State.runNext_rep hnext hrep hblocked]
  case done => rw [State.runNext_done hnext]
  case blocked =>
    intro hblocked
    rw [State.runNext_blocked hnext hit hblocked]
  case refused =>
    intro n hn hfails
    obtain ⟨iter, hrun⟩ := State.runNext_runsBundle (c := ctl) (micro := false) hnext hit hrep hblocked
    rw [hrun, State.runBundle_refused hn hfails]
  case waits =>
    intro hn hwait
    obtain ⟨iter, hrun⟩ := State.runNext_runsBundle (c := ctl) (micro := false) hnext hit hrep hblocked
    rw [hrun, State.runBundle_waits hn hwait]
  case fetchFault =>
    intro f hnext hrank
    rw [State.runNext_fetchFault hnext hrank]

end Sys2Proof.Machine
end

section
/-!
Integer operations of class A: the logic and shift operations (O13; 05 R98), the raw additions and subtractions (O14; 05 R97, Table 5.3) and
ASH.G (O15; 05 R94).
-/

namespace Sys2Proof

/-! ### Results that fit a word -/

theorem fixOut_of_fits {z : Int} (hz : -(2 ^ 63) ≤ z ∧ z < 2 ^ 63) : fixOut z = .ok { w := TWord.fix (w64i z) } := if_pos hz

theorem fixOut_of_not_fits {z : Int} (hz : z < -(2 ^ 63) ∨ 2 ^ 63 ≤ z) : fixOut z = .error .overflow :=
  if_neg (by omega)

theorem word_toInt_fits (a : Word64) : -(2 ^ 63) ≤ a.toInt ∧ a.toInt < 2 ^ 63 := ⟨a.le_toInt, a.toInt_lt⟩

@[simp] theorem w64i_toInt_add_toInt (a b : Word64) : w64i (a.toInt + b.toInt) = a + b := by
  rw [w64i, BitVec.ofInt_add, BitVec.ofInt_toInt, BitVec.ofInt_toInt]

@[simp] theorem w64_toNat_add_toNat (a b : Word64) : w64 (a.toNat + b.toNat) = a + b := by
  rw [w64, BitVec.ofNat_add, BitVec.ofNat_toNat, BitVec.ofNat_toNat, BitVec.setWidth_eq, BitVec.setWidth_eq]

/-! ### Logic and shift operations -/

theorem logicOp_tag (op : LOp) (a b : TWord) :
    (logicOp op a b).w.tag = if a.tag = tagFIX ∧ (op.isShift = true ∨ b.tag = tagFIX) then tagFIX else tagRAW := by
  cases hshift : op.isShift with
  | true => simp [logicOp, keepFix, hshift]
  | false => simp [logicOp, keepFix, hshift]

@[simp] theorem logicOp_iflags (op : LOp) (a b : TWord) : (logicOp op a b).iflags = 0 := rfl

@[simp] theorem logicOp_fflags (op : LOp) (a b : TWord) : (logicOp op a b).fflags = 0 := rfl

/-! ### Raw additions and subtractions -/

@[simp] theorem rawSigned_add_w (a b : Word64) : (rawSigned .add a b).w = TWord.raw (a + b) :=
  congrArg TWord.raw (w64i_toInt_add_toInt a b)

@[simp] theorem rawUnsigned_add_w (a b : Word64) : (rawUnsigned .add a b).w = TWord.raw (a + b) :=
  congrArg TWord.raw (w64_toNat_add_toNat a b)

/-! ### ASH.G -/

/-- ASH.G never computes in binary64: a FLO operand traps as any other. -/
theorem gOp_ash (fs : Nat) (a b : TWord) :
    gOp .ash fs a b = if a.tag = tagFIX ∧ b.tag = tagFIX then ashG a.val.toInt b.val.toInt else .error .generic := by
  simp [gOp, gUsesFloat, gFix]

/-- A shift by 64 or more takes every number but 0 out of the range of a word. -/
theorem mul_two_pow_not_fits {x : Int} (hx : x ≠ 0) {m : Nat} (hm : 64 ≤ m) : x * 2 ^ m < -(2 ^ 63) ∨ 2 ^ 63 ≤ x * 2 ^ m := by
  have hpow : (2 : Int) ^ 64 ≤ 2 ^ m := pow_le_pow_right₀ (by norm_num) hm
  rcases lt_or_gt_of_ne hx with hneg | hpos
  · left
    nlinarith
  · right
    nlinarith

/-- The definition meets counts of 64 or more without the product; the product says the same. -/
theorem ashG_of_nonneg (x : Int) {n : Int} (hn : 0 ≤ n) : ashG x n = fixOut (x * 2 ^ n.toNat) := by
  rw [ashG, if_pos hn]
  split
  next hx => rw [hx, zero_mul]
  next hx =>
    split
    next hlarge => rw [fixOut_of_not_fits (mul_two_pow_not_fits hx (by omega))]
    next => rfl

/-- The floor of a word over 2^64 or more is its sign. -/
theorem ediv_two_pow_eq_sign {x : Int} (hx : -(2 ^ 63) ≤ x ∧ x < 2 ^ 63) {m : Nat} (hm : 64 ≤ m) :
    x / 2 ^ m = if 0 ≤ x then 0 else -1 := by
  have hpow : (2 : Int) ^ 64 ≤ 2 ^ m := pow_le_pow_right₀ (by norm_num) hm
  split
  next hnonneg => exact Int.ediv_eq_zero_of_lt hnonneg (by omega)
  next hneg => exact Int.ediv_eq_neg_one_of_neg_of_le (by omega) (by omega)

theorem ediv_two_pow_fits {x : Int} (hx : -(2 ^ 63) ≤ x ∧ x < 2 ^ 63) (m : Nat) : -(2 ^ 63) ≤ x / 2 ^ m ∧ x / 2 ^ m < 2 ^ 63 := by
  have hpow : (1 : Int) ≤ 2 ^ m := one_le_pow₀ (by norm_num)
  exact ⟨Int.le_ediv_of_mul_le (by omega) (by nlinarith), Int.ediv_lt_of_lt_mul (by omega) (by nlinarith)⟩

/-- The floor always fits, so a right shift never overflows. -/
theorem ashG_of_neg {x n : Int} (hx : -(2 ^ 63) ≤ x ∧ x < 2 ^ 63) (hn : n < 0) :
    ashG x n = .ok { w := TWord.fix (w64i (x / 2 ^ (-n).toNat)) } := by
  rw [← fixOut_of_fits (ediv_two_pow_fits hx _), ashG, if_neg (by omega)]
  split
  next hlarge => rw [ediv_two_pow_eq_sign hx (by omega)]
  next => rfl

theorem w64i_sign (x : Int) : w64i (if 0 ≤ x then 0 else -1) = if 0 ≤ x then 0 else BitVec.allOnes 64 := by
  split
  · rfl
  · rfl

/-- Settles O15: a count of 0 or more gives the product, judged once by `fixOut`; a count below 0 gives the floor, which from −64 on is the
sign. -/
theorem ashGShiftsExactly : Obligations.AshGShiftsExactly := by
  intro fs a b
  rw [gOp_ash]
  refine ⟨fun hother => if_neg (by tauto), fun ha hb => ?_⟩
  have hx := word_toInt_fits a.val
  rw [if_pos ⟨ha, hb⟩]
  refine ⟨fun hn hlo hhi => ?exact, fun hn hout => ?overflows, fun hn => ashG_of_neg hx hn, fun hn => ?sign⟩
  case exact => rw [ashG_of_nonneg _ hn, fixOut_of_fits ⟨hlo, hhi⟩]
  case overflows => rw [ashG_of_nonneg _ hn, fixOut_of_not_fits hout]
  case sign => rw [ashG_of_neg hx (by omega), ediv_two_pow_eq_sign hx (by omega), w64i_sign]

end Sys2Proof

namespace Sys2Proof.Machine

theorem evalA_logic (k cid : Nat) (t : Stall) (op : LOp) (rd ra : Nat) (src : Src) (r : Run) :
    evalA k cid t (.logic op rd ra src) r = some (putOut r rd (logicOp op (t.getG ra).lo (srcWord t src))) := rfl

theorem evalA_addi (k cid : Nat) (t : Stall) (rd ra : Nat) (v : Word64) (r : Run) :
    evalA k cid t (.addi rd ra v) r = some (putOut r rd (rawSigned .add (t.getG ra).lo.val v)) := rfl

theorem putOut_of_no_flags (r : Run) (rd : Nat) {o : OpOut} (hi : o.iflags = 0) (hf : o.fflags = 0) :
    putOut r rd o = .ok { r with t := r.t.setW rd o.w } := by
  simp [putOut, hi, hf]

/-- Settles O13: the result's tag looks at RB only where RB is a value operand, and flags of 0 leave those of the bundle. -/
theorem logicOperationsKeepFix : Obligations.LogicOperationsKeepFix := by
  intro op a b cid k t rd ra src r
  refine ⟨logicOp_tag op a b, fun _ => rfl, logicOp_iflags op a b, logicOp_fflags op a b, rfl, ?_⟩
  rw [evalA_logic, putOut_of_no_flags r rd (logicOp_iflags _ _ _) (logicOp_fflags _ _ _)]

/-- Settles O14: the words are the sums modulo 2^64; each flag is its definition's own comparison of the exact result. -/
theorem rawAdditionsSetTheirFlags : Obligations.RawAdditionsSetTheirFlags :=
  fun a b => ⟨rawSigned_add_w a b, rawUnsigned_add_w a b, rfl, rfl, rfl, rfl, fun k cid t rd ra v r => evalA_addi k cid t rd ra v r⟩

end Sys2Proof.Machine
end

section
/-!
Waits that end (O31; 05 R107; 08 R181; 10 R224, R225, R245): WAITER_WAKE, POLL_RETRY and BUFFER_DRAIN, by what they find.
-/

namespace Sys2Proof

/-- A command that names one unit, of a kind numbered from 0 to m − 1. -/
theorem Instr.absent_of_unit_lt {c : Instr} {k : UnitKind} {n m : Nat} (hunits : c.units = [(k, n)]) (hrange : k.range = (0, m))
    (hn : n < m) : c.absent = none := by
  have hhas : k.has n = true := (k.has_iff n).mpr (by simp [hrange, hn])
  simp [Instr.absent, hunits, hhas]

end Sys2Proof

namespace Sys2Proof.Machine

/-! ### Waiters that are filled -/

theorem doWaiterWake_of_filled {s : State} {agent i : Nat} {w : Waiter} {g : Gran}
    (hw : listAt (s.waiters.filter (fun w => w.agent == agent && w.got.isSome)) i = some w) (hgot : w.got = some g) :
    doWaiterWake agent i s = match w.kind with | .remote n => s.wakeRemote w n g | _ => s.wakeLocal w g := by
  simp only [doWaiterWake, hw, hgot]
  cases w.kind <;> rfl

/-! ### Reads that are polled -/

/-- What a polled read comes to, by what reading its word again answers. -/
def State.pollEnds (s : State) (o : LocalOp) (cid reg pa : Nat) (kind : WaitKind) : Again → State
  | .gave v fl => (s.result o.core cid reg v).orFstatus cid fl
  | .waits => s.register { core := o.core, faddr := o.faddr, fcap := o.fcap } cid reg pa kind ((s.rawAt pa).g.word (decide (pa % 16 ≥ 8)))
  | .refused e => s.refuseReg { core := o.core, faddr := o.faddr, fcap := o.fcap } cid reg { e with faddr := o.faddr, fcap := o.fcap }

theorem doPollRetry_of_polled {s s1 : State} {cid reg i pa : Nat} {o : LocalOp} {kind : WaitKind} {again : Again}
    (hfind : listFind (fun o : LocalOp => o.cid == cid && o.reg == reg && o.poll.isSome) s.ops = some i) (hop : listAt s.ops i = some o)
    (hpoll : o.poll = some (pa, kind))
    (hread : ({ s with ops := listDel s.ops i } : State).readAgain (s.coreFor cid) cid (s.berthOf cid) pa kind kind.fstatus = (s1, again)) :
    doPollRetry cid reg s = s1.pollEnds o cid reg pa kind again := by
  obtain ⟨⟩ := o
  subst hpoll
  simp only [doPollRetry, hfind, hop, hread]
  cases again <;> rfl

theorem doPollRetry_of_remote {s : State} {cid reg : Nat}
    (hfind : listFind (fun o : LocalOp => o.cid == cid && o.reg == reg && o.poll.isSome) s.ops = none) :
    doPollRetry cid reg s = { s with slots := SMap.mapv (fun _ => none) (fun _ x => x.map (fun (y : Slot) =>
      if y.cid = cid ∧ y.reg = some reg ∧ y.st = .poll then { y with st := .unsent, tick := s.time } else y)) s.slots } := by
  simp only [doPollRetry, hfind]

/-! ### Merging buffers that drain -/

/-- A core's merging buffer where the entry of a line keeps only the stores `rest`; an entry without stores is gone. -/
def Core.keepStores (line : Nat) (rest : List BufStore) (c : Core) : Core :=
  { c with buffer := (c.buffer.map (fun x => if x.line = line then { x with stores := rest } else x)).filter (fun x => !x.stores.isEmpty) }

theorem doBufferDrain_of_entry {s : State} {core line : Nat} {e : BufEntry}
    (hentry : (s.core core).buffer.find? (fun e => e.line == line) = some e)
    (hvictim : (s.shed (shedOfCore core)).victims.contains line = false) :
    doBufferDrain core line s =
      (s.updCore core (Core.keepStores line (e.stores.filter (fun b => !(s.drainable [] e.stores).contains b)))).drainStores core line
        (s.drainable [] e.stores) := by
  simp only [doBufferDrain, hentry, hvictim]
  rfl

/-- Where no release store must wait, nothing is held up. -/
theorem State.drainable_of_all_mayDrain {s : State} {bs : List BufStore} (h : bs.all s.mayDrain = true) : s.drainable [] bs = bs := by
  induction bs with
  | nil => rfl
  | cons b bs ih =>
    rw [List.all_cons, Bool.and_eq_true] at h
    obtain ⟨hb, hbs⟩ := h
    simp [State.drainable, hb, ih hbs]

theorem filter_not_mem_self (bs : List BufStore) : bs.filter (fun b => !bs.contains b) = [] := by
  simp [List.filter_eq_nil_iff]

theorem doBufferDrain_of_all_mayDrain {s : State} {core line : Nat} {e : BufEntry}
    (hentry : (s.core core).buffer.find? (fun e => e.line == line) = some e)
    (hvictim : (s.shed (shedOfCore core)).victims.contains line = false) (hall : e.stores.all s.mayDrain = true) :
    doBufferDrain core line s = (s.updCore core (Core.keepStores line [])).drainStores core line e.stores := by
  rw [doBufferDrain_of_entry hentry hvictim, State.drainable_of_all_mayDrain hall, filter_not_mem_self]

/-- Settles O31: each command finds its waiter, its read or its entry, and does what its definition says of that. -/
theorem waitsEnd : Obligations.WaitsEnd := by
  refine ⟨fun s hruns => ⟨fun agent i h => exec_waiterWake agent i s h hruns, fun cid reg h => exec_pollRetry cid reg s h hruns,
    fun core line h => exec_bufferDrain core line s h hruns⟩, fun s hruns => ⟨?wakes, ?polled, ?remote, ?drains⟩⟩
  case wakes =>
    intro agent i w g hagent hw hgot
    rw [exec_waiterWake agent i s (Instr.absent_of_unit_lt rfl rfl hagent) hruns]
    exact congrArg (fun t => Host.Outcome.next (s.after t)) (doWaiterWake_of_filled hw hgot)
  case polled =>
    intro cid reg i o pa kind again s1 hreg hfind hop hpoll hread
    rw [exec_pollRetry cid reg s (Instr.absent_of_unit_lt rfl rfl hreg) hruns, doPollRetry_of_polled hfind hop hpoll hread]
    cases again <;> rfl
  case remote =>
    intro cid reg hreg hfind
    rw [exec_pollRetry cid reg s (Instr.absent_of_unit_lt rfl rfl hreg) hruns, doPollRetry_of_remote hfind]
  case drains =>
    intro core line e hcore hentry hvictim
    rw [exec_bufferDrain core line s (Instr.absent_of_unit_lt rfl rfl hcore) hruns]
    refine ⟨fun hall => ?_, ?_⟩
    · rw [doBufferDrain_of_all_mayDrain hentry hvictim hall]
      rfl
    · rw [doBufferDrain_of_entry hentry hvictim]
      rfl

end Sys2Proof.Machine
end

section
/-!
Event contexts that are awake (O8, O9; 07 R156, 08 R183): the consequences of every command end with a wake of each berth's event context,
and a tick only rouses records.
-/

namespace Sys2Proof

theorem mem_upTo {n i : Nat} : i ∈ upTo n ↔ i < n := by
  induction n with
  | zero => simp [upTo]
  | succ n ih => simp [upTo, ih, Nat.le_iff_lt_or_eq]

/-- What each step of a fold brings about for its own element, and no step undoes, holds after the fold for every element. -/
theorem foldl_establishes {α σ : Type} {R : σ → σ → Prop} {P : σ → α → Prop} (refl : ∀ s, R s s) (trans : ∀ {s t u}, R s t → R t u → R s u)
    {f : σ → α → σ} (hf : ∀ s a, R s (f s a)) (hP : ∀ s a, P (f s a) a) (keeps : ∀ {s t a}, R s t → P s a → P t a) (l : List α) (s : σ)
    {a : α} (ha : a ∈ l) : P (l.foldl f s) a := by
  induction l generalizing s with
  | nil => exact absurd ha List.not_mem_nil
  | cons x l ih =>
    rcases List.mem_cons.mp ha with rfl | ha
    · exact keeps (List.foldlRecOn l f (refl _) fun t ht x _ => trans ht (hf t x)) (hP s a)
    · exact ih _ ha

end Sys2Proof

namespace Sys2Proof.Machine

/-! ### Records that are roused -/

/-- `r'` is `r` after any wakes: it may have gained pending events, and may have gone from PARKED to READY. -/
structure Record.RousesTo (r r' : Record) : Prop where
  gen : r'.gen = r.gen
  status : r'.status = r.status
  bevp : r.bevp = true → r'.bevp = true
  free : r'.rstate = .free ↔ r.rstate = .free
  parked : r'.rstate = .parked → r.rstate = .parked

theorem Record.RousesTo.refl (r : Record) : r.RousesTo r := ⟨rfl, rfl, id, Iff.rfl, id⟩

theorem Record.RousesTo.trans {r q p : Record} (h : r.RousesTo q) (h' : q.RousesTo p) : r.RousesTo p :=
  ⟨h'.gen.trans h.gen, h'.status.trans h.status, h'.bevp ∘ h.bevp, h'.free.trans h.free, h.parked ∘ h'.parked⟩

/-- `s'` is `s` with records roused; reset, berths, entries and stalls are the same. -/
structure State.RousesTo (s s' : State) : Prop where
  inReset : s'.inReset = s.inReset
  berths : s'.berths = s.berths
  dict : s'.dict = s.dict
  stalls : s'.stalls = s.stalls
  record : ∀ n, (s.record n).RousesTo (s'.record n)

theorem State.RousesTo.refl (s : State) : s.RousesTo s := ⟨rfl, rfl, rfl, rfl, fun _ => .refl _⟩

theorem State.RousesTo.trans {s t u : State} (h : s.RousesTo t) (h' : t.RousesTo u) : s.RousesTo u :=
  ⟨h'.inReset.trans h.inReset, h'.berths.trans h.berths, h'.dict.trans h.dict, h'.stalls.trans h.stalls, fun n => (h.record n).trans (h'.record n)⟩

/-- One record changed to what it rouses to. -/
theorem State.rousesTo_updRecord (s : State) (rn : Nat) {f : Record → Record} (hf : (s.record rn).RousesTo (f (s.record rn))) :
    s.RousesTo (s.updRecord rn f) := by
  refine ⟨rfl, rfl, rfl, rfl, fun n => ?_⟩
  unfold State.updRecord
  by_cases hn : n = rn
  · subst hn
    rwa [State.record_setRecord]
  · rw [State.record_setRecord_other s _ hn]
    exact .refl _

/-- A wake leaves a record that is not PARKED and ready, and makes any other READY. -/
theorem State.record_wakeRecord (s : State) (rn n : Nat) : (s.wakeRecord rn).record n =
    if n = rn ∧ (s.record rn).rstate = .parked ∧ (s.record rn).isReady s.time = true then { s.record rn with rstate := .ready } else s.record n := by
  by_cases hw : (s.record rn).rstate = .parked ∧ (s.record rn).isReady s.time = true
  · obtain ⟨hparked, hready⟩ := hw
    by_cases hn : n = rn
    · subst hn
      simp [State.wakeRecord, hparked, hready, State.enqueue, State.updShed]
    · simp [State.wakeRecord, hparked, hready, State.enqueue, State.updShed, hn, State.record_setRecord_other]
  · simp [State.wakeRecord, hw]

theorem State.record_rousesTo_wakeRecord (s : State) (rn n : Nat) : (s.record n).RousesTo ((s.wakeRecord rn).record n) := by
  rw [State.record_wakeRecord]
  split
  next h =>
    obtain ⟨rfl, hparked, -⟩ := h
    exact ⟨rfl, rfl, id, by simp [hparked], by simp⟩
  next => exact .refl _

/-- A wake changes records and ready queues alone. -/
theorem State.wakeRecord_eq (s : State) (rn : Nat) : ∃ records sheds, s.wakeRecord rn = { s with records := records, sheds := sheds } := by
  unfold State.wakeRecord
  dsimp only
  split <;> exact ⟨_, _, rfl⟩

theorem State.rousesTo_wakeRecord (s : State) (rn : Nat) : s.RousesTo (s.wakeRecord rn) := by
  obtain ⟨records, sheds, heq⟩ := s.wakeRecord_eq rn
  have hrecord := s.record_rousesTo_wakeRecord rn
  rw [heq] at hrecord ⊢
  exact ⟨rfl, rfl, rfl, rfl, hrecord⟩

/-! ### Rousing keeps event contexts awake -/

theorem State.RousesTo.ent_eq {s s' : State} (h : s.RousesTo s') (i j : Nat) : s'.ent i j = s.ent i j := by
  simp [State.ent, h.dict]

theorem State.RousesTo.berth_eq {s s' : State} (h : s.RousesTo s') (b : Nat) : s'.berth b = s.berth b := by
  simp [State.berth, h.berths]

theorem State.RousesTo.stallOf_eq {s s' : State} (h : s.RousesTo s') (cid : Nat) : s'.stallOf cid = s.stallOf cid := by
  simp [State.stallOf, h.stalls]

theorem State.RousesTo.living_eq {s s' : State} (h : s.RousesTo s') (cid : Nat) : s'.living cid = s.living cid := by
  have hrec := h.record (cidRecord cid)
  have hfree : ((s'.record (cidRecord cid)).rstate != .free) = ((s.record (cidRecord cid)).rstate != .free) := by
    rw [Bool.eq_iff_iff, bne_iff_ne, bne_iff_ne, Ne, hrec.free]
  simp only [State.living, State.stall, h.stalls, hrec.gen, hfree]

theorem State.RousesTo.eventAwake {s s' : State} (h : s.RousesTo s') {b : Nat} (hb : s.eventAwake b) : s'.eventAwake b := by
  unfold State.eventAwake at hb ⊢
  rw [h.ent_eq, h.berth_eq, h.living_eq, h.stallOf_eq]
  have hrec := h.record (cidRecord (s.ent (berthIdx b) 0x14))
  intro hev hint hliving hstall
  obtain ⟨hbevp, hmasked⟩ := hb hev hint hliving hstall
  exact ⟨hrec.bevp hbevp, fun hparked => hrec.status ▸ hmasked (hrec.parked hparked)⟩

theorem State.RousesTo.eventsAwake {s s' : State} (h : s.RousesTo s') (hs : s.eventsAwake) : s'.eventsAwake :=
  fun hreset b hb => h.eventAwake (hs (h.inReset ▸ hreset) b hb)

/-! ### A wake of a berth's event context -/

theorem State.rousesTo_bevp (s : State) (rn : Nat) : s.RousesTo (s.updRecord rn (fun r => { r with bevp := true })) :=
  s.rousesTo_updRecord rn ⟨rfl, rfl, fun _ => rfl, Iff.rfl, id⟩

theorem State.rousesTo_wakeEvent (s : State) (b : Nat) : s.RousesTo (s.wakeEvent b) := by
  unfold State.wakeEvent
  dsimp only
  split
  · exact .refl s
  · exact (s.rousesTo_bevp _).trans (State.rousesTo_wakeRecord _ _)

theorem Record.isReady_of_event {r : Record} {time : Nat} (hopen : stIE r.status = true) (hbevp : r.bevp = true) : r.isReady time = true := by
  simp [Record.isReady, hopen, hbevp]

/-- A record with BEVP set that is still PARKED after its wake has its events masked. -/
theorem State.wakeRecord_awake {s : State} {rn : Nat} (hbevp : (s.record rn).bevp = true) :
    ((s.wakeRecord rn).record rn).bevp = true ∧
      (((s.wakeRecord rn).record rn).rstate = .parked → stIE ((s.wakeRecord rn).record rn).status = false) := by
  rw [State.record_wakeRecord]
  split
  next => exact ⟨hbevp, by simp⟩
  next hnot =>
    refine ⟨hbevp, fun hparked => ?_⟩
    by_contra hopen
    exact hnot ⟨rfl, hparked, Record.isReady_of_event (Bool.eq_true_of_not_eq_false hopen) hbevp⟩

theorem State.eventAwake_wakeEvent (s : State) (b : Nat) : (s.wakeEvent b).eventAwake b := by
  have h := s.rousesTo_wakeEvent b
  unfold State.eventAwake
  rw [h.ent_eq, h.berth_eq, h.living_eq, h.stallOf_eq]
  intro hev hint hliving hstall
  have hwake : s.wakeEvent b = (s.updRecord (cidRecord (s.ent (berthIdx b) 0x14)) (fun r => { r with bevp := true })).wakeRecord
      (cidRecord (s.ent (berthIdx b) 0x14)) := by
    simp [State.wakeEvent, hev, hint, hliving, hstall]
  rw [hwake]
  exact State.wakeRecord_awake (by simp [State.updRecord])

/-! ### Commands and ticks -/

/-- Out of reset the consequences end with the wake of every berth's event context. -/
theorem State.settle_eventsAwake (old new : State) : (old.settle new).eventsAwake := by
  intro hreset b hb
  unfold State.settle at hreset ⊢
  split at hreset
  next hnew => exact absurd hreset (by simp [hnew])
  next hnew =>
    rw [if_neg hnew]
    exact foldl_establishes (P := State.eventAwake) State.RousesTo.refl State.RousesTo.trans State.rousesTo_wakeEvent State.eventAwake_wakeEvent
      (fun h => h.eventAwake) (upTo nBerths) _ (mem_upTo.mpr hb)

theorem State.rousesTo_tick (s : State) : s.RousesTo s.tick := by
  have hstep : ∀ (t : State) (e : Nat × Record), t.RousesTo ((t.updRecord e.1 (fun r => { r with timp := true })).wakeRecord e.1) := fun t e =>
    (t.rousesTo_updRecord e.1 ⟨rfl, rfl, id, Iff.rfl, id⟩).trans (State.rousesTo_wakeRecord _ _)
  have htime : s.RousesTo { s with time := s.time + 1 } := ⟨rfl, rfl, rfl, rfl, fun _ => .refl _⟩
  exact htime.trans (List.foldlRecOn _ _ (.refl _) fun t ht e _ => ht.trans (hstep t e))

/-- A command's answer is awake: it runs and is settled, or leaves the state as it is. -/
theorem exec_eventsAwake {c : Instr} {s t : State} (hs : s.eventsAwake) (h : exec c s = .next t) : t.eventsAwake := by
  obtain ⟨on, f, -, hexec⟩ := exec_is_command c
  rw [hexec] at h
  cases hc : c.absent with
  | some u => simp [command_absent c on f s u hc] at h
  | none =>
    cases hon : on s with
    | true =>
      rw [command_runs c on f s hc hon] at h
      cases h
      exact s.settle_eventsAwake (f s)
    | false =>
      rw [command_idle c on f s hc hon] at h
      cases h
      exact hs

/-- Settles O8: a command settles with every event context awake, and a tick only rouses records. -/
theorem eventContextsStayAwake : Obligations.EventContextsStayAwake := by
  intro s t hs hstep
  cases hq : s.pending with
  | cons c rest =>
    rw [step_front s c rest hq] at hstep
    exact exec_eventsAwake (s := { s with pending := rest }) hs hstep
  | nil =>
    rw [step_empty s hq] at hstep
    cases hstep
    exact s.rousesTo_tick.eventsAwake hs

/-- Settles O9: no berth has an event at reset. -/
theorem eventContextsAwakeAtReset : Obligations.EventContextsAwakeAtReset :=
  fun _ _ _ hev => absurd rfl hev

end Sys2Proof.Machine
end

section
/-!
What follows a command (O10; 07 R156, R159, 16 R373, R377): where no berth is being reset, the consequences touch device events, records, ready
queues, berths, entries and the trace alone.
-/

namespace Sys2Proof.Machine

/-- `t` is `s` but for device events, records, ready queues, berths, dictionary entries and the trace. -/
def State.SameButBooks (s t : State) : Prop :=
  ∃ cores records sheds berths dict trace,
    t = { s with cores := cores, records := records, sheds := sheds, berths := berths, dict := dict, trace := trace }

theorem State.SameButBooks.refl (s : State) : s.SameButBooks s := ⟨_, _, _, _, _, _, rfl⟩

theorem State.SameButBooks.trans {s t u : State} (h : s.SameButBooks t) (h' : t.SameButBooks u) : s.SameButBooks u := by
  obtain ⟨_, _, _, _, _, _, rfl⟩ := h
  obtain ⟨_, _, _, _, _, _, rfl⟩ := h'
  exact ⟨_, _, _, _, _, _, rfl⟩

theorem State.SameButBooks.foldl {α : Type} {f : State → α → State} (hf : ∀ (s : State) a, s.SameButBooks (f s a)) (l : List α) (s : State) :
    s.SameButBooks (l.foldl f s) :=
  List.foldlRecOn l f (.refl s) fun t ht a _ => ht.trans (hf t a)

/-! ### Each consequence -/

theorem State.fabricEvent_sameButBooks (s : State) (bits : Nat) : s.SameButBooks (s.fabricEvent bits) := by
  unfold State.fabricEvent
  split <;> exact ⟨_, _, _, _, _, _, rfl⟩

theorem State.traceBoot_sameButBooks (s : State) (n : Nat) : s.SameButBooks (s.traceBoot n) := ⟨_, _, _, _, _, _, rfl⟩

theorem State.berthEvent_sameButBooks (s : State) (b code : Nat) (w0 w1 : Word64) : s.SameButBooks (s.berthEvent b code w0 w1) := by
  unfold State.berthEvent
  split <;> exact ⟨_, _, _, _, _, _, rfl⟩

theorem State.quotaEdge_sameButBooks (s : State) (b : Nat) : s.SameButBooks (s.quotaEdge b) := by
  have hmark : s.SameButBooks (if s.overQuota b = (s.berth b).overQ then s else s.updBerth b (fun x => { x with overQ := s.overQuota b })) := by
    split <;> exact ⟨_, _, _, _, _, _, rfl⟩
  unfold State.quotaEdge
  dsimp only
  split
  · exact hmark.trans (State.berthEvent_sameButBooks _ _ _ _ _)
  · exact hmark

theorem State.wakeEvent_sameButBooks (s : State) (b : Nat) : s.SameButBooks (s.wakeEvent b) := by
  unfold State.wakeEvent
  dsimp only
  split
  · exact .refl s
  · obtain ⟨records, sheds, hwake⟩ := (s.updRecord (cidRecord (s.ent (berthIdx b) 0x14)) (fun r => { r with bevp := true })).wakeRecord_eq
      (cidRecord (s.ent (berthIdx b) 0x14))
    exact ⟨_, _, _, _, _, _, hwake⟩

/-! ### No drain goes on -/

@[simp] theorem State.fabricEvent_berthState (s : State) (bits b : Nat) : (s.fabricEvent bits).berthState b = s.berthState b := by
  have hkey : ekey (berthIdx b) 0x01 ≠ ekey 0x5000 0x21 := by simp [ekey, berthIdx]; omega
  unfold State.fabricEvent
  split
  · rfl
  · exact State.ent_setEnt_other _ _ hkey

@[simp] theorem State.traceBoot_berthState (s : State) (n b : Nat) : (s.traceBoot n).berthState b = s.berthState b := by
  have hkey : ekey (berthIdx b) 0x01 ≠ ekey 0xA000 0x07 := by simp [ekey, berthIdx]; omega
  unfold State.berthState State.traceBoot State.traceRecord
  dsimp only
  rw [State.ent_setEnt_other _ _ hkey]
  simp only [State.ent]

theorem State.drainDones_of_no_reset {s : State} (h : ∀ b < nBerths, s.berthState b ≠ bsRESETTING) :
    (upTo nBerths).foldl State.drainDone s = s :=
  List.foldlRecOn (motive := (· = s)) _ _ rfl fun t ht b hb => by
    rw [ht, State.drainDone, if_neg fun hdrain => h b (mem_upTo.mp hb) hdrain.1]

theorem State.settle_sameButBooks (old : State) {x : State} (h : ∀ b < nBerths, x.berthState b ≠ bsRESETTING) : x.SameButBooks (old.settle x) := by
  unfold State.settle
  split
  · exact .refl x
  · have hfabric := x.fabricEvent_sameButBooks (fabricCauses old x)
    have hsteady : ∀ b < nBerths, (x.fabricEvent (fabricCauses old x)).berthState b ≠ bsRESETTING := by simpa using h
    generalize x.fabricEvent (fabricCauses old x) = y at hfabric hsteady ⊢
    have hboot : x.SameButBooks (if old.ent 0x2200 0x03 = 1 ∧ y.ent 0x2200 0x03 = 2 then y.traceBoot 9 else y) ∧
        ∀ b < nBerths, (if old.ent 0x2200 0x03 = 1 ∧ y.ent 0x2200 0x03 = 2 then y.traceBoot 9 else y).berthState b ≠ bsRESETTING := by
      split
      · exact ⟨hfabric.trans (y.traceBoot_sameButBooks 9), by simpa using hsteady⟩
      · exact ⟨hfabric, hsteady⟩
    obtain ⟨hbooks, hidle⟩ := hboot
    dsimp only
    rw [State.drainDones_of_no_reset hidle]
    exact (hbooks.trans (.foldl State.quotaEdge_sameButBooks _ _)).trans (.foldl State.wakeEvent_sameButBooks _ _)

/-- Settles O10: no drain goes on, and no other consequence reaches what the statement lists. -/
theorem consequencesLeaveTheMachine : Obligations.ConsequencesLeaveTheMachine := by
  intro s x hsteady
  obtain ⟨cores, records, sheds, berths, dict, trace, hsettle⟩ := s.settle_sameButBooks hsteady
  rw [State.after, hsettle]
  exact ⟨rfl, rfl, rfl, rfl, rfl, rfl, rfl, rfl, rfl, rfl, rfl, rfl, rfl, rfl, rfl, rfl, rfl, rfl⟩

end Sys2Proof.Machine
end

section
/-!
What accesses to memory leave of the stalls: nothing but a late store error changes a stall, and that keeps its STATUS. An entry whose frame is
pushed (07 R147) therefore finds the STATUS it saved.
-/

namespace Sys2Proof.Machine

theorem foldl_stalls {α : Type} (l : List α) (f : State → α → State) (hf : ∀ s a, (f s a).stalls = s.stalls) (s : State) :
    (l.foldl f s).stalls = s.stalls :=
  List.foldlRecOn (motive := fun t => t.stalls = s.stalls) l f rfl fun t ht a _ => (hf t a).trans ht

@[simp] theorem bump_stalls (s : State) (i j w n : Nat) : (s.bump i j w n).stalls = s.stalls := rfl
@[simp] theorem updShed_stalls (s : State) (k : Nat) (f : Shed → Shed) : (s.updShed k f).stalls = s.stalls := rfl
@[simp] theorem updPort_stalls (s : State) (k : Nat) (f : Port → Port) : (s.updPort k f).stalls = s.stalls := rfl
@[simp] theorem updBerth_stalls (s : State) (k : Nat) (f : Berth → Berth) : (s.updBerth k f).stalls = s.stalls := rfl
@[simp] theorem updCore_stalls (s : State) (k : Nat) (f : Core → Core) : (s.updCore k f).stalls = s.stalls := rfl
@[simp] theorem updRecord_stalls (s : State) (k : Nat) (f : Record → Record) : (s.updRecord k f).stalls = s.stalls := rfl

/-! ### Granules, ports and haylofts -/

@[simp] theorem writePA_stalls (s : State) (pa : Nat) (m : MGran) : (s.writePA pa m).stalls = s.stalls := by
  unfold State.writePA
  split
  · rfl
  · exact foldl_stalls _ _ (fun s q => State.mset_stalls s _ m) s

@[simp] theorem injected_stalls (s : State) (bit : Nat) : (s.injected bit).1.stalls = s.stalls := by
  unfold State.injected
  dsimp only
  split <;> rfl

@[simp] theorem injectLine_stalls (s : State) (p shed : Nat) (held : Bool) : (s.injectLine p shed held).1.stalls = s.stalls := by
  unfold State.injectLine
  dsimp only
  split
  · simp
  · split <;> simp

@[simp] theorem decodeAt_stalls (s : State) (p pda shed : Nat) (held : Bool) : (s.decodeAt p pda shed held).1.stalls = s.stalls := by
  unfold State.decodeAt
  split
  · simp
  · rfl

@[simp] theorem corrected_stalls (s : State) (p pda : Nat) (held : Bool) (shed : Nat) (m : MGran) :
    (s.corrected p pda held shed m).stalls = s.stalls := by
  unfold State.corrected
  dsimp only
  split <;> simp

@[simp] theorem badGranule_stalls (s : State) (p pda pa shed : Nat) (held poison : Bool) :
    (s.badGranule p pda pa shed held poison).stalls = s.stalls := by
  unfold State.badGranule
  dsimp only
  split <;> rfl

@[simp] theorem poisonAt_stalls (s : State) (p pda : Nat) (held : Bool) : (s.poisonAt p pda held).stalls = s.stalls := by
  unfold State.poisonAt
  split <;> simp

@[simp] theorem readPA_stalls (s : State) (shed pa : Nat) : (s.readPA shed pa).1.stalls = s.stalls := by
  unfold State.readPA
  split
  · rfl
  next p pda _ =>
    dsimp only
    generalize s.holder shed (pa / 64) = sh
    generalize s.lineHeld (pa / 64) = held
    split
    · rfl
    next q more _ =>
      have hq := decodeAt_stalls s q pda sh held
      generalize s.decodeAt q pda sh held = dq at hq ⊢
      obtain ⟨s1, d, m⟩ := dq
      cases d with
      | clean => exact hq
      | corrected => simpa using hq
      | _ =>
        dsimp only
        split
        · simpa using hq
        next r _ _ =>
          have hr := decodeAt_stalls s1 r pda sh held
          generalize s1.decodeAt r pda sh held = dr at hr ⊢
          obtain ⟨s2, d2, m2⟩ := dr
          cases d2 <;> simpa using hr.trans hq

@[simp] theorem firstErr_stalls (s : State) (p pda : Nat) : (s.firstErr p pda).stalls = s.stalls := by
  unfold State.firstErr
  dsimp only
  split <;> rfl

@[simp] theorem useSidecar_stalls (s : State) (p pda : Nat) (wr : Bool) : (s.useSidecar p pda wr).stalls = s.stalls := by
  unfold State.useSidecar
  dsimp only
  split <;> rfl

@[simp] theorem writeBack_stalls (s : State) (line : Nat) : (s.writeBack line).stalls = s.stalls := by
  unfold State.writeBack
  split
  · rfl
  · refine foldl_stalls _ _ (fun s q => ?_) s
    split <;> simp

@[simp] theorem dropLine_stalls (s : State) (line : Nat) : (s.dropLine line).stalls = s.stalls := by
  unfold State.dropLine
  dsimp only
  split <;> simp

@[simp] theorem dirRoom_stalls (s : State) (line : Nat) : (s.dirRoom line).stalls = s.stalls := by
  unfold State.dirRoom
  dsimp only
  split
  · rfl
  · split <;> simp

@[simp] theorem fillLine_stalls (s : State) (shed b line : Nat) (st : LState) : (s.fillLine shed b line st).stalls = s.stalls := by
  unfold State.fillLine
  split
  · rfl
  · dsimp only
    split <;> simp

@[simp] theorem shareOthers_stalls (s : State) (me line : Nat) : (s.shareOthers me line).stalls = s.stalls := by
  unfold State.shareOthers
  dsimp only
  split <;> simp

@[simp] theorem dropOthers_stalls (s : State) (me line : Nat) : (s.dropOthers me line).stalls = s.stalls := rfl

@[simp] theorem settleVictim_stalls (s : State) (shed line : Nat) : (s.settleVictim shed line).stalls = s.stalls := by
  unfold State.settleVictim
  split <;> simp

@[simp] theorem fillWaiters_stalls (s : State) (pa : Nat) (old new : Gran) : (s.fillWaiters pa old new).stalls = s.stalls := rfl

@[simp] theorem portRead_stalls (s : State) (shed line gi : Nat) : (s.portRead shed line gi).stalls = s.stalls := by
  unfold State.portRead
  split
  · rfl
  · split
    · dsimp only
      rw [foldl_stalls]
      · simp
      · intro s i
        split <;> simp
    · rfl

@[simp] theorem touchRead_stalls (s : State) (shed b line gi : Nat) : (s.touchRead shed b line gi).stalls = s.stalls := by
  unfold State.touchRead
  split
  · rfl
  · dsimp only
    split <;> simp

@[simp] theorem touchWrite_stalls (s : State) (shed core b line gi : Nat) : (s.touchWrite shed core b line gi).stalls = s.stalls := by
  unfold State.touchWrite
  dsimp only
  split <;> simp

@[simp] theorem perform_stalls (s : State) (core b pa : Nat) (m : MGran) (g : Gran) : (s.perform core b pa m g).stalls = s.stalls := by
  simp [State.perform]

/-! ### Translation -/

@[simp] theorem setTlb_stalls (s : State) (u : TlbUnit) (l : List TlbEntry) : (s.setTlb u l).stalls = s.stalls := rfl
@[simp] theorem setWcache_stalls (s : State) (w : Nat) (l : List WalkEntry) : (s.setWcache w l).stalls = s.stalls := rfl
@[simp] theorem fillTlb_stalls (s : State) (u : TlbUnit) (e : TlbEntry) : (s.fillTlb u e).stalls = s.stalls := rfl
@[simp] theorem countWalk_stalls (s : State) (b : Nat) (faulted : Bool) : (s.countWalk b faulted).stalls = s.stalls := rfl

@[simp] theorem readVia_stalls (s : State) (u : TlbUnit) (b pa : Nat) : (s.readVia u b pa).1.stalls = s.stalls := by
  unfold State.readVia
  dsimp only
  split
  · simp
  · split
    · dsimp only
      split <;> simp
    · simp

theorem stalls_of_ite {α : Type} {c : Prop} [Decidable c] {x y : State × α} {m : SMap Stall} (hx : x.1.stalls = m) (hy : y.1.stalls = m) :
    (if c then x else y).1.stalls = m := by
  split
  · exact hx
  · exact hy

@[simp] theorem walkFrom_stalls (u : TlbUnit) (b va n : Nat) (x : Blk) (k : Nat) (s : State) (t : Nat) :
    (s.walkFrom u b va n x k t).1.stalls = s.stalls := by
  induction k generalizing s t with
  | zero => rfl
  | succ k ih =>
    unfold State.walkFrom
    extract_lets w idx p r sz
    have hread : r.1.stalls = s.stalls := readVia_stalls s u b _
    clear_value r
    refine stalls_of_ite rfl (stalls_of_ite rfl ?_)
    split
    · exact hread
    extract_lets e v base ent c
    refine stalls_of_ite hread (stalls_of_ite hread (stalls_of_ite hread (stalls_of_ite ?leaf ?table)))
    case leaf => exact stalls_of_ite hread (stalls_of_ite hread (stalls_of_ite hread hread))
    case table => exact stalls_of_ite hread ((ih _ _).trans ((setWcache_stalls _ _ _).trans hread))

@[simp] theorem resolve_stalls (s : State) (u : TlbUnit) (b va : Nat) : (s.resolve u b va).1.stalls = s.stalls := by
  unfold State.resolve
  split
  · rfl
  · dsimp only
    split
    · split <;> simp
    · rfl

@[simp] theorem translate_stalls (s : State) (u : TlbUnit) (b va : Nat) : (s.translate u b va).1.stalls = s.stalls := by
  unfold State.translate
  split
  · rfl
  · dsimp only
    split <;> simp

/-! ### The engines' reads and the barriers -/

@[simp] theorem anomaly_stalls (s : State) (b sh n : Nat) : (s.anomaly b sh n).stalls = s.stalls := by
  simp [State.anomaly]
@[simp] theorem setPhase_stalls (s : State) (b minor old : Nat) : (s.setPhase b minor old).stalls = s.stalls := rfl
@[simp] theorem logCap_stalls (s : State) (b : Nat) (g : Gran) : (s.logCap b g).stalls = s.stalls := rfl

@[simp] theorem berthEvent_stalls (s : State) (b code : Nat) (w0 w1 : Word64) : (s.berthEvent b code w0 w1).stalls = s.stalls := by
  unfold State.berthEvent
  split <;> rfl

@[simp] theorem haltGc_stalls (s : State) (b va : Nat) (e : Exc) : (s.haltGc b va e).stalls = s.stalls := by
  unfold State.haltGc
  split <;> simp

@[simp] theorem engHeap_stalls (s : State) (b va : Nat) : (s.engHeap b va).1.stalls = s.stalls := by
  unfold State.engHeap
  dsimp only
  split
  · simp
  · split
    · dsimp only
      split <;> simp
    · simp

@[simp] theorem readInfo_stalls (s : State) (b seg : Nat) : (s.readInfo b seg).1.stalls = s.stalls := engHeap_stalls _ _ _

@[simp] theorem readMarked_stalls (s : State) (b va : Nat) : (s.readMarked b va).1.stalls = s.stalls := by
  unfold State.readMarked
  split <;> simp

@[simp] theorem logUnmarked_stalls (s : State) (b : Nat) (on : Bool) (g : Gran) : (s.logUnmarked b on g).stalls = s.stalls := by
  unfold State.logUnmarked
  split
  · dsimp only
    split <;> simp
  · rfl

@[simp] theorem rebased_stalls (s : State) (b : Nat) (g : Gran) : (s.rebased b g).1.stalls = s.stalls := by
  unfold State.rebased
  split <;> simp

@[simp] theorem setCard_stalls (s : State) (b va : Nat) : (s.setCard b va).stalls = s.stalls := by
  unfold State.setCard
  split
  · rfl
  · dsimp only
    split <;> simp

@[simp] theorem cardBarrier_stalls (s : State) (b va : Nat) (new : Gran) : (s.cardBarrier b va new).stalls = s.stalls := by
  unfold State.cardBarrier
  split
  · split
    · dsimp only
      split <;> simp
    · rfl
  · rfl

@[simp] theorem storeBarrier_stalls (s : State) (b va : Nat) (old new : Gran) (unscanned home : Bool) :
    (s.storeBarrier b va old new unscanned home).1.stalls = s.stalls := by
  unfold State.storeBarrier
  dsimp only
  split <;> simp

/-! ### Frames and late store errors -/

@[simp] theorem frameStep_stalls (s : State) (shed b ver va : Nat) : (s.frameStep shed b ver va).1.stalls = s.stalls := by
  unfold State.frameStep
  dsimp only
  split
  · simp
  · split
    · simp
    · split <;> simp

@[simp] theorem frameAt_stalls (s : State) (shed cid off : Nat) : (s.frameAt shed cid off).1.stalls = s.stalls := by
  unfold State.frameAt
  dsimp only
  split
  · simp
  · split
    · split <;> simp
    · simp

@[simp] theorem framePut_stalls (s : State) (shed cid off : Nat) (f : Gran → Gran) : (s.framePut shed cid off f).1.stalls = s.stalls := by
  unfold State.framePut
  dsimp only
  split <;> simp

@[simp] theorem wakeRecord_stalls (s : State) (rn : Nat) : (s.wakeRecord rn).stalls = s.stalls := by
  obtain ⟨records, sheds, heq⟩ := s.wakeRecord_eq rn
  rw [heq]

/-- Every stall of `t` has the STATUS it has in `s`. -/
def State.SameStatus (s t : State) : Prop := ∀ k, (t.stall k).status = (s.stall k).status

theorem State.SameStatus.refl (s : State) : s.SameStatus s := fun _ => rfl

theorem State.SameStatus.trans {s t u : State} (h : s.SameStatus t) (h' : t.SameStatus u) : s.SameStatus u := fun k => (h' k).trans (h k)

theorem State.SameStatus.of_stalls {s t : State} (h : t.stalls = s.stalls) : s.SameStatus t := fun k => by simp [State.stall, h]

theorem State.SameStatus.foldl {α : Type} {f : State → α → State} (hf : ∀ (s : State) a, s.SameStatus (f s a)) (l : List α) (s : State) :
    s.SameStatus (l.foldl f s) :=
  List.foldlRecOn l f (.refl s) fun t ht a _ => ht.trans (hf t a)

theorem State.sameStatus_updStall (s : State) (k : Nat) {f : Stall → Stall} (hf : ∀ t, (f t).status = t.status) : s.SameStatus (s.updStall k f) := by
  intro j
  unfold State.updStall
  by_cases hj : j = k
  · rw [hj, State.stall_setStall, hf]
  · rw [State.stall_setStall_other s _ hj]

/-- A late store error is recorded beside the registers of its stall (07 R155), or in its record and frame. -/
theorem lateStore_sameStatus (s : State) (cid : Nat) (faddr : Word64) (cause sub : Nat) (remote : Bool) :
    s.SameStatus (s.lateStore cid faddr cause sub remote) := by
  unfold State.lateStore
  split
  · exact .refl s
  · split
    · refine s.sameStatus_updStall _ fun t => ?_
      split <;> rfl
    · refine .of_stalls ?_
      dsimp only
      split <;> simp

/-! ### Stores that drain, and pushes -/

theorem drainGran_sameStatus (s : State) (core line : Nat) (bs : List BufStore) : s.SameStatus (s.drainGran core line bs) := by
  unfold State.drainGran
  split
  · exact .refl s
  · dsimp only
    split
    · exact .of_stalls (by simp)
    · split
      · exact .of_stalls (by simp)
      · refine State.SameStatus.trans (.of_stalls ?_) (.foldl (fun s x => lateStore_sameStatus s _ _ _ _ _) _ _)
        split <;> simp

theorem flushOwn_sameStatus (s : State) (core cid pa : Nat) : s.SameStatus (s.flushOwn core cid pa) := by
  unfold State.flushOwn State.drainStores
  exact State.SameStatus.trans (.of_stalls (updCore_stalls _ _ _)) (.foldl (fun s i => drainGran_sameStatus s _ _ _) _ _)

@[simp] theorem transData_stalls (s : State) (core b : Nat) (g : Gran) (va : Nat) : (s.transData core b g va).1.stalls = s.stalls := by
  unfold State.transData
  dsimp only
  split <;> simp

@[simp] theorem land_stalls (s : State) (core b : Nat) (g : Gran) (va : Nat) : (s.land core b g va).1.stalls = s.stalls := by
  unfold State.land
  dsimp only
  split
  · simp
  split
  · simp
  split
  · simp
  split
  · split
    · simp
    · split <;> simp
  · simp

theorem landOwn_sameStatus (s : State) (w : Who) (g : Gran) (va : Nat) : s.SameStatus (s.landOwn w g va).1 := by
  have hland : s.SameStatus (s.land w.core w.berth g va).1 := .of_stalls (land_stalls _ _ _ _ _)
  unfold State.landOwn
  dsimp only
  split
  · exact hland
  · split
    · exact (hland.trans (flushOwn_sameStatus _ _ _ _)).trans (.of_stalls (readPA_stalls _ _ _))
    · exact hland

theorem landEach_sameStatus (w : Who) (g : Gran) (bad : State → Nat → Loc → Option Fail) (n : Nat) (s : State) (va : Nat) :
    s.SameStatus (s.landEach w g bad n va).1 := by
  induction n generalizing s va with
  | zero => exact .refl s
  | succ n ih =>
    have hnext := (landOwn_sameStatus s w g va).trans (ih (s.landOwn w g va).1 (va + 16))
    unfold State.landEach
    dsimp only
    split <;> exact hnext

@[simp] theorem storeLocs_stalls (w : Who) (bar : Bool) (ls : List Loc) (xs : List Gran) (s : State) :
    (s.storeLocs w bar ls xs).stalls = s.stalls := by
  induction ls generalizing s xs with
  | nil => rfl
  | cons loc ls ih =>
    cases xs with
    | nil => rfl
    | cons x xs =>
      unfold State.storeLocs
      dsimp only
      rw [ih, perform_stalls]
      split <;> simp

theorem storeGrans_sameStatus (s : State) (w : Who) (g : Gran) (bar : Bool) (va : Nat) (xs : List Gran) :
    s.SameStatus (s.storeGrans w g bar va xs).1 := by
  have hland := landEach_sameStatus w g (noStore g) xs.length s va
  unfold State.storeGrans
  dsimp only
  split
  · exact hland
  · exact hland.trans (.of_stalls (storeLocs_stalls _ _ _ _ _))

theorem push_sameStatus (s : State) (w : Who) (g : Gran) (xs : List Gran) : s.SameStatus (s.push w g xs).1 := by
  unfold State.push
  dsimp only
  split
  · exact .refl s
  next c _ =>
    have hstore := storeGrans_sameStatus s w g true ((Cap.ofGran g).addr - 16 * xs.length : Int).toNat xs
    split <;> exact hstore

end Sys2Proof.Machine
end

section
/-!
Exceptions and events (O27, O28, O29; 07 R146, R147, R154 to R163): the entry on G31 and the double-fault entry on DFSTACK where the ROM alone
runs, device events, and TIMER.
-/

namespace Sys2Proof.Machine

/-! ### STATUS of an entry (07 Table 7.4) -/

theorem stPL_lt (v : Word64) : stPL v < 4 := Nat.mod_lt _ (by decide)

theorem targetLevel_lt {pl : Nat} (h : pl < 4) (cause : Nat) : targetLevel pl cause < 4 := by
  unfold targetLevel minLevel
  split <;> omega

theorem getLsbD_setBit (v : Word64) {i : Nat} (hi : i < 64) (b : Bool) (j : Nat) :
    (setBit v i b).getLsbD j = if i = j then b else v.getLsbD j := by
  cases b with
  | false => exact (maskBit_maskClr v i j).trans (by by_cases h : i = j <;> simp [h, maskBit])
  | true => exact (maskBit_maskSet v i j).trans (by by_cases h : i = j <;> simp [h, maskBit]; omega)

theorem getLsbD_setPL (v : Word64) (pl : Nat) {j : Nat} (hj : j < 64) :
    (setPL v pl).getLsbD j = if j < 2 then pl.testBit j else v.getLsbD j := by
  have hkeep : (~~~(3#64)).getLsbD j = !decide (j < 2) := by
    rw [BitVec.getLsbD_not, BitVec.getLsbD_ofNat, show (3 : Nat) = 2 ^ 2 - 1 from rfl, Nat.testBit_two_pow_sub_one]
    simp [hj]
  have hpl : (w64 (pl % 4)).getLsbD j = (decide (j < 2) && pl.testBit j) := by
    rw [w64, BitVec.getLsbD_ofNat, show pl % 4 = pl % 2 ^ 2 from rfl, Nat.testBit_mod_two_pow]
    simp [hj]
  rw [setPL, BitVec.getLsbD_or, BitVec.getLsbD_and, hkeep, hpl]
  by_cases h : j < 2 <;> simp [h]

theorem stPL_setPL (v : Word64) (pl : Nat) : stPL (setPL v pl) = pl % 4 := by
  have hlow : (setPL v pl).setWidth 2 = BitVec.ofNat 2 pl := by
    refine BitVec.eq_of_getLsbD_eq fun i hi => ?_
    rw [BitVec.getLsbD_setWidth, BitVec.getLsbD_ofNat, getLsbD_setPL v pl (by omega), if_pos hi]
  simpa [stPL, nbits] using congrArg BitVec.toNat hlow

theorem stPL_entryStatus (st : Word64) {pl : Nat} (df : Bool) (h : pl < 4) : stPL (entryStatus st pl df) = pl := by
  rw [entryStatus, stPL_setPL, Nat.mod_eq_of_lt h]

/-- The bits of STATUS above PL: IE, RPA, LPA and CM fall, DF rises where `df` says so or stays, and the rest stays. -/
theorem getLsbD_entryStatus (st : Word64) (pl : Nat) (df : Bool) {j : Nat} (hlo : 2 ≤ j) (hhi : j < 64) :
    (entryStatus st pl df).getLsbD j =
      if j = 10 then df || stDF st else if j = 2 ∨ j = 8 ∨ j = 9 ∨ j = 11 then false else st.getLsbD j := by
  simp only [entryStatus, getLsbD_setPL _ _ hhi, getLsbD_setBit, Nat.reduceLT, if_neg (Nat.not_lt.mpr hlo), eq_comm (b := j)]
  split
  · rfl
  · simp only [← ite_or]

@[simp] theorem stDF_entryStatus (st : Word64) (pl : Nat) (df : Bool) : stDF (entryStatus st pl df) = (df || stDF st) :=
  getLsbD_entryStatus st pl df (by decide) (by decide)

@[simp] theorem stIE_entryStatus (st : Word64) (pl : Nat) (df : Bool) : stIE (entryStatus st pl df) = false :=
  getLsbD_entryStatus st pl df (by decide) (by decide)

@[simp] theorem stRPA_entryStatus (st : Word64) (pl : Nat) (df : Bool) : stRPA (entryStatus st pl df) = false :=
  getLsbD_entryStatus st pl df (by decide) (by decide)

@[simp] theorem stLPA_entryStatus (st : Word64) (pl : Nat) (df : Bool) : stLPA (entryStatus st pl df) = false :=
  getLsbD_entryStatus st pl df (by decide) (by decide)

@[simp] theorem stCM_entryStatus (st : Word64) (pl : Nat) (df : Bool) : stCM (entryStatus st pl df) = false :=
  getLsbD_entryStatus st pl df (by decide) (by decide)

/-! ### The stall at its vector -/

/-- A stall whose frame has been pushed: G31 below the frame, a new STATUS, and PCC at the vector of a cause from a vector base. -/
def Stall.atVector (t : Stall) (g31 : Gran) (status : Word64) (vbase : Gran) (cause : Nat) (entering : Option Entering) (dfOrig : Option Exc) : Stall :=
  { t.setG 31 g31 with
    status := status, pcc := vectorOf vbase cause, rep := 0, repFirst := false, exc := none, entering := entering, dfOrig := dfOrig, fetched := [] }

section
variable (t : Stall) (g31 : Gran) (status : Word64) (vbase : Gran) (cause : Nat) (entering : Option Entering) (dfOrig : Option Exc)

@[simp] theorem Stall.getG_31_atVector : (t.atVector g31 status vbase cause entering dfOrig).getG 31 = g31 :=
  t.getG_setG_same (by decide) g31

theorem Stall.getG_atVector {n : Nat} (hn : n ≠ 31) : (t.atVector g31 status vbase cause entering dfOrig).getG n = t.getG n :=
  t.getG_setG_other hn g31

end

section
variable {s s1 : State} {k : Nat} {e : Exc} {f : Fail} {g31 : Gran}

/-- What an exception's entry saves for the double-fault entry that may follow. -/
def Stall.saves (t : Stall) (e : Exc) : Entering := { exc := e, oldStatus := t.status, oldG31 := t.getG 31, oldPcc := t.pcc, oldRep := t.rep }

/-- The frame that a stall pushes for an exception (07 Table 7.3). -/
def Stall.frame (t : Stall) (e : Exc) (time : Nat) : List Gran := frameOf t.pcc t.status e t.lc t.rep t.predsNat (t.getG 31) time

theorem State.enter_pushed (hpush : s.push (s.who k) ((s.stall k).getG 31) ((s.stall k).frame e s.time) = (s1, .ok g31)) :
    s.enter k e = s1.setStall k ((s1.stall k).atVector g31
      (entryStatus (s.stall k).status (targetLevel (stPL (s.stall k).status) e.cause) false)
      (if targetLevel (stPL (s.stall k).status) e.cause = 2 then (s1.stall k).vbaseY else (s1.stall k).vbaseS) e.cause
      (some ((s.stall k).saves e)) (s1.stall k).dfOrig) := by
  have hstatus : (s1.stall k).status = (s.stall k).status := by
    have hkeeps := push_sameStatus s (s.who k) ((s.stall k).getG 31) ((s.stall k).frame e s.time) k
    rwa [hpush] at hkeeps
  unfold Stall.frame at hpush
  simp only [State.enter, hpush, State.updStall, Stall.atVector, Stall.saves, hstatus]
  rfl

theorem State.enter_stopped (hpush : s.push (s.who k) ((s.stall k).getG 31) ((s.stall k).frame e s.time) = (s1, .error f)) :
    s.enter k e = if stDF (s.stall k).status then s1.thirdFault k e else s1.dfEntry k ((s.stall k).saves e) f.exc := by
  unfold Stall.frame at hpush
  simp only [State.enter, hpush, Stall.saves]

/-- The DOUBLE_FAULT that stands for the exception `orig`, whose entry `stop` stopped (07 R160; log entry 50). -/
def doubleFault (orig stop : Exc) : Exc :=
  { cause := cDOUBLE, subcode := stop.subcode, slot := orig.slot, taga := orig.cause, tagb := stop.cause, faddr := stop.faddr, fcap := stop.fcap,
    syl := orig.syl }

/-- The frame of a double-fault entry: the position saved by the entry it replaces. -/
def Entering.frame (en : Entering) (t : Stall) (stop : Exc) (time : Nat) : List Gran :=
  frameOf en.oldPcc en.oldStatus (doubleFault en.exc stop) t.lc en.oldRep t.predsNat en.oldG31 time

variable {en : Entering}

theorem State.dfEntry_pushed (hpush : s.push (s.who k) (s.stall k).dfstack (en.frame (s.stall k) e s.time) = (s1, .ok g31)) :
    s.dfEntry k en e = s1.setStall k ((s1.stall k).atVector g31 (entryStatus en.oldStatus 2 true) (s1.stall k).vbaseY cDOUBLE none (some en.exc)) := by
  unfold Entering.frame doubleFault at hpush
  simp only [State.dfEntry, hpush, State.updStall, Stall.atVector]

theorem State.dfEntry_stopped (hpush : s.push (s.who k) (s.stall k).dfstack (en.frame (s.stall k) e s.time) = (s1, .error f)) :
    s.dfEntry k en e = s1.stallReset k en.exc.info64 := by
  unfold Entering.frame doubleFault at hpush
  simp only [State.dfEntry, hpush]

end

/-! ### EXC_ENTRY, by what the stall has pending -/

section
variable {s s1 : State} {k : Nat} {e : Exc} (hmay : s.mayRun k = true) (hready : (s.stall k).entryReady = true)
  (hyield : (s.stall k).yielding = none)
include hmay hready hyield

theorem doExcEntry_exception (hexc : (s.stall k).exc = some e) (hentering : (s.stall k).entering = none) : doExcEntry k s = s.enter k e := by
  simp [doExcEntry, hmay, hready, hyield, hexc, hentering]

theorem doExcEntry_fault_in_entry {en : Entering} (hexc : (s.stall k).exc = some e) (hentering : (s.stall k).entering = some en) :
    doExcEntry k s = s.dfEntry k en e := by
  simp [doExcEntry, hmay, hready, hyield, hexc, hentering]

theorem doExcEntry_event (hexc : (s.stall k).exc = none) (hopen : s.eventsOpen k = true) (hevent : s.nextEvent k = some (e, s1)) :
    doExcEntry k s = ((s1.abandonFor k).updStall k (fun t => { t with exiting := false })).enter k e := by
  simp [doExcEntry, hmay, hready, hyield, hexc, hopen, hevent]

end

/-- Where the ROM alone runs, EXC_ENTRY is the entry itself. -/
theorem exec_excEntry_of_rom {s : State} {k : Nat} (hk : k < nStalls) (hruns : s.coreRuns = true) (hrom : s.patched = false) :
    exec (.excEntry k) s = .next (s.after (doExcEntry k s)) := by
  rw [exec_excEntry k s (Instr.absent_of_unit_lt rfl rfl hk) hruns]
  simp [excEntryMicro, hrom]

/-- Settles O27: a pushed frame leaves the stall at its vector, with the STATUS that the frame saved; a frame store that faults goes on to the
double-fault entry or, while DF is 1, to the third fault. -/
theorem exceptionEntryPushesItsFrame : Obligations.ExceptionEntryPushesItsFrame := by
  refine ⟨fun s hruns k hpresent => exec_excEntry k s hpresent hruns, fun s s1 k e hk hruns hmay hready hyield hrom => ⟨?pushed, ?stopped, ?event⟩⟩
  all_goals rw [exec_excEntry_of_rom hk hruns hrom]
  case pushed =>
    intro g31 hexc hentering hpush
    rw [doExcEntry_exception hmay hready hyield hexc hentering, State.enter_pushed hpush]
    exact ⟨_, rfl, Stall.getG_31_atVector .., fun n hn => Stall.getG_atVector _ _ _ _ _ _ _ hn, rfl,
      stPL_entryStatus _ _ (targetLevel_lt (stPL_lt _) _), stIE_entryStatus .., stRPA_entryStatus .., stLPA_entryStatus .., stCM_entryStatus ..,
      stDF_entryStatus .., rfl, rfl, rfl, rfl, rfl, rfl, rfl, rfl, rfl, rfl⟩
  case stopped =>
    intro f hexc hentering hpush
    rw [doExcEntry_exception hmay hready hyield hexc hentering, State.enter_stopped hpush]
    exact ⟨fun hdf => by rw [if_pos hdf], fun hdf => by rw [hdf]; rfl⟩
  case event =>
    intro hexc hopen hevent
    rw [doExcEntry_event hmay hready hyield hexc hopen hevent]

/-- Settles O28: an exception pending while another is being entered is the fault that starts the double-fault entry. The fields of the DOUBLE_FAULT
record and the exception reported are the readings of log entries 50 and 45. -/
theorem doubleFaultUsesDfstack : Obligations.DoubleFaultUsesDfstack := by
  intro s s1 k e en hk hruns hmay hready hyield hrom hexc hentering d fr
  rw [exec_excEntry_of_rom hk hruns hrom, doExcEntry_fault_in_entry hmay hready hyield hexc hentering]
  refine ⟨fun g31 hpush => ?_, fun f hpush => ?_, fun f hdf => ?_⟩
  · rw [State.dfEntry_pushed hpush]
    exact ⟨_, rfl, Stall.getG_31_atVector .., stPL_entryStatus _ _ (by decide), stDF_entryStatus .., rfl, rfl, rfl, rfl⟩
  · rw [State.dfEntry_stopped hpush]
  · rw [State.raiseFault, if_pos hdf, State.thirdFault]

/-! ### Device events and TIMER -/

/-- Where S63 of a core takes the device event `cause` of the source at gate slot `slot`. -/
theorem doDeviceEvent_lowest {s : State} {c cause slot : Nat} (hmay : s.mayRun (64 * c + 63) = true)
    (hready : (s.stall (64 * c + 63)).entryReady = true) (hyield : (s.stall (64 * c + 63)).yielding = none)
    (hopen : s.eventsOpen (64 * c + 63) = true) (hevent : (s.nextEvent (64 * c + 63)).isNone = true)
    (hlowest : lowestDev (s.core c).devPend = some (cause, slot)) :
    doDeviceEvent c s = ((s.abandonFor (64 * c + 63)).updCore c
      (fun x => { x with devPend := x.devPend.filter (fun e => e != (cause, slot) || s.devCause cause != 0) })).enter (64 * c + 63)
        { cause := cause, subcode := slot, async := true, faddr := w64 (s.devCause cause) } := by
  have hnone : (s.nextEvent (64 * c + 63)).isSome = false := by simpa using hevent
  simp [doDeviceEvent, Nat.mul_comm c 64, hmay, hready, hyield, hopen, hnone, hlowest]

/-- The time base has reached the non-zero TIMER of a stall's context, and the frame does not hold it. -/
def Stall.timerDue (t : Stall) (time : Nat) : Bool :=
  t.cid.isSome && t.timer != 0 && decide (t.timer.toNat ≤ time) && !maskBit t.inframe (32 + srTIMER)

theorem doTimer_due {s : State} {k : Nat} (h : (s.stall k).timerDue s.time = true) :
    doTimer k s = s.updStall k (fun t => { t with timp := true }) :=
  congrArg (s.setStall k) (if_pos h)

theorem doTimer_not_due {s : State} {k : Nat} (h : (s.stall k).timerDue s.time = false) : doTimer k s = s.updStall k (fun t => t) :=
  congrArg (s.setStall k) (if_neg (Bool.eq_false_iff.mp h))

theorem Stall.timerDue_eq_false {t : Stall} {time : Nat} (h : t.timer = 0 ∨ time < t.timer.toNat) : t.timerDue time = false := by
  rcases h with h | h
  · simp [Stall.timerDue, h]
  · simp [Stall.timerDue, Nat.not_le.mpr h]

/-- Settles O29: DEVICE_EVENT enters the lowest pending event (log entry 105), TIMER sets TIMP where it is reached; before its time it leaves the
state as it is (log entry 7). -/
theorem deviceEventsAndTimersArePending : Obligations.DeviceEventsAndTimersArePending := by
  refine ⟨fun s hruns => ⟨fun c h => exec_deviceEvent c s h hruns, fun k h => exec_timer k s h hruns⟩, fun s hruns => ⟨?device, ?reached, ?early⟩⟩
  case device =>
    intro c cause slot hc hmay hready hyield hopen hevent hlowest
    rw [exec_deviceEvent c s (Instr.absent_of_unit_lt rfl rfl hc) hruns, doDeviceEvent_lowest hmay hready hyield hopen hevent hlowest]
  case reached =>
    intro k hk hcid htimer hdue hreg
    rw [exec_timer k s (Instr.absent_of_unit_lt rfl rfl hk) hruns, doTimer_due (by simpa [Stall.timerDue, hcid, hdue, hreg] using htimer)]
  case early =>
    intro k hk h
    rw [exec_timer k s (Instr.absent_of_unit_lt rfl rfl hk) hruns, doTimer_not_due (Stall.timerDue_eq_false h)]

end Sys2Proof.Machine
end

section
/-!
The watch, its pins and the host port (O58; 07 R159; 16 R384; 17 R387, R411; 18 R412 to R424): a report's latch, the moor, and the events of the
host port.
-/

namespace Sys2Proof.Machine

/-! ### EVENT frames -/

/-- An EVENT frame enters the frames sent and the trace; TRACE_HEAD alone changes of the entries. -/
theorem State.sendEvent_eq (s : State) (code bit detail : Nat) : ∃ helmTx trace,
    s.sendEvent code bit detail = ({ s with helmTx := helmTx, trace := trace } : State).setEnt 0xA000 0x07 ((s.ent 0xA000 0x07 + 16) % 65536) := by
  unfold State.sendEvent State.traceRecord State.sendFrame
  split <;> exact ⟨_, _, rfl⟩

/-! ### What leaves the watch alone -/

/-- `t` has the memory, the stalls and the watch's entries of `s`. -/
structure State.SameWatch (s t : State) : Prop where
  mem : t.mem = s.mem
  stalls : t.stalls = s.stalls
  ent : ∀ j < 256, t.ent 0x6000 j = s.ent 0x6000 j

theorem State.SameWatch.refl (s : State) : s.SameWatch s := ⟨rfl, rfl, fun _ _ => rfl⟩

theorem State.SameWatch.trans {s t u : State} (h : s.SameWatch t) (h' : t.SameWatch u) : s.SameWatch u :=
  ⟨h'.mem.trans h.mem, h'.stalls.trans h.stalls, fun j hj => (h'.ent j hj).trans (h.ent j hj)⟩

theorem State.sameWatch_watchMask (s : State) (mask : Nat) : s.SameWatch { s with watchMask := mask } := ⟨rfl, rfl, fun _ _ => rfl⟩

theorem State.sameWatch_watchSettled (s : State) : s.SameWatch s.watchSettled := by
  unfold State.watchSettled
  split <;> exact ⟨rfl, rfl, fun _ _ => rfl⟩

/-! ### Reports -/

/-- One report that the watch samples alone. -/
theorem doWatchReport_one {s : State} {r : Report} (hbit : r.bit < 56) (hlines : s.errorLines = []) : doWatchReport (some r) s = s.latch r := by
  have hsame : ({ s with errorLines := [] } : State) = s := by rw [← hlines]
  simp [doWatchReport, hlines, insertReport, hbit, hsame]

/-- A report handled at level 0 is latched, counted and captured; beyond that the watch's mask and device events may change. -/
theorem State.latch_level_zero {s : State} {r : Report} (hlevel : s.level r = 0) :
    (((s.setEnt 0x6000 0x01 (Nat.lor (s.ent 0x6000 0x01) (2 ^ r.bit))).bump 0x6000 (0xC0 + r.bit) 32 1).capture r).SameWatch (s.latch r) := by
  simp only [State.latch, hlevel, ↓reduceIte]
  exact (State.sameWatch_watchMask _ _).trans (State.sameWatch_watchSettled _)

/-- The first report is captured while FE_SOURCE reads 0xFF. -/
theorem State.capture_first {s : State} {r : Report} (h : s.ent 0x6000 0x06 = 0xFF) : s.capture r =
    ((((s.setEnt 0x6000 0x06 r.bit).setEnt 0x6000 0x07 (if r.kind = .unit then 1 else 0)).setEnt 0x6000 0x08 (feAddr r)).setEnt 0x6000 0x09
      (feMaster r)).setEnt 0x6000 0x0A s.time := if_pos h

theorem State.capture_mem (s : State) (r : Report) : (s.capture r).mem = s.mem := by
  unfold State.capture
  split
  · iterate 5 rw [State.setEnt_mem]
  · rfl

theorem State.capture_stalls (s : State) (r : Report) : (s.capture r).stalls = s.stalls := by
  unfold State.capture
  split
  · iterate 5 rw [State.setEnt_stalls]
  · rfl

theorem State.ent_setEnt_sub (s : State) (i j j' v : Nat) : (s.setEnt i j v).ent i j' = if j' = j then v else s.ent i j' := by
  simp [State.ent_setEnt_key, ekey]

/-- What the first report leaves, handled at level 0: its bit and count, and the captured source and time. -/
theorem State.latch_first {s : State} {r : Report} (hbit : r.bit < 56) (hlevel : s.level r = 0) (hfirst : s.ent 0x6000 0x06 = 0xFF) :
    (s.latch r).ent 0x6000 0x01 = Nat.lor (s.ent 0x6000 0x01) (2 ^ r.bit) ∧ (s.latch r).ent 0x6000 0x06 = r.bit ∧
      (s.latch r).ent 0x6000 0x0A = s.time ∧
      (s.latch r).ent 0x6000 (0xC0 + r.bit) = min (2 ^ 32 - 1) (s.ent 0x6000 (0xC0 + r.bit) + 1) ∧ (s.latch r).stalls = s.stalls ∧
      (s.latch r).mem = s.mem := by
  have hcount : ∀ n < 0xC0, n ≠ 0xC0 + r.bit := fun n hn => by omega
  have hlatch := State.latch_level_zero hlevel
  obtain ⟨hmem, hstalls, hent⟩ := hlatch
  rw [State.capture_mem, bump_mem, State.setEnt_mem] at hmem
  rw [State.capture_stalls, bump_stalls, State.setEnt_stalls] at hstalls
  rw [State.capture_first (by simp [State.bump, State.ent_setEnt_sub, hcount, hfirst])] at hent
  refine ⟨?_, ?_, ?_, ?_, hstalls, hmem⟩ <;> rw [hent _ (by omega)]
  · simp [State.bump, State.ent_setEnt_sub, hcount]
  · simp [State.bump, State.ent_setEnt_sub]
  · simp [State.bump, State.ent_setEnt_sub]
  · simp [State.bump, State.ent_setEnt_sub, (hcount _ _).symm, satAdd]

/-! ### Mooring -/

theorem State.sameWatch_setEnt (s : State) {i : Nat} (hi : i ≠ 0x6000) {j : Nat} (hj : j < 256) (v : Nat) : s.SameWatch (s.setEnt i j v) :=
  ⟨rfl, rfl, fun n hn => State.ent_setEnt_other _ _ (by simp only [ekey]; omega)⟩

theorem State.sameWatch_setLink (s : State) (k : Nat) (x : Link) : s.SameWatch (s.setLink k x) := ⟨rfl, rfl, fun _ _ => rfl⟩

theorem State.sameWatch_setEnt_link (s : State) {k : Nat} (hk : k < nLinks) {j : Nat} (hj : j < 256) (v : Nat) :
    s.SameWatch (s.setEnt (lkIdx k) j v) :=
  s.sameWatch_setEnt (by have hk : k < 12 := hk; unfold lkIdx; omega) hj v

theorem State.sameWatch_sendDown (s : State) {k : Nat} (hk : k < nLinks) (reason : Nat) : s.SameWatch (s.sendDown k reason) := by
  unfold State.sendDown
  split
  · unfold State.transmit State.bump
    dsimp only
    exact (s.sameWatch_setLink k _).trans (State.sameWatch_setEnt_link _ hk (j := 0x16) (by decide) _)
  · exact .refl s

theorem State.sameWatch_quieten (s : State) (nodedown : Nat) : s.SameWatch (s.quieten nodedown) := by
  have hlinks : s.SameWatch ((upTo nLinks).foldl (fun s k =>
      if lkRuns (s.lkState k) then (s.sendDown k nodedown).setEnt (lkIdx k) 0x03 lsDOWN else s) s) := by
    refine List.foldlRecOn (motive := s.SameWatch) _ _ (.refl s) fun t ht k hmem => ht.trans ?_
    have hk : k < nLinks := mem_upTo.mp hmem
    split
    · exact (t.sameWatch_sendDown hk nodedown).trans (State.sameWatch_setEnt_link _ hk (by decide) _)
    · exact .refl t
  unfold State.quieten
  generalize List.foldl _ s (upTo nLinks) = t at hlinks ⊢
  exact hlinks.trans ⟨rfl, rfl, fun _ _ => rfl⟩

theorem State.moor_moored {s : State} (h : s.ent 0x6000 0x02 = 1) (c : Nat) : s.moor c = s := if_pos h

/-- `s` with the entries that a moor writes: that it is moored, by which source, and when. -/
def State.withMoorEntries (s : State) (source : Nat) : State := ((s.setEnt 0x6000 0x02 1).setEnt 0x6000 0x03 source).setEnt 0x6000 0x04 s.time

theorem State.moor_eq {s : State} (h : s.ent 0x6000 0x02 ≠ 1) (c : Nat) : s.moor c =
    ({ (s.withMoorEntries c).quieten 1 with
      host := { ((s.withMoorEntries c).quieten 1).host with errFatal := ((s.withMoorEntries c).quieten 1).host.link } } : State).sendEvent 0x0004
      (if c < 56 then c else Config.moorBit c) 0 := by
  unfold State.moor State.withMoorEntries
  exact if_neg h

/-- A moor writes its entries, lowers LANTERN and ends commits; nothing else that it does reaches the watch's entries, memory or a stall. -/
theorem State.moor_effect {s : State} (h : s.ent 0x6000 0x02 ≠ 1) (c : Nat) :
    (s.withMoorEntries c).SameWatch (s.moor c) ∧ (s.moor c).pins.lantern = false ∧ (s.moor c).commits = [] := by
  have hquiet := (s.withMoorEntries c).sameWatch_quieten 1
  have hlantern : ((s.withMoorEntries c).quieten 1).pins.lantern = false := rfl
  have hcommits : ((s.withMoorEntries c).quieten 1).commits = [] := rfl
  rw [State.moor_eq h]
  generalize (s.withMoorEntries c).quieten 1 = q at hquiet hlantern hcommits ⊢
  obtain ⟨helmTx, trace, hsend⟩ := ({ q with host := { q.host with errFatal := q.host.link } } : State).sendEvent_eq 0x0004
    (if c < 56 then c else Config.moorBit c) 0
  rw [hsend]
  refine ⟨(hquiet.trans ?_).trans (State.sameWatch_setEnt _ (by decide) (by decide) _), hlantern, hcommits⟩
  exact ⟨rfl, rfl, fun _ _ => rfl⟩

/-! ### Writes that are taken -/

/-- A write that nothing stands against is applied (17 R387). -/
theorem State.dictWrite_of_writeTakes {s : State} {p : Path} {idx sub n : Nat} (h : s.writeTakes p idx sub n = true) :
    s.dictWrite p idx sub (.num n) = s.applyEntry p idx sub n := by
  unfold State.writeTakes at h
  cases hinfo : entryInfo idx sub with
  | none => simp [hinfo] at h
  | some ta =>
    obtain ⟨t, a⟩ := ta
    simp only [hinfo, Bool.and_eq_true, bne_iff_ne, Bool.not_eq_true', ne_eq] at h
    obtain ⟨⟨⟨⟨⟨hport, hworks⟩, hserved⟩, hreaches⟩, hwrites⟩, ⟨⟨⟨⟨⟨⟨⟨⟨⟨hdom, hro⟩, htal⟩, hmoored⟩, htype⟩, hrange⟩, hcommand⟩, hlocked⟩, hcommit⟩, hdiscard⟩,
      hdiv⟩ := h
    have hserves : ¬(a = .ro ∨ s.tallyBarred p a = true ∨ (s.ent 0x6000 0x02 = 1 ∧ (!mooredWrites idx sub) = true)) := by
      simpa [hro, State.tallyBarred, htal] using hmoored
    have hfree : ¬(s.lockedEntry idx sub n || decide ((a = .rws ∨ (sub = 0xFF ∧ a = .wo)) ∧ s.committing idx = true) ||
        decide (idx = 0xF000 ∧ sub = 0x06 ∧ s.committing n = true)) = true := by
      simpa [hlocked, and_assoc] using And.intro hcommit hdiscard
    have hslow : ¬(idx = 0x2000 ∧ sub = 0x02 ∧ n < lowestDiv s.ceiling) := by
      simpa [and_assoc] using hdiv
    have hset : s.setEntry p idx sub n = s.applyEntry p idx sub n := by
      simp only [State.setEntry, hinfo, if_neg hdom, if_neg hserves, htype, hrange, hcommand, if_neg hfree, htal, false_and, if_neg hslow]
      rfl
    simp [State.dictWrite, State.dictSet, hport, hworks, hserved, hreaches, hwrites, hinfo, hset]

theorem State.applyEntry_doorbell (s : State) (p : Path) (v : Nat) : (s.applyEntry p 0x1000 0x19 v).1 = s.doorbell v := rfl

theorem doHostDoorbell_taken {s : State} {v : Word64} (h : s.writeTakes .pf 0x1000 0x19 v.toNat = true) : doHostDoorbell v s = s.doorbell v.toNat := by
  rw [doHostDoorbell, State.dictWrite_of_writeTakes h, State.applyEntry_doorbell]

/-! ### The host port -/

/-- The end of the host's link changes the host port, entries and device events alone. -/
theorem State.hostDown_eq (s : State) : ∃ cores dict host, s.hostDown = { s with cores := cores, dict := dict, host := host } := by
  unfold State.hostDown
  split <;> exact ⟨_, _, _, rfl⟩

theorem doHostLinkDown_up {s : State} (h : s.host.link = true) :
    doHostLinkDown s = (({ s with host := { s.host with link := false } } : State).setEnt 0x1000 0x18 (Nat.lor (s.ent 0x1000 0x18) 2)).signalDev 23 42 := by
  rw [doHostLinkDown, State.hostDown, if_pos h]
  rfl

theorem doHostLinkUp_down {s : State} (hlink : s.host.link = false) (hperst : s.pins.perstN = true) (hiso : maskBit s.isoIocs 0 = false) :
    doHostLinkUp s = ({ s with host := { s.host with link := true } } : State).hostEvent 2 := by
  simp [doHostLinkUp, hlink, hperst, hiso]

theorem doFunctionLevelReset_pf {s : State} (h : s.host.link = true) : doFunctionLevelReset 0 s = s.hostEvent 3 := by
  simp [doFunctionLevelReset, h]

theorem doFunctionLevelReset_vf {s : State} (h : s.host.link = true) {v : Nat} (hv : v ≠ 0) :
    doFunctionLevelReset v s = (s.setEnt 0x1000 0x1A v).hostEvent 4 := by
  simp [doFunctionLevelReset, h, hv]

/-- PE_PERST_N low takes the link down and resets the host port; memory and stalls keep their values. -/
theorem doPePerstN_low (s : State) : (doPePerstN false s).host = {} ∧ (doPePerstN false s).pins.perstN = false ∧
    (doPePerstN false s).mem = s.mem ∧ (doPePerstN false s).stalls = s.stalls := by
  obtain ⟨cores, dict, host, hdown⟩ := ({ s with pins := { s.pins with perstN := false } } : State).hostDown_eq
  have hlow : doPePerstN false s = { ({ s with pins := { s.pins with perstN := false } } : State).hostDown with host := {} } := rfl
  rw [hlow, hdown]
  exact ⟨rfl, rfl, rfl, rfl⟩

/-! ### The pins -/

theorem doMoorN_long {s : State} (hruns : s.inReset = false) {ns : Nat} (h : 100 ≤ ns) :
    doMoorN false ns s = ({ s with pins := { s.pins with moorN := false } } : State).moor 0x40 := by
  simp [doMoorN, hruns, h, show ¬ns < 20 by omega]

theorem doMoorN_short {s : State} {ns : Nat} (h : ns < 20) : doMoorN false ns s = { s with pins := { s.pins with moorN := false } } := by
  simp [doMoorN, h]

theorem doLanternToggle_booted {s : State} (hruns : s.inReset = false) (hboot : s.bootStep ≠ 0) (hmoored : s.ent 0x6000 0x02 ≠ 1) :
    doLanternToggle s = { s with pins := { s.pins with lantern := !s.pins.lantern } } := by
  simp [doLanternToggle, hruns, hboot, hmoored]

/-- Settles O58: each command is its definition's, which the lemmas above say of the states that the statement names. -/
theorem watchAndHostCommandsTakeEffect : Obligations.WatchAndHostCommandsTakeEffect := by
  refine ⟨fun s hruns => ⟨fun hw => exec_watchReport hw s hruns, exec_watchDisagreement s hruns, exec_lanternToggle s hruns,
    exec_gateFenceComplete s hruns, fun v => exec_hostDoorbell v s hruns, exec_hostLinkDown s hruns, exec_hostLinkUp s hruns,
    fun vf h => exec_functionLevelReset vf s h hruns⟩, fun s => ⟨fun level ns => exec_moorN level ns s, fun level => exec_pePerstN level s⟩,
    fun s hruns => ?_⟩
  have hout : s.inReset = false := by simpa [State.helmRuns] using hruns
  refine ⟨?first, ?report, ?moors, fun c h => State.moor_moored h c, exec_watchDisagreement s hruns, ?moorN, ?ignored, ?lantern,
    exec_gateFenceComplete s hruns, ?doorbell, ?down, ?up, ?functions, ⟨_, exec_pePerstN false s, doPePerstN_low s⟩⟩
  case first =>
    intro r hbit hlines hlevel hfirst
    refine ⟨s.latch r, ?_, State.latch_first hbit hlevel hfirst⟩
    rw [exec_watchReport _ s hruns, doWatchReport_one hbit hlines]
  case report =>
    intro r hbit hlines
    rw [exec_watchReport _ s hruns, doWatchReport_one hbit hlines]
  case moors =>
    intro c h
    obtain ⟨⟨hmem, hstalls, hent⟩, hlantern, hcommits⟩ := State.moor_effect h c
    refine ⟨?_, ?_, ?_, hlantern, hcommits, hmem, hstalls⟩ <;> rw [hent _ (by decide)] <;> simp [State.withMoorEntries, State.ent_setEnt_key]
  case moorN =>
    intro ns h
    rw [exec_moorN, doMoorN_long hout h]
  case ignored =>
    intro ns h
    rw [exec_moorN, doMoorN_short h]
  case lantern =>
    intro hboot hmoored
    rw [exec_lanternToggle s hruns, doLanternToggle_booted hout hboot hmoored]
  case doorbell =>
    intro v h
    rw [exec_hostDoorbell v s hruns, doHostDoorbell_taken h, State.doorbell, State.ent_setEnt_other s _ (by decide)]
  case down =>
    intro h
    refine ⟨_, exec_hostLinkDown s hruns, ?_⟩
    rw [doHostLinkDown_up h]
    exact ⟨rfl, State.ent_setEnt _ _ _ _, rfl⟩
  case up =>
    intro hlink hperst hiso
    refine ⟨_, exec_hostLinkUp s hruns, ?_⟩
    rw [doHostLinkUp_down hlink hperst hiso]
    exact ⟨rfl, State.ent_setEnt _ _ _ _, rfl⟩
  case functions =>
    intro h
    refine ⟨?_, fun v hlo hhi => ?_⟩
    · rw [exec_functionLevelReset 0 s rfl hruns, doFunctionLevelReset_pf h]
    · rw [exec_functionLevelReset v s (Instr.absent_of_unit_lt rfl rfl hhi) hruns, doFunctionLevelReset_vf h (by omega)]

end Sys2Proof.Machine
end

section
/-!
Results (O30; 08 R169, R177, R178, R180): where the oldest fixed result of a register goes, by where its context is.
-/

namespace Sys2Proof

theorem listFind_passes {α : Type} {p : α → Bool} {xs : List α} {i : Nat} {x : α} (hfind : listFind p xs = some i)
    (hat : listAt xs i = some x) : p x = true := by
  induction xs generalizing i with
  | nil => simp [listFind] at hfind
  | cons y ys ih =>
    by_cases hy : p y = true
    · simp only [listFind, hy, if_true, Option.some.injEq] at hfind
      subst hfind
      simpa [listAt, ← Option.some.inj hat] using hy
    · simp only [listFind, hy, Bool.false_eq_true, if_false, Option.map_eq_some_iff] at hfind
      obtain ⟨j, hj, rfl⟩ := hfind
      exact ih hj hat

/-- A mask has no bit at its width or beyond. -/
theorem lt_of_maskBit {w : Nat} {m : BitVec w} {i : Nat} (h : maskBit m i = true) : i < w :=
  BitVec.lt_of_getLsbD h

end Sys2Proof

namespace Sys2Proof.Machine

/-! ### One stall changed -/

@[simp] theorem State.stall_updStall (s : State) (k : Nat) (f : Stall → Stall) : (s.updStall k f).stall k = f (s.stall k) :=
  s.stall_setStall k _

theorem State.stall_updStall_other (s : State) {j k : Nat} (f : Stall → Stall) (h : j ≠ k) : (s.updStall k f).stall j = s.stall j :=
  s.stall_setStall_other _ h

@[simp] theorem Stall.setG_refused (t : Stall) (n : Nat) (v : Gran) : (t.setG n v).refused = t.refused := by
  unfold Stall.setG
  split <;> rfl

/-! ### Delivery, by where the context is -/

section
variable {s : State} {cid reg k : Nat} {v : Gran}

theorem State.deliverReg_stale {refused : Option Exc} (hliving : s.living cid = false) : s.deliverReg cid reg v refused = s := by
  simp [State.deliverReg, hliving]

/-- A pending general register is never the byte code's own. -/
theorem ne_vzReg_of_pend {m : BitVec 32} (hpend : maskBit m reg = true) : reg ≠ vzReg :=
  Nat.ne_of_lt (lt_of_maskBit hpend)

theorem State.deliverReg_value (hliving : s.living cid = true) (hstall : s.liveStall cid = some k)
    (hpend : maskBit (s.stall k).pend reg = true) :
    s.deliverReg cid reg v none = s.updStall k (fun t => { (t.setG reg v) with pend := maskClr t.pend reg }) := by
  simp [State.deliverReg, hliving, hstall, hpend, ne_vzReg_of_pend hpend]

theorem State.deliverReg_refusal {e : Exc} (hcause : e.cause ≠ cFPTRAP) (hliving : s.living cid = true) (hstall : s.liveStall cid = some k)
    (hpend : maskBit (s.stall k).pend reg = true) :
    s.deliverReg cid reg v (some e) = s.updStall k (fun t =>
      { (t.setG reg ({ e with info := reg } : Exc).refusal) with pend := maskClr t.pend reg, refused := maskSet t.refused reg }) := by
  simp [State.deliverReg, hcause, hliving, hstall, hpend, ne_vzReg_of_pend hpend]

theorem State.deliverReg_byteCode {key : Nat} (hliving : s.living cid = true) (hstall : s.liveStall cid = some k)
    (hwait : (s.stall k).vzWait = some key) :
    s.deliverReg cid vzReg v none = s.updStall k (fun t => { t with vzWait := none, vzGot := t.vzGot ++ [(key, v)] }) := by
  simp [State.deliverReg, hliving, hstall, hwait]

/-- The hot slot of a parked context takes the value in its record; the frame is left alone (08 R177). -/
theorem State.deliverReg_hot (hliving : s.living cid = true) (hstall : s.liveStall cid = none)
    (hpend : maskBit (s.record (cidRecord cid)).pend reg = true)
    (hhot : (s.record (cidRecord cid)).hots.any (fun h => h.1 == reg) = true) :
    s.deliverReg cid reg v none = (s.updRecord (cidRecord cid) (fun r =>
      { r with pend := maskClr r.pend reg, block := maskClr r.block reg, gpois := maskClr r.gpois reg,
               hots := r.hots.map (fun (h : Nat × Gran) => if h.1 = reg then (reg, v) else h) })).wakeRecord (cidRecord cid) := by
  have hreg : reg < 32 := lt_of_maskBit hpend
  simp only [State.deliverReg, hliving, hstall, hpend, hreg, hhot, decide_true, Bool.and_true, Bool.not_true, Bool.false_eq_true, if_false, if_true,
    Option.isSome_none]
  rfl

end

/-! ### The command -/

theorem doResultDelivery_of_found {s : State} {cid reg i : Nat} {o : LocalOp}
    (hfind : listFind (fun o : LocalOp => o.cid == cid && o.reg == reg && o.poll.isNone) s.ops = some i) (hop : listAt s.ops i = some o) :
    doResultDelivery cid reg s = ({ s with ops := listDel s.ops i } : State).deliverReg cid reg (o.value.getD Gran.zero) o.refusal := by
  simp only [doResultDelivery, hfind, hop]

/-- Settles O30: the result found leaves the table, and goes to its register by where its context is. -/
theorem resultsReachTheirRegister : Obligations.ResultsReachTheirRegister := by
  refine ⟨fun s hruns cid reg h => exec_resultDelivery cid reg s h hruns, fun s cid reg i k o v hreg hruns hfind hop hvalue => ?_⟩
  have hexec : exec (.resultDelivery cid reg) s =
      .next (s.after (({ s with ops := listDel s.ops i } : State).deliverReg cid reg v o.refusal)) := by
    rw [exec_resultDelivery cid reg s (Instr.absent_of_unit_lt rfl rfl hreg) hruns, doResultDelivery_of_found hfind hop, hvalue, Option.getD_some]
  refine ⟨?value, ?refusal, ?hot, ?byteCode, ?stale⟩
  case value =>
    intro hrefusal hliving hstall hpend
    rw [hexec, hrefusal, State.deliverReg_value (s := { s with ops := listDel s.ops i }) hliving hstall hpend]
  case refusal =>
    intro e hrefusal hcause hliving hstall hpend
    rw [hexec, hrefusal, State.deliverReg_refusal (s := { s with ops := listDel s.ops i }) hcause hliving hstall hpend]
  case hot =>
    intro hrefusal hliving hstall hpend hhot
    rw [hexec, hrefusal, State.deliverReg_hot (s := { s with ops := listDel s.ops i }) hliving hstall hpend hhot]
  case byteCode =>
    intro key hrefusal hliving hstall hwait hvz
    obtain rfl : reg = vzReg := by
      have hpasses := listFind_passes hfind hop
      simp only [Bool.and_eq_true, beq_iff_eq] at hpasses
      obtain ⟨⟨-, hop_reg⟩, -⟩ := hpasses
      exact hop_reg.symm.trans hvz
    rw [hexec, hrefusal, State.deliverReg_byteCode (s := { s with ops := listDel s.ops i }) hliving hstall hwait]
  case stale =>
    intro hliving
    rw [hexec, State.deliverReg_stale (s := { s with ops := listDel s.ops i }) hliving]

end Sys2Proof.Machine
end

section
/-!
Parking (O32; 08 R173 to R176, R183, R191): which stall is cut, what the cut writes where nothing has to be spilled or reloaded, and how a park
completes.
-/

namespace Sys2Proof

@[simp] theorem maskBit_zero (w n : Nat) : maskBit (0#w) n = false := BitVec.getLsbD_zero

end Sys2Proof

namespace Sys2Proof.Machine

/-- The ROM alone runs every routine to its end (09 R205). -/
theorem State.routineRuns_of_rom {s : State} (hrom : s.patched = false) (h k row : Nat) : s.routineRuns h k row = (s, true) := by
  simp [State.routineRuns, hrom]

theorem State.cidOf_of_isSome {s : State} {k : Nat} (h : (s.stall k).cid.isSome = true) : (s.stall k).cid = some (s.cidOf k) := by
  obtain ⟨cid, hcid⟩ := Option.isSome_iff_exists.mp h
  simp [State.cidOf, hcid]

@[simp] theorem State.record_updStall (s : State) (k : Nat) (f : Stall → Stall) (rn : Nat) : (s.updStall k f).record rn = s.record rn := rfl

/-! ### Which stall is cut -/

section
variable {s : State} {k : Nat} (hmay : s.mayPark k = true)
include hmay

theorem doParkCut_of_yield {w : Nat} (hyield : (s.stall k).yielding = some w) : doParkCut k s = s.park k w := by
  simp [doParkCut, hmay, hyield]

theorem doParkCut_of_block (hyield : (s.stall k).yielding = none)
    (hblock : ((s.nextRegs k).2.filter (maskBit (s.stall k).pend)).isEmpty = false) (hinframe : s.nextInframe k = false)
    (hevent : s.eventFirst k = false) :
    doParkCut k s = s.park k (s.blockKind (s.cidOf k) ((s.nextRegs k).2.filter (maskBit (s.stall k).pend))) := by
  simp only [doParkCut, hmay, hyield, hblock, hinframe, hevent, Bool.not_true, Bool.or_self, Bool.false_eq_true, if_false]

theorem doPreemption_of_slice (hyield : (s.stall k).yielding = none) (hrep : (s.stall k).repFirst = false)
    (hslice : s.ent (berthIdx (stBerth (s.stall k).status)) 0x09 ≠ 0) (hnext : (s.nextBerth (shedOf k) (some k)).isSome = true) :
    doPreemption k s = s.park k (s.blockKind (s.cidOf k) ((s.nextRegs k).2.filter (maskBit (s.stall k).pend))) := by
  have hsome : (s.nextBerth (shedOf k) (some k)).isNone = false := by simpa [Option.isSome_iff_ne_none] using hnext
  simp only [doPreemption, hmay, hyield, hrep, hsome, beq_eq_false_iff_ne.mpr hslice, Bool.not_true, Option.isSome_none, Bool.or_self,
    Bool.false_eq_true, if_false]

end

/-! ### What the cut writes -/

/-- A register that the frame does not hold has nothing to reload. -/
theorem State.reload_of_not_inframe {s : State} {k reg : Nat} (h : maskBit (s.stall k).inframe reg = false) : s.reload k reg = s := by
  simp [State.reload, h]

theorem State.reload_hots_of_not_inframe {s : State} {k : Nat} {hot : List Nat} (h : ∀ n ∈ hot, maskBit (s.stall k).inframe n = false) :
    hot.foldl (fun s n => s.reload k n) s = s :=
  List.foldlRecOn (motive := (· = s)) hot _ rfl fun t ht n hn => by rw [ht, State.reload_of_not_inframe (h n hn)]

/-- The record of a park cut (08 R175). -/
def State.cutRecord (s : State) (k wcond : Nat) (hot block : List Nat) : Record :=
  let t := s.stall k
  { s.record (cidRecord (s.cidOf k)) with
    pcc := t.pcc, status := t.status, wcond := wcond, lsep := t.late.isSome, timp := t.timp, bevp := (s.berthEventFor (s.cidOf k)).isSome,
    block := block.foldl maskSet 0, refused := t.refused, preds := t.preds, pend := t.pend,
    hots := hot.map (fun n => (n, if maskBit t.pend n then Gran.zero else t.getG n)), timer := t.timer, holdAt := t.holdAt,
    repFirst := t.repFirst, gpois := t.gpois }

section
variable {s : State} {k : Nat} (w : Nat) (hdirty : (s.stall k).dirty = 0) (hrep : stRPA (s.stall k).status = false) (hlate : (s.stall k).late = none)
include hdirty hrep hlate

/-- Where no register is dirty, no repeat runs and no store error waits, the cut spills nothing to the frame. -/
theorem State.parkAt_clean (hot block : List Nat) : s.parkAt k w hot block =
    (s.setRecord (cidRecord (s.cidOf k)) (s.cutRecord k w hot block)).updStall k (fun t => { t with phase := .parking, yielding := none }) := by
  simp [State.parkAt, State.cutRecord, hdirty, hrep, hlate, State.framePuts]

theorem State.park_clean (hrom : s.patched = false) (hfree : s.stableFree (shedOf k) = true)
    (hhot : ∀ n ∈ takeDistinct 4 (s.nextRegs k).1, maskBit (s.stall k).inframe n = false) (hcid : (s.stall k).cid.isSome = true) :
    ∃ hot block, s.park k w = (s.setRecord (cidRecord (s.cidOf k)) (s.cutRecord k w hot block)).updStall k
      (fun t => { t with phase := .parking, yielding := none }) := by
  refine ⟨takeDistinct 4 (s.nextRegs k).1, (takeDistinct 32 (s.nextRegs k).2).filter (maskBit (s.stall k).pend), ?_⟩
  rw [← State.parkAt_clean w hdirty hrep hlate]
  simp only [State.park, hfree, State.routineRuns_of_rom hrom, State.reload_hots_of_not_inframe hhot, State.cidOf_of_isSome hcid, Bool.not_true,
    bne_self_eq_false, Bool.false_eq_true, if_false]

end

/-! ### A park that completes -/

/-- The context of stall `k` is PARKED, or READY where it may run already (08 R176, R183). -/
def State.parkContext (s : State) (k : Nat) : State :=
  (s.updRecord (cidRecord (s.cidOf k)) (fun r => { r with rstate := .parked })).wakeRecord (cidRecord (s.cidOf k))

theorem State.rstate_parkContext (s : State) (k : Nat) : ((s.parkContext k).record (cidRecord (s.cidOf k))).rstate =
    if ({ s.record (cidRecord (s.cidOf k)) with rstate := .parked } : Record).isReady s.time = true then .ready else .parked := by
  rw [State.parkContext, State.record_wakeRecord]
  by_cases hready : ({ s.record (cidRecord (s.cidOf k)) with rstate := .parked } : Record).isReady s.time = true <;>
    simp [State.updRecord, hready]

@[simp] theorem State.stall_parkContext (s : State) (k j : Nat) : (s.parkContext k).stall j = s.stall j := by
  simp [State.parkContext, State.stall]

@[simp] theorem State.parkContext_mem (s : State) (k : Nat) : (s.parkContext k).mem = s.mem := by
  obtain ⟨records, sheds, heq⟩ := State.wakeRecord_eq (s.updRecord (cidRecord (s.cidOf k)) (fun r => { r with rstate := .parked }))
    (cidRecord (s.cidOf k))
  rw [State.parkContext, heq]
  rfl

theorem doParkComplete_of_parking {s : State} {k : Nat} (hphase : (s.stall k).phase = .parking) :
    doParkComplete k s = (s.parkContext k).updStall k Stall.vacate := by
  simp [doParkComplete, hphase, State.parkContext, State.updRecord]

/-- Settles O32: a cut is the park of its stall; with nothing to spill or reload it writes the record and marks the stall; a park that completes
is the wake of its record, then a vacant stall. -/
theorem parksFreeTheirStall : Obligations.ParksFreeTheirStall := by
  refine ⟨fun s hruns => ⟨fun k h => exec_parkCut k s h hruns, fun k h => exec_parkComplete k s h hruns, fun k h => exec_preemption k s h hruns⟩,
    fun s k hk hruns => ⟨?yields, ?blocked, ?slice, ?record, ?completes⟩⟩
  case yields =>
    intro w hmay hyield
    rw [exec_parkCut k s (Instr.absent_of_unit_lt rfl rfl hk) hruns, doParkCut_of_yield hmay hyield]
  case blocked =>
    intro hmay hyield hblock hinframe hevent
    rw [exec_parkCut k s (Instr.absent_of_unit_lt rfl rfl hk) hruns, doParkCut_of_block hmay hyield hblock hinframe hevent]
  case slice =>
    intro hmay hyield hrep hslice hnext
    rw [exec_preemption k s (Instr.absent_of_unit_lt rfl rfl hk) hruns, doPreemption_of_slice hmay hyield hrep hslice hnext]
  case record =>
    intro w hrom hfree hhot hdirty hrep hlate hcid
    obtain ⟨hot, block, hpark⟩ := State.park_clean w hdirty hrep hlate hrom hfree hhot hcid
    rw [hpark]
    simp [State.updStall, State.cutRecord]
  case completes =>
    intro hphase
    refine ⟨_, exec_parkComplete k s (Instr.absent_of_unit_lt rfl rfl hk) hruns, ?_⟩
    rw [doParkComplete_of_parking hphase, State.stall_updStall, State.record_updStall, State.rstate_parkContext]
    refine ⟨rfl, rfl, (ite_eq_or_eq _ _ _).symm, by simp, fun j hj => ?_, s.parkContext_mem k⟩
    rw [State.stall_updStall_other _ _ hj, State.stall_parkContext]

end Sys2Proof.Machine
end

section
/-!
Contexts that stalls take (O33; 08 R184, R185, R187, R188): the assignment of a free stall, reloads from the frame, and the float-state switch.
-/

namespace Sys2Proof.Machine

/-! ### Assignment -/

/-- Where the ROM alone runs, the lowest free stall unparks the head READY record of the next berth. -/
theorem doStallAssign_takes {s : State} {k b rn : Nat} (hstall : s.freeStallFrom 1024 (shedOf k * 1024) = some k)
    (hfree : s.stableFree (shedOf k) = true) (hrom : s.patched = false) (hberth : s.nextBerth (shedOf k) none = some b)
    (hhead : (s.shed (shedOf k)).ready.find? (fun e => e.1 == b) = some (b, rn)) :
    doStallAssign k s = (s.updShed (shedOf k) (fun h =>
      { h with rrBerth := b, ready := h.ready.filter (fun e => e.2 != rn) })).unpark k rn := by
  simp [doStallAssign, hstall, hfree, State.routineRuns_of_rom hrom, hberth, hhead]

/-! ### Reloads -/

section
variable {s s1 : State} {k reg o : Nat} {hi : Bool} (hruns : (s.stall k).runs = true) (hinframe : maskBit (s.stall k).inframe reg = true)
  (hslot : (if reg < 32 then some (16 * reg, false) else srSlot (reg - 32)) = some (o, hi))
include hruns hinframe hslot

/-- A slot of defined tags that was not parked poisoned reaches its register, rebased. -/
theorem State.reload_of_slot {pa : Nat} {m : MGran} (hframe : s.frameAt (shedOf k) (s.cidOf k) o = (s1, .ok (pa, m)))
    (hlo : tagDefined m.g.lo.tag = true) (hhi : tagDefined m.g.hi.tag = true) (hclean : reg < 32 → maskBit (s.stall k).gpois reg = false) :
    s.reload k reg = (s1.rebased (s.berthOf (s.cidOf k)) (pairSlot m.g)).1.updStall k (fun t =>
      { (if reg < 32 then { t with g := SMap.set (fun _ => Gran.zero) t.g reg (s1.rebased (s.berthOf (s.cidOf k)) (pairSlot m.g)).2 }
         else t.loadSR (reg - 32) (s1.rebased (s.berthOf (s.cidOf k)) (pairSlot m.g)).2 hi) with
        inframe := maskClr t.inframe reg }) := by
  have hrefused : (decide (reg < 32) && maskBit (s.stall k).gpois reg) = false := by
    rw [Bool.and_eq_false_imp]
    exact fun hreg => hclean (of_decide_eq_true hreg)
  simp only [State.reload, hruns, hinframe, hslot, hframe, hlo, hhi, hrefused, Bool.not_true, Bool.or_self, Bool.false_eq_true, if_false]

/-- A special register whose slot cannot be used takes its context with it (08 R187). -/
theorem State.reload_special_fault {e : Exc} (hreg : 32 ≤ reg) (hframe : s.frameAt (shedOf k) (s.cidOf k) o = (s1, .error e)) :
    s.reload k reg = s1.stallReset k e.info64 := by
  have hspecial : decide (reg < 32) = false := decide_eq_false (by omega)
  simp only [State.reload, hruns, hinframe, hslot, hframe, hspecial, Bool.not_true, Bool.or_self, Bool.false_and, Bool.false_eq_true, if_false]

end

/-! ### The commands -/

theorem absent_frameReload {k reg : Nat} (hk : k < nStalls) (hreg : reg < 56) : (Instr.frameReload k reg).absent = none := by
  have hstall : UnitKind.stall.has k = true := (UnitKind.has_iff _ _).mpr ⟨Nat.zero_le k, hk⟩
  have hregister : UnitKind.register.has reg = true := (UnitKind.has_iff _ _).mpr ⟨Nat.zero_le reg, hreg⟩
  have hunits : (Instr.frameReload k reg).units = [(.stall, k), (.register, reg)] := rfl
  simp [Instr.absent, hunits, hstall, hregister]

theorem floatSwitchWith_needed {s : State} {k : Nat} (hruns : (s.stall k).runs = true) (hneeds : s.needsFloat ctl k = true) :
    floatSwitchWith ctl k s = s.floatSwitch k := by
  simp [floatSwitchWith, hruns, hneeds]

/-- Settles O33: the record found is unparked, the slot found is loaded or its fault resets the stall, and the switch runs where it is needed. -/
theorem stallsTakeContexts : Obligations.StallsTakeContexts := by
  refine ⟨fun s hruns => ⟨fun k h => exec_stallAssign k s h hruns, fun k reg h => exec_frameReload k reg s h hruns,
    fun k h => exec_floatStateSwitch k s h hruns⟩, fun s k hk hruns => ⟨?assigns, ?reloads, ?faults, ?switches⟩⟩
  case assigns =>
    intro b rn hstall hfree hrom hberth hhead
    rw [exec_stallAssign k s (Instr.absent_of_unit_lt rfl rfl hk) hruns, doStallAssign_takes hstall hfree hrom hberth hhead]
  case reloads =>
    rintro reg o hi s1 pa m x hreg hstall hinframe hslot hframe hlo hhi hclean rfl
    rw [exec_frameReload k reg s (absent_frameReload hk hreg) hruns, doFrameReload,
      State.reload_of_slot hstall hinframe hslot hframe hlo hhi hclean]
  case faults =>
    rintro reg s1 e hspecial hreg hstall hinframe ⟨o, hi, hslot, hframe⟩
    have hoffset : (if reg < 32 then some (16 * reg, false) else srSlot (reg - 32)) = some (o, hi) := by
      rw [if_neg (by omega), hslot]
    rw [exec_frameReload k reg s (absent_frameReload hk hreg) hruns, doFrameReload,
      State.reload_special_fault hstall hinframe hoffset hspecial hframe]
  case switches =>
    intro hstall hneeds
    rw [exec_floatStateSwitch k s (Instr.absent_of_unit_lt rfl rfl hk) hruns, floatSwitchWith_needed hstall hneeds]

end Sys2Proof.Machine
end

section
/-!
The stall window (O34; 08 R169, R195 to R197): HALT, START, KILL, and the slots that an access names.
-/

namespace Sys2Proof.Machine

/-! ### A routine that is abandoned -/

@[simp] theorem State.dropVz_cores (s : State) (k : Nat) : (s.dropVz k).cores = s.cores := by
  unfold State.dropVz
  split <;> rfl

@[simp] theorem State.dropVz_mem (s : State) (k : Nat) : (s.dropVz k).mem = s.mem := by
  unfold State.dropVz
  split <;> rfl

theorem State.stall_dropVz_other (s : State) {j k : Nat} (h : j ≠ k) : (s.dropVz k).stall j = s.stall j := by
  unfold State.dropVz
  split
  · rfl
  · exact s.stall_updStall_other (fun t => { t with vzWait := none, vzGot := [] }) h

theorem State.routine_of_cores_eq {s t : State} (h : t.cores = s.cores) (k : Nat) : t.routine k = s.routine k := by
  simp [State.routine, State.core, h]

@[simp] theorem State.routine_dropRoutine (s : State) (k : Nat) : (s.dropRoutine k).routine k = none := by
  simp only [State.dropRoutine, State.routine, State.updCore, State.core_setCore]
  split
  next r hfirst =>
    have hne : r.stall ≠ k := by simpa using (Option.filter_eq_some_iff.mp hfirst).2
    simp [hne]
  next => simp

theorem State.routine_abandon (s : State) (k : Nat) : (s.abandon k).routine k = none := by
  rw [State.abandon, State.routine_of_cores_eq (State.dropVz_cores _ k), State.routine_dropRoutine]

theorem State.stall_abandon_other (s : State) {j k : Nat} (h : j ≠ k) : (s.abandon k).stall j = s.stall j :=
  (s.dropRoutine k).stall_dropVz_other h

@[simp] theorem State.abandon_mem (s : State) (k : Nat) : (s.abandon k).mem = s.mem :=
  (s.dropRoutine k).dropVz_mem k

/-! ### HALT, START and KILL -/

theorem State.setHalt_on (s : State) (k : Nat) : s.setHalt k true = (s.abandon k).updStall k (fun t => { t with halt := true }) := rfl

theorem doHalt_free {s : State} {k : Nat} (h : s.winBusy k = false) : doHalt k s = s.setHalt k true := by
  simp [doHalt, h]

theorem doHalt_busy {s : State} {k : Nat} (h : s.winBusy k = true) : doHalt k s = s := by
  simp [doHalt, h]

theorem doKill_resident {s : State} {k : Nat} (h : s.winBusy k = false) (hcid : (s.stall k).cid.isSome = true) :
    doKill k s = (s.dropRoutine k).stallReset k (BitVec.allOnes 64) := by
  simp [doKill, h, State.kill, hcid]

theorem doKill_busy {s : State} {k : Nat} (h : s.winBusy k = true) : doKill k s = s := by
  simp [doKill, h]

theorem State.startInt_vacant {s : State} {c : Nat} (h : (s.stall (64 * c + 63)).cid = none) :
    s.startInt c = s.updStall (64 * c + 63) (fun t => { t with cid := some (intCid c), phase := .running, fowner := some (intCid c) }) := by
  simp [State.startInt, h]

/-! ### Any other access -/

theorem doStallWindowAccess_free {s : State} {k off : Nat} {op : WinOp} (hoff : off < 4096) (h : s.winBusy k = false)
    (hroutine : s.routine k = none) : doStallWindowAccess k off op s = (s.winAccess k off op).1 := by
  simp [doStallWindowAccess, h, hroutine, hoff]

theorem doStallWindowAccess_busy {s : State} {k : Nat} (off : Nat) (op : WinOp) (h : s.winBusy k = true) :
    doStallWindowAccess k off op s = s := by
  simp [doStallWindowAccess, h]

/-- A store to a general register reloads it first, then replaces it (08 R197). -/
theorem State.winAccess_stc_general (s : State) (k : Nat) {n : Nat} (hn : n < 32) (g : Gran) :
    (s.winAccess k (16 * n) (.stc g)).1 = (s.winReload k n).winSetG k n g := by
  have hslot : 16 * n / 16 = n := by omega
  simp [State.winAccess, hslot, hn, show ¬40 ≤ n by omega, show n ≠ 64 by omega]

/-- The pending result that a window's store discards is not the stall's own state. -/
theorem State.stall_winSetG (s : State) (k n : Nat) (g : Gran) : (s.winSetG k n g).stall k =
    { ((s.stall k).setG n g) with pend := maskClr (s.stall k).pend n, refused := maskClr (s.stall k).refused n } := by
  unfold State.winSetG
  dsimp only
  split <;> exact State.stall_updStall _ _ _

/-- Settles O34: HALT abandons the routine and marks the stall, START and KILL do what their definitions say of a vacant and a resident stall, and
an access reaches the slot that it names; while the window is busy none acts. -/
theorem stallWindowReachesTheStall : Obligations.StallWindowReachesTheStall := by
  refine ⟨fun s hruns => ⟨fun k off op h => exec_stallWindowAccess k off op s h hruns, fun k h => exec_halt k s h hruns,
    fun c h => exec_stallctlStart c s h hruns, fun k h => exec_kill k s h hruns⟩, fun s k hk hruns => ?_⟩
  have hhalt := exec_halt k s (Instr.absent_of_unit_lt rfl rfl hk) hruns
  have hkill := exec_kill k s (Instr.absent_of_unit_lt rfl rfl hk) hruns
  have haccess (off : Nat) (op : WinOp) := exec_stallWindowAccess k off op s (Instr.absent_of_unit_lt rfl rfl hk) hruns
  refine ⟨?halts, ?kills, ?starts, ?accesses, fun off => ⟨rfl, rfl⟩, ?stores, ?waits⟩
  case halts =>
    intro hfree
    refine ⟨s.setHalt k true, by rw [hhalt, doHalt_free hfree], ?_⟩
    rw [State.setHalt_on]
    refine ⟨?_, s.routine_abandon k, fun j hj => ?_, s.abandon_mem k⟩
    · rw [State.stall_updStall]
    · rw [State.stall_updStall_other _ _ hj, State.stall_abandon_other s hj]
  case kills =>
    intro hfree hcid
    rw [hkill, doKill_resident hfree hcid]
  case starts =>
    intro c hc hvacant
    rw [exec_stallctlStart c s (Instr.absent_of_unit_lt rfl rfl hc) hruns, State.startInt_vacant hvacant]
  case accesses =>
    intro off op hoff hfree hroutine
    rw [haccess, doStallWindowAccess_free hoff hfree hroutine]
  case stores =>
    intro n g hpos hn
    rw [State.winAccess_stc_general s k hn, State.stall_winSetG]
    exact ⟨Stall.getG_setG_same _ (by omega) g, by simp [maskBit_maskClr]⟩
  case waits =>
    intro hbusy
    exact ⟨by rw [hhalt, doHalt_busy hbusy], by rw [hkill, doKill_busy hbusy],
      fun off op _ => by rw [haccess, doStallWindowAccess_busy off op hbusy]⟩

end Sys2Proof.Machine
end

section
/-!
MICROWORD_WAIT and the byte codes (O22 to O26; 09 R204, R206, R209, R217 to R220, Table 9.13): the byte code at a stall's position, by how it runs; the
routine that a sequencer runs, by what its next word does; and their commands.
-/

namespace Sys2Proof.Machine

/-! ### A byte code that runs -/

section
variable {c : Ctl} {s : State} {k op : Nat} {p : Nat → Bool} {v : Vz} {r : Run}

/-- A byte code runs for the stall it was prepared for, which does not wait in EXIT. -/
theorem State.not_exiting_and_me_of_vzPrep (hprep : s.vzPrep c k p = .ok (op, v)) : (s.stall k).exiting = false ∧ v.me.k = k := by
  unfold State.vzPrep at hprep
  dsimp only at hprep
  split at hprep
  · cases hprep
  next hready =>
    refine ⟨Bool.eq_false_iff.mpr fun hexiting => hready (by simp [hexiting]), ?_⟩
    repeat' split at hprep
    all_goals cases hprep
    rfl

theorem vzIssue_of_vzPrep (hprep : s.vzPrep c k p = .ok (op, v)) : vzIssue c k p s = s.vzGo c k p := by
  simp [vzIssue, (State.not_exiting_and_me_of_vzPrep hprep).1]

theorem State.vzGo_done (hprep : s.vzPrep c k p = .ok (op, v)) (hrun : vzRun op v = .ok r) : s.vzGo c k p = vzDone op v r := by
  unfold State.vzGo
  simp only [hprep, hrun]

theorem State.vzGo_faults {st : State} {f : Fail} (hprep : s.vzPrep c k p = .ok (op, v)) (hrun : vzRun op v = .error (.fail st f)) :
    s.vzGo c k p = st.vzFault k (vzSyl op v.arg) f.exc := by
  unfold State.vzGo
  simp only [hprep, hrun]

theorem State.vzGo_waits (hprep : s.vzPrep c k p = .ok (op, v)) (hrun : vzRun op v = .error .wait) : s.vzGo c k p = v.base := by
  unfold State.vzGo
  simp only [hprep, hrun]

theorem State.vzGo_sends {f : State → State} (hprep : s.vzPrep c k p = .ok (op, v)) (hrun : vzRun op v = .error (.send f)) :
    s.vzGo c k p = f ((v.base.claimSeqr k).updStall k (fun t => { t with fetched := [(v.pos, [op, v.arg])] })) := by
  unfold State.vzGo
  simp only [hprep, hrun]

end

/-- 09 R218: a byte that Table 9.13 does not define is an illegal operation, and nothing has run before its fault. -/
theorem vzRun_undefined {op : Nat} (v : Vz) (hlo : 0x28 ≤ op) (hhi : op ≤ 0xFC) : vzRun op v = .error (.fail v.base illegal) := by
  unfold vzRun vzCode
  split
  any_goals omega
  rfl

/-- A byte code that ends its context writes no register and no PCC (09 Table 9.13). -/
theorem vzDone_ends (op : Nat) (v : Vz) {r : Run} (hends : r.ends = true) :
    vzDone op v r = ((r.post r.s.leaveBoot).dropRoutine v.me.k).tryExit v.me.k := by
  simp [vzDone, hends]

theorem State.tryExit_done {s : State} {k : Nat} (h : s.storesOpen (s.cidOf k) = false) : s.tryExit k = s.exitContext k := by
  simp [State.tryExit, h]

theorem State.tryExit_open {s : State} {k : Nat} (h : s.storesOpen (s.cidOf k) = true) :
    s.tryExit k = s.updStall k (fun t => { t with exiting := true }) := by
  simp [State.tryExit, h]

/-! ### The commands of byte codes -/

theorem byteCodes_are_commands (k : Nat) : ∀ e ∈ byteCodes,
    (e.1 k).units = [(.stall, k)] ∧ ∀ s, exec (e.1 k) s = coreCommand (e.1 k) (vzIssue ctl k (· == e.2)) s := by
  intro e he
  fin_cases he <;> exact ⟨rfl, fun _ => rfl⟩

section
variable {s : State} {k : Nat} (hk : k < nStalls) (hruns : s.coreRuns = true)
include hk hruns

theorem exec_byteCode {e : (Nat → Instr) × Nat} (he : e ∈ byteCodes) :
    exec (e.1 k) s = .next (s.after (vzIssue ctl k (· == e.2) s)) := by
  obtain ⟨hunits, hexec⟩ := byteCodes_are_commands k e he
  rw [hexec]
  exact command_runs _ _ _ s (Instr.absent_of_unit_lt hunits rfl hk) hruns

theorem exec_byteCode_of_vzPrep {e : (Nat → Instr) × Nat} {op : Nat} {v : Vz} (he : e ∈ byteCodes)
    (hprep : s.vzPrep ctl k (· == e.2) = .ok (op, v)) : exec (e.1 k) s = .next (s.after (s.vzGo ctl k (· == e.2))) := by
  rw [exec_byteCode hk hruns he, vzIssue_of_vzPrep hprep]

/-- A byte code that may run and whose body in Table 9.13 succeeds takes effect. -/
theorem exec_byteCode_done {instr : Nat → Instr} {op : Nat} {v : Vz} {r : Run} (hcode : (instr, op) ∈ byteCodes := by simp [byteCodes])
    (hgo : s.vzRuns k op v (vzCode op).body r) : exec (instr k) s = .next (s.after (vzDone op v r)) := by
  obtain ⟨hprep, hrun⟩ := hgo
  rw [exec_byteCode_of_vzPrep hk hruns hcode hprep, State.vzGo_done hprep hrun]

end

/-- Settles O23: each is its entry of Table 9.13. -/
theorem byteCodesPush : Obligations.ByteCodesPush := by
  intro s k v r hk hruns
  and_intros <;> exact exec_byteCode_done hk hruns

/-- Settles O24: each is its entry of Table 9.13. -/
theorem byteCodesMoveWords : Obligations.ByteCodesMoveWords := by
  intro s k v r hk hruns
  and_intros <;> exact exec_byteCode_done hk hruns

/-- Settles O25: each is its entry of Table 9.13. -/
theorem byteCodesCompute : Obligations.ByteCodesCompute := by
  intro s k v r hk hruns
  and_intros <;> exact exec_byteCode_done hk hruns

/-- Settles O26: each that runs is its entry of Table 9.13; any other byte is the illegal operation; and a byte code that stops short leaves what its
stop says. -/
theorem byteCodesTransfer : Obligations.ByteCodesTransfer := by
  intro s k op v r hk hruns
  refine ⟨exec_byteCode_done hk hruns, ?jumps, exec_byteCode_done hk hruns, exec_byteCode_done hk hruns, exec_byteCode_done hk hruns,
    exec_byteCode_done hk hruns, exec_byteCode_done hk hruns, exec_byteCode_done hk hruns, ?exits, ?native, ?breaks, ?undefined,
    fun e he => exec_byteCode hk hruns he, ?stops⟩
  case jumps | native | breaks =>
    rintro ⟨hprep, ⟨⟩⟩
    exact exec_byteCode_done hk hruns (hgo := ⟨hprep, rfl⟩)
  case exits =>
    rintro _ ⟨hprep, ⟨⟩⟩ hs63 rfl
    have hme : v.me.k = k := (State.not_exiting_and_me_of_vzPrep hprep).2
    have hbody : (vzCode 0xFD).body v { s := v.base, t := v.me.t0 } = .ok { s := v.base, t := v.me.t0, ends := true } := by
      simp [vzCode, vzExit, hme, hs63]
    have hexit := exec_byteCode_done hk hruns (instr := .vz3Exit) (hgo := ⟨hprep, hbody⟩)
    rw [vzDone_ends _ _ rfl, hme] at hexit
    exact ⟨fun hdone => by rw [← State.tryExit_done hdone]; exact hexit, fun hopen => by rw [← State.tryExit_open hopen]; exact hexit⟩
  case undefined =>
    intro hprep hlo hhi
    rw [exec_vz3Undefined k s (Instr.absent_of_unit_lt rfl rfl hk) hruns, vzIssue_of_vzPrep hprep,
      State.vzGo_faults hprep (vzRun_undefined v hlo hhi)]
  case stops =>
    intro e he hprep
    rw [exec_byteCode_of_vzPrep hk hruns he hprep]
    refine ⟨fun st f hrun => ?_, fun hrun => ?_, fun f hrun => ?_⟩
    · rw [State.vzGo_faults hprep hrun]
    · rw [State.vzGo_waits hprep hrun]
    · rw [State.vzGo_sends hprep hrun]

/-! ### The routine that a sequencer runs -/

section
variable {s : State} {c i : Nat} {q : Routine} (hq : (s.core c).seqr i = some q) (hgo : s.mayGoOn q.stall = true)
include hq hgo

/-- 09 R206: an event that is open before the commit word takes the routine. -/
theorem microWith_abandons (hafter : q.after = none) (hevent : s.eventFirst q.stall = true) :
    microWith ctl c i s = s.abandonFor q.stall := by
  simp [microWith, hq, hgo, hafter, hevent]

/-- The ROM alone: the routine acts whole, at its commit word (log entry 39). -/
theorem microWith_commits (hrom : s.patched = false) (hafter : q.after = none) (hevent : s.eventFirst q.stall = false) :
    microWith ctl c i s = s.commit ctl q.stall := by
  simp [microWith, hq, hgo, hrom, hafter, hevent]

/-- Under a patch the routine goes word by word (log entry 117). -/
theorem microWith_steps (hpatched : s.patched = true) (hopen : s.eventFirst q.stall = false ∨ q.after.isSome = true) :
    microWith ctl c i s = s.microStep ctl c i q := by
  rcases hopen with hevent | hafter
  · simp [microWith, hq, hgo, hpatched, hevent]
  · simp [microWith, hq, hgo, hpatched, Option.isSome_iff_ne_none.mp hafter]

end

theorem State.commit_of_bundle (x : Ctl) {s : State} {k : Nat} (hcm : stCM (s.stall k).status = false) : s.commit x k = s.runNext x k true := by
  simp [State.commit, hcm]

theorem State.commit_of_byteCode (x : Ctl) {s : State} {k : Nat} (hcm : stCM (s.stall k).status = true) :
    s.commit x k = s.vzGo x k (fun _ => true) := by
  simp [State.commit, hcm]

theorem absent_microwordWait {c i : Nat} (hc : c < nCores) (hi : i < 2) : (Instr.microwordWait c i).absent = none := by
  have hcore : UnitKind.core.has c = true := (UnitKind.has_iff _ _).mpr ⟨Nat.zero_le c, hc⟩
  have hseqr : UnitKind.sequencer.has i = true := (UnitKind.has_iff _ _).mpr ⟨Nat.zero_le i, hi⟩
  have hunits : (Instr.microwordWait c i).units = [(.core, c), (.sequencer, i)] := rfl
  simp [Instr.absent, hunits, hcore, hseqr]

/-- Settles O22: what a routine's next word does is by whether an event takes it, and by whether the ROM alone runs. That the ROM's routine acts whole at
one MICROWORD_WAIT is log entry 39; the words of a patched one are log entry 117 (design choices of the model). -/
theorem microwordCommitsItsRoutine : Obligations.MicrowordCommitsItsRoutine := by
  refine ⟨fun s hruns c i h => exec_microwordWait c i s h hruns, fun s s1 c i addr q b hc hi hruns hq hgo => ?_⟩
  rw [exec_microwordWait c i s (absent_microwordWait hc hi) hruns]
  refine ⟨?bundle, ?byteCode, ?event, ?patch⟩
  case bundle =>
    intro hrom hafter hevent hcm hnext hgoes
    obtain ⟨hrep, hblocked, -⟩ := State.bundleRuns_iff.mp hgoes
    rw [microWith_commits hq hgo hrom hafter hevent, State.commit_of_bundle ctl hcm, State.runNext_once hnext hrep hblocked,
      State.runBundle_completes hgoes]
  case byteCode =>
    intro op v r hrom hafter hevent hcm hprep hrun
    rw [microWith_commits hq hgo hrom hafter hevent, State.commit_of_byteCode ctl hcm, State.vzGo_done hprep hrun]
  case event =>
    intro hafter hevent
    rw [microWith_abandons hq hgo hafter hevent]
  case patch =>
    intro hpatched hopen
    rw [microWith_steps hq hgo hpatched hopen]

end Sys2Proof.Machine
end

section
/-!
What a pass over every listed value leaves of a sparse map, and what memory's operations leave of the haylofts.
-/

namespace Sys2Proof

variable {α : Type}

theorem SMap.not_mem_del (m : SMap α) (k : Nat) (v : α) : (k, v) ∉ SMap.del m k := by
  induction m with
  | nil => simp [SMap.del]
  | cons e m ih =>
    obtain ⟨k', v'⟩ := e
    by_cases hk : k = k'
    · simpa only [SMap.del, if_pos hk] using ih
    · simp [SMap.del, hk, ih]

theorem SMap.get_eq_default_or_mem (d : Nat → α) (m : SMap α) (k : Nat) : SMap.get d m k = d k ∨ (k, SMap.get d m k) ∈ m := by
  induction m with
  | nil => exact .inl rfl
  | cons e m ih =>
    obtain ⟨k', v'⟩ := e
    by_cases hk : k = k'
    · simp [SMap.get, hk]
    · simpa [SMap.get, hk] using ih

variable [DecidableEq α]

theorem SMap.mem_set {d : Nat → α} {m : SMap α} {k : Nat} {v : α} {e : Nat × α} (h : e ∈ SMap.set d m k v) : e = (k, v) ∨ e ∈ m := by
  unfold SMap.set at h
  split at h
  · exact .inr (SMap.mem_del h)
  · exact SMap.mem_put h

theorem SMap.mem_mapv {d : Nat → α} {f : Nat → α → α} {m : SMap α} {e : Nat × α} (h : e ∈ SMap.mapv d f m) :
    ∃ v, (e.1, v) ∈ m ∧ e.2 = f e.1 v := by
  induction m with
  | nil => simp [SMap.mapv] at h
  | cons e' m ih =>
    obtain ⟨k, v⟩ := e'
    have htail : e ∈ SMap.mapv d f m → ∃ v', (e.1, v') ∈ (k, v) :: m ∧ e.2 = f e.1 v' := fun h' =>
      (ih h').imp fun _ hv' => ⟨List.mem_cons_of_mem _ hv'.1, hv'.2⟩
    simp only [SMap.mapv] at h
    split at h
    · exact htail h
    · rcases List.mem_cons.mp h with rfl | h'
      · exact ⟨v, List.mem_cons_self, rfl⟩
      · exact htail h'

/-- On any list: a value that the pass does not make the default is the changed one. A key listed twice is read at its second entry only where the
first has become the default. -/
theorem SMap.get_mapv {d : Nat → α} {f : Nat → α → α} {m : SMap α} {k : Nat} (hdefault : f k (d k) = d k)
    (hlisted : f k (SMap.get d m k) ≠ d k) : SMap.get d (SMap.mapv d f m) k = f k (SMap.get d m k) := by
  induction m with
  | nil => exact absurd hdefault hlisted
  | cons e m ih =>
    obtain ⟨k', v'⟩ := e
    by_cases hk : k = k'
    · subst hk
      have hv : f k v' ≠ d k := by simpa [SMap.get] using hlisted
      simp [SMap.mapv, SMap.get, hv]
    · have hrest := ih (by simpa [SMap.get, hk] using hlisted)
      simp only [SMap.mapv, SMap.get, hk, if_false]
      split <;> simp [SMap.get, hk, hrest]

end Sys2Proof

namespace Sys2Proof.Machine

theorem foldl_sheds {α : Type} (l : List α) (f : State → α → State) (hf : ∀ s a, (f s a).sheds = s.sheds) (s : State) :
    (l.foldl f s).sheds = s.sheds :=
  List.foldlRecOn (motive := fun t => t.sheds = s.sheds) l f rfl fun t ht a _ => (hf t a).trans ht

@[simp] theorem bump_sheds (s : State) (i j w n : Nat) : (s.bump i j w n).sheds = s.sheds := rfl
@[simp] theorem updPort_sheds (s : State) (k : Nat) (f : Port → Port) : (s.updPort k f).sheds = s.sheds := rfl

@[simp] theorem firstErr_sheds (s : State) (p pda : Nat) : (s.firstErr p pda).sheds = s.sheds := by
  unfold State.firstErr
  dsimp only
  split <;> rfl

@[simp] theorem useSidecar_sheds (s : State) (p pda : Nat) (wr : Bool) : (s.useSidecar p pda wr).sheds = s.sheds := by
  unfold State.useSidecar
  dsimp only
  split <;> rfl

@[simp] theorem writeBack_sheds (s : State) (line : Nat) : (s.writeBack line).sheds = s.sheds := by
  unfold State.writeBack
  split
  · rfl
  · refine foldl_sheds _ _ (fun s q => ?_) s
    split <;> simp

@[simp] theorem writeBackAll_sheds (s : State) (ls : List (Nat × HLine)) : (s.writeBackAll ls).sheds = s.sheds :=
  foldl_sheds ls (fun s l => s.writeBack l.1) (fun s l => writeBack_sheds s l.1) s

@[simp] theorem writeBackAll_mem (s : State) (ls : List (Nat × HLine)) : (s.writeBackAll ls).mem = s.mem :=
  foldl_mem ls (fun s l => s.writeBack l.1) (fun s l => writeBack_mem s l.1) s

@[simp] theorem writeBackAll_stalls (s : State) (ls : List (Nat × HLine)) : (s.writeBackAll ls).stalls = s.stalls :=
  foldl_stalls ls (fun s l => s.writeBack l.1) (fun s l => writeBack_stalls s l.1) s

@[simp] theorem shed_of_writeBackAll (s : State) (ls : List (Nat × HLine)) (k : Nat) : (s.writeBackAll ls).shed k = s.shed k := by
  simp [State.shed]

@[simp] theorem State.shed_updShed (s : State) (k : Nat) (f : Shed → Shed) : (s.updShed k f).shed k = f (s.shed k) :=
  s.shed_setShed k _

/-- A shed is listed, or is as at reset and holds nothing. -/
theorem State.shed_eq_default_or_mem (s : State) (k : Nat) : s.shed k = {} ∨ (k, s.shed k) ∈ s.sheds :=
  SMap.get_eq_default_or_mem _ _ _

theorem State.mem_sheds_setShed {s : State} {k : Nat} {x : Shed} {e : Nat × Shed} (h : e ∈ (s.setShed k x).sheds) :
    e = (k, x) ∨ e ∈ s.sheds :=
  SMap.mem_set (d := fun _ => ({} : Shed)) h

end Sys2Proof.Machine
end

section
/-!
Coherence (O36; 10 R229 to R231, R233, R235): which haylofts hold a line after an ownership request or an eviction from the directory, where a
write-back goes, and which lines a stream reads.
-/

namespace Sys2Proof.Machine

/-! ### Which haylofts hold a line -/

theorem State.not_mem_dropLine (s : State) (line : Nat) : ∀ e ∈ (s.dropLine line).sheds, ∀ l, (line, l) ∉ e.2.lines := by
  intro e he l
  obtain ⟨h, -, hdropped⟩ := SMap.mem_mapv he
  rw [hdropped]
  exact SMap.not_mem_del _ _ _

theorem State.othersHold_eq_false_iff (s : State) (me line : Nat) :
    s.othersHold me line = false ↔ ∀ e ∈ s.sheds, e.1 ≠ me → ∀ l, (line, l) ∉ e.2.lines := by
  simp [State.othersHold, List.any_eq_false]

theorem State.othersHold_dropOthers (s : State) (me line : Nat) : (s.dropOthers me line).othersHold me line = false := by
  rw [State.othersHold_eq_false_iff]
  intro e he hother l
  obtain ⟨h, -, hdropped⟩ := SMap.mem_mapv he
  rw [hdropped, if_neg hother]
  exact SMap.not_mem_del _ _ _

/-- A shed's own change gives the line to no other. -/
theorem State.othersHold_setShed {s : State} {me line : Nat} (h : s.othersHold me line = false) (x : Shed) :
    (s.setShed me x).othersHold me line = false := by
  rw [State.othersHold_eq_false_iff] at h ⊢
  intro e he hother
  rcases State.mem_sheds_setShed he with rfl | hlisted
  · exact absurd rfl hother
  · exact h e hlisted hother

theorem State.othersHold_dropLine {s : State} {me line : Nat} (h : s.othersHold me line = false) (v : Nat) :
    (s.dropLine v).othersHold me line = false := by
  rw [State.othersHold_eq_false_iff] at h ⊢
  intro e he hother l hl
  obtain ⟨x, hx, hdropped⟩ := SMap.mem_mapv he
  rw [hdropped] at hl
  have hkept : (e.1, x) ∈ s.sheds := by
    revert hx
    split <;> simp
  exact h (e.1, x) hkept hother l (SMap.mem_del hl)

theorem State.othersHold_dirRoom {s : State} {me line : Nat} (h : s.othersHold me line = false) (v : Nat) :
    (s.dirRoom v).othersHold me line = false := by
  unfold State.dirRoom
  dsimp only
  split
  · exact h
  · split
    · exact State.othersHold_dropLine h _
    · exact h

theorem State.othersHold_fillLine {s : State} {me line : Nat} (h : s.othersHold me line = false) (b : Nat) (st : LState) :
    (s.fillLine me b line st).othersHold me line = false := by
  have hroom := State.othersHold_dirRoom h line
  unfold State.fillLine
  split
  · exact h
  · dsimp only
    split
    · exact hroom
    · exact State.othersHold_setShed hroom _

/-- Where the shed holds the line, its entry is listed, and the others' loss leaves it as it is. -/
theorem State.shed_dropOthers_of_holds {s : State} {me line : Nat} (h : (s.shed me).lines.any (fun l => l.1 == line) = true) :
    (s.dropOthers me line).shed me = s.shed me := by
  have hlisted : s.shed me ≠ {} := by
    intro hdefault
    simp [hdefault] at h
  exact (SMap.get_mapv (if_pos rfl) (by rwa [if_pos rfl])).trans (if_pos rfl)

theorem State.lineHeld_of_holds {s : State} {h line : Nat} (hholds : (s.shed h).lines.any (fun l => l.1 == line) = true) :
    s.lineHeld line = true := by
  rcases s.shed_eq_default_or_mem h with hdefault | hlisted
  · simp [hdefault] at hholds
  · exact List.any_eq_true.mpr ⟨_, hlisted, by simp [hholds]⟩

theorem State.portRead_of_held {s : State} {line : Nat} (hheld : s.lineHeld line = true) (shed gi : Nat) : s.portRead shed line gi = s := by
  simp [State.portRead, hheld]

/-! ### Ownership -/

/-- The line's own copy in M. -/
def Shed.own (line : Nat) (h : Shed) : Shed :=
  { h with lines := h.lines.map (fun l => if l.1 = line then (l.1, { l.2 with st := .M }) else l) }

theorem Shed.st_of_mem_own {h : Shed} {line : Nat} {l : HLine} (hl : (line, l) ∈ (h.own line).lines) : l.st = .M := by
  obtain ⟨e, -, he⟩ := List.mem_map.mp hl
  split at he
  next => simp [← (Prod.mk.inj he).2]
  next hother => exact absurd (by rw [he]) hother

theorem Shed.own_holds (h : Shed) (line : Nat) :
    (h.own line).lines.any (fun l => l.1 == line) = h.lines.any (fun l => l.1 == line) := by
  rw [Shed.own, List.any_map]
  congr 1
  funext l
  simp only [Function.comp_apply]
  split <;> rfl

/-- The state in which an ownership request of shed `me` takes its line to M: the line read at its port, the other copies gone, and the line filled
where the shed had it not. -/
def State.granted (s : State) (me line : Nat) : State :=
  let berth := match (s.shed me).lines.find? (fun e => e.1 == line) with | some (_, l) => l.berth | none => 0
  let s := (s.portRead me line 4).dropOthers me line
  if (s.shed me).lines.any (fun l => l.1 == line) then s else s.fillLine me berth line .M

theorem doOwnershipRequest_grants {s : State} {h line : Nat} (hready : s.lineReady line = true)
    (hvictim : (s.shed h).victims.contains line = false) : doOwnershipRequest h line s = (s.granted h line).updShed h (Shed.own line) := by
  simp only [doOwnershipRequest, hready, hvictim, Bool.not_true, Bool.or_self, Bool.false_eq_true, if_false]
  rfl

theorem doOwnershipRequest_idle {s : State} {h line : Nat} (hidle : s.lineReady line = false ∨ (s.shed h).victims.contains line = true) :
    doOwnershipRequest h line s = s := by
  rcases hidle with hunready | hvictim
  · simp [doOwnershipRequest, hunready]
  · simp only [doOwnershipRequest, hvictim, Bool.or_true, if_true]

theorem State.othersHold_granted (s : State) (me line : Nat) : (s.granted me line).othersHold me line = false := by
  have hdropped := (s.portRead me line 4).othersHold_dropOthers me line
  unfold State.granted
  dsimp only
  split
  · exact hdropped
  · exact State.othersHold_fillLine hdropped _ _

@[simp] theorem granted_stalls (s : State) (me line : Nat) : (s.granted me line).stalls = s.stalls := by
  unfold State.granted
  dsimp only
  split <;> simp

theorem State.granted_of_holds {s : State} {me line : Nat} (h : (s.shed me).lines.any (fun l => l.1 == line) = true) :
    s.granted me line = s.dropOthers me line := by
  simp only [State.granted, State.portRead_of_held (State.lineHeld_of_holds h), State.shed_dropOthers_of_holds h, h, if_true]

/-! ### Write-backs -/

theorem State.writePorts_of_unmirrored {s : State} {p : Nat} (h : s.mirrored p = false) : s.writePorts p = [p] := by
  simp [State.writePorts, h]

section
variable {s : State} {line p pda : Nat} (hlocate : s.locate (64 * line) = some (p, pda)) (hmirror : s.mirrored p = false)
include hlocate hmirror

theorem State.writeBack_of_active (hactive : s.portState p = psACTIVE) :
    s.writeBack line = (s.useSidecar p pda true).bump (portIdx p) 0x26 64 1 := by
  simp [State.writeBack, hlocate, State.writePorts_of_unmirrored hmirror, hactive]

theorem State.writeBack_of_inactive (hinactive : s.portState p ≠ psACTIVE) : s.writeBack line = s.firstErr p pda := by
  simp [State.writeBack, hlocate, State.writePorts_of_unmirrored hmirror, hinactive]

end

theorem doWriteBackAck_of_victim {s : State} {h line : Nat} (hvictim : (s.shed h).victims.contains line = true) :
    doWriteBackAck h line s = (s.updShed h (fun x => { x with victims := x.victims.erase line })).writeBack line := by
  simp only [doWriteBackAck, hvictim, Bool.not_true, Bool.false_eq_true, if_false]

theorem doWriteBackAck_idle {s : State} {h line : Nat} (hvictim : (s.shed h).victims.contains line = false) : doWriteBackAck h line s = s := by
  simp only [doWriteBackAck, hvictim, Bool.not_false, if_true]

/-! ### Streams -/

theorem doStridePrefetch_confident {s : State} {h i : Nat} {x : Stream} (hstream : listAt (s.shed h).streams i = some x)
    (hon : (s.shed h).pfEn = true) (hsame : 2 ≤ x.same) :
    doStridePrefetch h i s = (upTo (s.shed h).pfDepth).foldl (fun s i => s.prefetchLine h x i) s := by
  have hconfident : ¬ x.same < 2 := by omega
  simp [doStridePrefetch, hstream, hon, hconfident]

theorem doStridePrefetch_idle {s : State} {h i : Nat}
    (hidle : ∀ x, listAt (s.shed h).streams i = some x → (s.shed h).pfEn = false ∨ x.same < 2) : doStridePrefetch h i s = s := by
  cases hstream : listAt (s.shed h).streams i with
  | none => simp only [doStridePrefetch, hstream]
  | some x => 
    simp only [doStridePrefetch, hstream]
    exact if_pos (by simpa using hidle x hstream)

section
variable {s s1 : State} {h i : Nat} {x : Stream} {va : Int} (hva : x.last + lineStride x.stride * (i + 1) = va)
include hva

theorem State.prefetchLine_out_of_bounds (hout : va < x.lo ∨ x.hi < va + 8) : s.prefetchLine h x i = s := by
  simp [State.prefetchLine, hva, hout]

variable (hlo : x.lo ≤ va) (hhi : va + 8 ≤ x.hi)
include hlo hhi

/-- Inside its bounds a line that is translated is read where memory can serve it in the stream's version. -/
theorem State.prefetchLine_of_translated {pa : Nat} (htrans : s.translate (.core (coreOf x.stall)) x.berth va.toNat = (s1, .ok pa)) :
    s.prefetchLine h x i = if s1.lineReady (pa / 64) && verOk x.ver (s1.verAt pa) then s1.touchRead h x.berth (pa / 64) else s1 := by
  have hin : ¬ (va < x.lo ∨ x.hi < va + 8) := by omega
  simp [State.prefetchLine, hva, hin, htrans]

theorem State.prefetchLine_of_fault {f : TFault} (htrans : s.translate (.core (coreOf x.stall)) x.berth va.toNat = (s1, .error f)) :
    s.prefetchLine h x i = s1 := by
  have hin : ¬ (va < x.lo ∨ x.hi < va + 8) := by omega
  simp [State.prefetchLine, hva, hin, htrans]

end

/-- Settles O36: a grant takes the line from every other hayloft and gives the shed's own copy M, and each other command does what its definition says
of what it finds. That nothing happens where the line is not ready, the victim not in its buffer or the stream not confident is log entry 7 (a design
choice of the model). -/
theorem coherenceCommandsTakeEffect : Obligations.CoherenceCommandsTakeEffect := by
  refine ⟨fun s hruns => ⟨fun h i ha => exec_stridePrefetch h i s ha hruns, fun h line ha => exec_ownershipRequest h line s ha hruns,
    fun line => exec_directoryEviction line s hruns, fun h line ha => exec_writeBackAck h line s ha hruns,
    fun h ha => exec_immutTtl h s ha hruns⟩, fun s h line hh hruns => ?_⟩
  refine ⟨?grants, ?unready, exec_directoryEviction line s hruns, ⟨dropLine_mem s line, s.not_mem_dropLine line⟩, ?acks, ?noVictim, ?ports,
    exec_immutTtl h s (Instr.absent_of_unit_lt rfl rfl hh) hruns, ?prefetches, ?unsure, ?lines⟩
  case grants =>
    intro hready hvictim
    rw [exec_ownershipRequest h line s (Instr.absent_of_unit_lt rfl rfl hh) hruns, doOwnershipRequest_grants hready hvictim]
    refine ⟨_, rfl, ?_, ?_, ?_, granted_stalls s h line⟩
    · exact (State.othersHold_eq_false_iff _ h line).mp (State.othersHold_setShed (s.othersHold_granted h line) _)
    · intro l hl
      rw [State.shed_updShed] at hl
      exact Shed.st_of_mem_own hl
    · intro hholds
      rw [State.granted_of_holds hholds, State.shed_updShed, Shed.own_holds, State.shed_dropOthers_of_holds hholds]
      exact ⟨hholds, rfl⟩
  case unready =>
    intro hidle
    rw [exec_ownershipRequest h line s (Instr.absent_of_unit_lt rfl rfl hh) hruns, doOwnershipRequest_idle hidle]
  case acks =>
    intro hvictim
    rw [exec_writeBackAck h line s (Instr.absent_of_unit_lt rfl rfl hh) hruns, doWriteBackAck_of_victim hvictim]
  case noVictim =>
    intro hvictim
    rw [exec_writeBackAck h line s (Instr.absent_of_unit_lt rfl rfl hh) hruns, doWriteBackAck_idle hvictim]
  case ports =>
    exact fun p pda hlocate hmirror => ⟨State.writeBack_of_active hlocate hmirror, State.writeBack_of_inactive hlocate hmirror⟩
  case prefetches =>
    intro i x hstream hon hsame
    rw [exec_stridePrefetch h i s (Instr.absent_of_unit_lt rfl rfl hh) hruns, doStridePrefetch_confident hstream hon hsame]
  case unsure =>
    intro i hidle
    rw [exec_stridePrefetch h i s (Instr.absent_of_unit_lt rfl rfl hh) hruns, doStridePrefetch_idle hidle]
  case lines =>
    intro x i va hva
    refine ⟨State.prefetchLine_out_of_bounds hva, fun s1 pa hlo hhi htrans => ⟨fun hready hver => ?_, fun hver => ?_⟩,
      fun s1 f hlo hhi htrans => State.prefetchLine_of_fault hva hlo hhi htrans⟩
    · simp [State.prefetchLine_of_translated hva hlo hhi htrans, hready, hver]
    · simp [State.prefetchLine_of_translated hva hlo hhi htrans, hver]

end Sys2Proof.Machine
end

section
/-!
The hayloft window (O37; 10 R236 to R240): what a maintenance operation does and answers, which writes of the way registers are refused, and the
ways that lose and regain power.
-/

namespace Sys2Proof.Machine

/-! ### Maintenance operations -/

theorem State.startMaint_idle {s : State} {h op : Nat} (hidle : (s.shed h).maintGo = false) (hop : 1 ≤ op ∧ op ≤ 4) :
    s.updShed h (fun x => x.startMaint op) = s.setShed h { s.shed h with maintOp := op, maintGo := true } := by
  simp [State.updShed, Shed.startMaint, hidle, hop]

theorem State.startMaint_busy {s : State} {h : Nat} (op : Nat) (hbusy : (s.shed h).maintGo = true) :
    s.updShed h (fun x => x.startMaint op) = s.setShed h (s.shed h) := by
  simp [State.updShed, Shed.startMaint, hbusy]

/-- The line that a by-address operation names. -/
def Shed.maintLine (h : Shed) : Nat := h.maintAddr / 64

/-- Every M copy of a line is written back and kept (10 Table 10.6, CLEAN). -/
def State.cleanLine (s : State) (line : Nat) : State :=
  let s := if s.dirty line then s.writeBack line else s
  { s with sheds := SMap.mapv (fun _ => {}) (fun k x =>
      { x with lines := x.lines.map (fun l => if l.1 = line then (l.1, cleanCopy (s.othersHold k line) l.2) else l) }) s.sheds }

/-- Every M line of a shed is written back and kept (10 Table 10.6, CLEAN_SHED). -/
def State.cleanAll (s : State) (h : Nat) : State :=
  (s.writeBackAll ((s.shed h).lines.filter (fun l => l.2.st == .M))).updShed h
    (fun x => { x with lines := x.lines.map (fun l => (l.1, cleanCopy false l.2)) })

/-- No shed keeps an immutable copy (10 Table 10.6, IMMUT_DROP). -/
def State.dropCopies (s : State) : State := { s with sheds := SMap.mapv (fun _ => {}) (fun _ x => { x with copies := [] }) s.sheds }

/-- What the operation of shed `h`'s window does before it answers. -/
def State.maintained (s : State) (h : Nat) : State :=
  match (s.shed h).maintOp with
  | 1 => if (s.locate (64 * (s.shed h).maintLine)).isNone then s else s.cleanLine (s.shed h).maintLine
  | 2 => if (s.locate (64 * (s.shed h).maintLine)).isNone then s else s.dropLine (s.shed h).maintLine
  | 3 => s.cleanAll h
  | _ => s.dropCopies

/-- The result it answers. -/
def State.maintAnswer (s : State) (h : Nat) : Nat :=
  if (s.shed h).maintOp = 1 ∨ (s.shed h).maintOp = 2 then
    (if (s.locate (64 * (s.shed h).maintLine)).isNone then 1
      else if s.dirty (s.shed h).maintLine && s.writeBackFails (s.shed h).maintLine then 2 else 0)
  else if (s.shed h).maintOp = 3 then (if (s.shed h).lines.any (fun l => l.2.st == .M && s.writeBackFails l.1) then 2 else 0) else 0

/-- A window whose operation has ended with a result. -/
def Shed.maintEnds (r : Nat) (h : Shed) : Shed := { h with maintGo := false, maintResult := r }

/-- An operation that no victim buffer holds up does its work, then ends. -/
theorem doMaintComplete_ends {s : State} {h : Nat} (hgo : (s.shed h).maintGo = true)
    (hvictims : (s.shed h).maintOp ≤ 2 → s.inVictims (s.shed h).maintLine = false) :
    doMaintComplete h s = (s.maintained h).updShed h (Shed.maintEnds (s.maintAnswer h)) := by
  have hfree : ¬ (!(s.shed h).maintGo || (decide ((s.shed h).maintOp ≤ 2) && s.inVictims ((s.shed h).maintAddr / 64))) = true := by
    simpa [hgo, Shed.maintLine] using hvictims
  unfold doMaintComplete State.maintained State.maintAnswer Shed.maintLine
  rw [if_neg hfree]
  generalize (s.shed h).maintOp = op
  match op with
  | 1 | 2 => cases (s.locate (64 * ((s.shed h).maintAddr / 64))).isNone <;> rfl
  | 0 | 3 | n + 4 => rfl

section
variable {s : State} {h : Nat}

theorem State.maintained_inval (hop : (s.shed h).maintOp = 2) (hhome : (s.locate (64 * (s.shed h).maintLine)).isSome = true) :
    s.maintained h = s.dropLine (s.shed h).maintLine := by
  have hhomed : (s.locate (64 * (s.shed h).maintLine)).isNone = false := by simpa using hhome
  simp only [State.maintained, hop, hhomed, Bool.false_eq_true, if_false]

theorem State.maintained_cleanShed (hop : (s.shed h).maintOp = 3) : s.maintained h = s.cleanAll h := by
  simp only [State.maintained, hop]

theorem State.maintained_immutDrop (hop : (s.shed h).maintOp = 4) : s.maintained h = s.dropCopies := by
  simp only [State.maintained, hop]

end

/-! #### What an operation leaves -/

@[simp] theorem cleanLine_mem (s : State) (line : Nat) : (s.cleanLine line).mem = s.mem := by
  unfold State.cleanLine
  dsimp only
  split <;> simp

@[simp] theorem cleanLine_stalls (s : State) (line : Nat) : (s.cleanLine line).stalls = s.stalls := by
  unfold State.cleanLine
  dsimp only
  split <;> simp

@[simp] theorem cleanAll_mem (s : State) (h : Nat) : (s.cleanAll h).mem = s.mem := by
  simp [State.cleanAll]

@[simp] theorem cleanAll_stalls (s : State) (h : Nat) : (s.cleanAll h).stalls = s.stalls := by
  simp [State.cleanAll]

@[simp] theorem maintained_mem (s : State) (h : Nat) : (s.maintained h).mem = s.mem := by
  unfold State.maintained
  split
  case h_1 | h_2 => split <;> simp
  case h_3 => exact cleanAll_mem s h
  case h_4 => rfl

@[simp] theorem maintained_stalls (s : State) (h : Nat) : (s.maintained h).stalls = s.stalls := by
  unfold State.maintained
  split
  case h_1 | h_2 => split <;> simp
  case h_3 => exact cleanAll_stalls s h
  case h_4 => rfl

theorem cleanCopy_ne_M (others : Bool) (l : HLine) : (cleanCopy others l).st ≠ .M := by
  unfold cleanCopy
  split
  · cases others <;> simp
  next hclean => simpa using hclean

theorem State.ne_M_of_mem_cleanAll (s : State) (h : Nat) : ∀ l ∈ ((s.cleanAll h).shed h).lines, l.2.st ≠ .M := by
  intro l hl
  rw [State.cleanAll, State.shed_updShed] at hl
  obtain ⟨l', -, rfl⟩ := List.mem_map.mp hl
  exact cleanCopy_ne_M false l'.2

theorem State.copies_of_mem_dropCopies (s : State) : ∀ e ∈ s.dropCopies.sheds, e.2.copies = [] := by
  intro e he
  obtain ⟨x, -, hdropped⟩ := SMap.mem_mapv he
  rw [hdropped]

/-- What holds of every listed shed, and of one as at reset, holds of each after a change that keeps it. -/
theorem State.forall_mem_sheds_updShed {s : State} {P : Shed → Prop} (hall : ∀ e ∈ s.sheds, P e.2) (hdefault : P {}) (h : Nat)
    {f : Shed → Shed} (hf : ∀ x, P x → P (f x)) : ∀ e ∈ (s.updShed h f).sheds, P e.2 := by
  intro e he
  rcases State.mem_sheds_setShed he with rfl | hlisted
  · refine hf _ ?_
    rcases s.shed_eq_default_or_mem h with heq | hmem
    · exact heq ▸ hdefault
    · exact hall _ hmem
  · exact hall e hlisted

/-! ### Way lock -/

/-- What WAY_LOCK refuses (10 R236): too many ways locked, a way without power, or fewer than four ways left to fills. -/
theorem Shed.writeLock_refuses {h : Shed} {v : Word64} (hbad : 12 < countWays (v.setWidth 16) ∨ (v.setWidth 16 &&& ~~~h.pwrState) ≠ 0 ∨
    countWays (h.powered &&& ~~~(v.setWidth 16)) < 4) : h.writeLock v = h :=
  if_pos (by simpa [or_assoc] using hbad)

theorem Shed.writeLock_takes {h : Shed} {v : Word64} (hfew : countWays (v.setWidth 16) ≤ 12) (hpower : (v.setWidth 16 &&& ~~~h.pwrState) = 0)
    (hleft : 4 ≤ countWays (h.powered &&& ~~~(v.setWidth 16))) :
    h.writeLock v = { h with lock := v.setWidth 16, allocWays := (v >>> 16).setWidth 16 } :=
  if_neg (by simp [hpower]; omega)

/-! ### Way power -/

/-- What WAY_PWR refuses (10 R237): a locked way, or fewer than four ways left to fills. -/
theorem Shed.writePwr_refuses {h : Shed} {v : Word64} (hbad : (v.setWidth 16 &&& h.lock) ≠ 0 ∨
    countWays (h.pwrState &&& ~~~h.cleaning &&& ~~~(v.setWidth 16) &&& ~~~h.lock) < 4) : h.writePwr v = h :=
  if_pos (by simpa using hbad)

theorem Shed.writePwr_takes {h : Shed} {v : Word64} (hlock : (v.setWidth 16 &&& h.lock) = 0)
    (hleft : 4 ≤ countWays (h.pwrState &&& ~~~h.cleaning &&& ~~~(v.setWidth 16) &&& ~~~h.lock)) :
    h.writePwr v = { h with
      offReq := v.setWidth 16
      cleaning := h.cleaning ||| (v.setWidth 16 &&& ~~~h.offReq &&& h.pwrState)
      powering := (h.powering &&& ~~~(v.setWidth 16)) ||| (h.offReq &&& ~~~(v.setWidth 16) &&& ~~~h.pwrState) } :=
  if_neg (by simp [hlock]; omega)

/-- A shed whose way has been cleaned: its lines and copies gone, its power gated, and powered up again where its request was cleared meanwhile. -/
def Shed.gateWay (way : Nat) (h : Shed) : Shed :=
  { h with cleaning := maskClr h.cleaning way, lines := h.lines.filter (fun l => l.2.way != way),
           copies := h.copies.filter (fun c => c.way != way), pwrState := maskClr h.pwrState way,
           powering := if maskBit h.offReq way then h.powering else maskSet h.powering way }

theorem Shed.way_ne_of_mem_gateWay_lines (h : Shed) (w : Nat) : ∀ l ∈ (h.gateWay w).lines, l.2.way ≠ w := by
  intro l hl
  simpa using (List.mem_filter.mp hl).2

theorem Shed.way_ne_of_mem_gateWay_copies (h : Shed) (w : Nat) : ∀ c ∈ (h.gateWay w).copies, c.way ≠ w := by
  intro c hc
  simpa using (List.mem_filter.mp hc).2

theorem doWayCleanDone_gates {s : State} {h w : Nat} (hw : w < 16) (hcleaning : maskBit (s.shed h).cleaning w = true) :
    doWayCleanDone h w s =
      (s.writeBackAll ((s.shed h).lines.filter (fun l => l.2.way == w && l.2.st == .M))).updShed h (Shed.gateWay w) :=
  if_pos (by simp [hw, hcleaning])

theorem doWayPowerUpDone_powers {s : State} {h w : Nat} (hw : w < 16) (hpowering : maskBit (s.shed h).powering w = true) :
    doWayPowerUpDone h w s = s.setShed h { s.shed h with powering := maskClr (s.shed h).powering w, pwrState := maskSet (s.shed h).pwrState w } := by
  simp [doWayPowerUpDone, State.updShed, hw, hpowering]

theorem absent_wayCleanDone {h w : Nat} (hh : h < nSheds) (hw : w < 16) : (Instr.wayCleanDone h w).absent = none := by
  have hshed : UnitKind.shed.has h = true := (UnitKind.has_iff _ _).mpr ⟨Nat.zero_le h, hh⟩
  have hway : UnitKind.way.has w = true := (UnitKind.has_iff _ _).mpr ⟨Nat.zero_le w, hw⟩
  have hunits : (Instr.wayCleanDone h w).units = [(.shed, h), (.way, w)] := rfl
  simp [Instr.absent, hunits, hshed, hway]

theorem absent_wayPowerUpDone {h w : Nat} (hh : h < nSheds) (hw : w < 16) : (Instr.wayPowerUpDone h w).absent = none :=
  absent_wayCleanDone hh hw

/-- Settles O37: each command is its definition's, which the lemmas above say of the windows that the statement names. -/
theorem hayloftWindowTakesEffect : Obligations.HayloftWindowTakesEffect := by
  refine ⟨fun s hruns => ⟨fun h ha => exec_clean h s ha hruns, fun h ha => exec_inval h s ha hruns, fun h ha => exec_cleanShed h s ha hruns,
    fun h ha => exec_immutDrop h s ha hruns, fun h ha => exec_maintComplete h s ha hruns, fun h v ha => exec_wayLock h v s ha hruns,
    fun h v ha => exec_wayPwr h v s ha hruns, fun h w ha => exec_wayCleanDone h w s ha hruns,
    fun h w ha => exec_wayPowerUpDone h w s ha hruns⟩, fun s h hh hruns => ?_⟩
  have hclean := exec_clean h s (Instr.absent_of_unit_lt rfl rfl hh) hruns
  have hinval := exec_inval h s (Instr.absent_of_unit_lt rfl rfl hh) hruns
  have hcleanShed := exec_cleanShed h s (Instr.absent_of_unit_lt rfl rfl hh) hruns
  have himmutDrop := exec_immutDrop h s (Instr.absent_of_unit_lt rfl rfl hh) hruns
  refine ⟨?starts, ?busy, ?ends, ?locks, ?lockRefused, ?powers, ?powerRefused, ?gates, ?regains⟩
  case starts =>
    intro hidle
    simp (disch := decide) only [hclean, hinval, hcleanShed, himmutDrop, State.startMaint_idle hidle, and_self]
  case busy =>
    intro hbusy
    simp only [hclean, hinval, hcleanShed, himmutDrop, State.startMaint_busy _ hbusy, and_self]
  case ends =>
    intro hgo hvictims
    rw [exec_maintComplete h s (Instr.absent_of_unit_lt rfl rfl hh) hruns, doMaintComplete_ends hgo hvictims]
    refine ⟨_, rfl, ?_, maintained_mem s h, maintained_stalls s h, ?_, ?_, ?_, ?_⟩
    · rw [State.shed_updShed]
      rfl
    · rw [State.shed_updShed]
      rfl
    · intro hop hhome
      rw [State.maintained_inval hop hhome]
      exact State.forall_mem_sheds_updShed (P := fun x => ∀ l, ((s.shed h).maintLine, l) ∉ x.lines) (s.not_mem_dropLine _)
        (fun _ => List.not_mem_nil) h (fun _ hx => hx)
    · intro hop
      rw [State.maintained_cleanShed hop, State.shed_updShed]
      exact s.ne_M_of_mem_cleanAll h
    · intro hop
      rw [State.maintained_immutDrop hop]
      exact State.forall_mem_sheds_updShed (P := fun x => x.copies = []) s.copies_of_mem_dropCopies rfl h (fun _ hx => hx)
  case locks =>
    intro v hfew hpower hleft
    rw [exec_wayLock h v s (Instr.absent_of_unit_lt rfl rfl hh) hruns, State.updShed, Shed.writeLock_takes hfew hpower hleft]
  case lockRefused =>
    intro v hbad
    rw [exec_wayLock h v s (Instr.absent_of_unit_lt rfl rfl hh) hruns, State.updShed, Shed.writeLock_refuses hbad]
  case powers =>
    intro v hlock hleft
    rw [exec_wayPwr h v s (Instr.absent_of_unit_lt rfl rfl hh) hruns, State.updShed, Shed.writePwr_takes hlock hleft]
    exact ⟨_, rfl, rfl, rfl, rfl, rfl, rfl⟩
  case powerRefused =>
    intro v hbad
    rw [exec_wayPwr h v s (Instr.absent_of_unit_lt rfl rfl hh) hruns, State.updShed, Shed.writePwr_refuses hbad]
  case gates =>
    intro w hw hcleaning
    rw [exec_wayCleanDone h w s (absent_wayCleanDone hh hw) hruns, doWayCleanDone_gates hw hcleaning]
    refine ⟨_, rfl, ?_, ?_, ?_, ?_, writeBackAll_mem s _, writeBackAll_stalls s _⟩
    all_goals rw [State.shed_updShed, shed_of_writeBackAll]
    · exact (s.shed h).way_ne_of_mem_gateWay_lines w
    · exact (s.shed h).way_ne_of_mem_gateWay_copies w
    · rfl
    · rfl
  case regains =>
    intro w hw hpowering
    rw [exec_wayPowerUpDone h w s (absent_wayPowerUpDone hh hw) hruns, doWayPowerUpDone_powers hw hpowering]

end Sys2Proof.Machine
end

section
/-!
The values at reset (O11): every map of the state is empty at reset, so a read of a unit, an entry, a tally or a register is its default.
-/

namespace Sys2Proof.Machine

@[simp] theorem ent_reset (idx sub : Nat) : State.reset.ent idx sub = entryDefault (ekey idx sub) := rfl
@[simp] theorem tally_reset (t : Nat) : State.reset.tally t = tallyDefault t := rfl
@[simp] theorem xreg_reset (b off : Nat) : State.reset.xreg b off = (xlDefault (b * 1024 + off)).toNat := rfl
@[simp] theorem shed_reset (k : Nat) : State.reset.shed k = {} := rfl
@[simp] theorem stall_reset (k : Nat) : State.reset.stall k = {} := rfl
@[simp] theorem record_reset (k : Nat) : State.reset.record k = {} := rfl

/-- Settles O11: each read at reset is a default, and the defaults are the tables' values. -/
theorem resetValuesOfTheSpec : Obligations.ResetValuesOfTheSpec := by
  simp only [Obligations.ResetValuesOfTheSpec, ent_reset, tally_reset, xreg_reset, shed_reset, stall_reset, record_reset]
  decide

end Sys2Proof.Machine
end

section
/-!
Direct blocks (O18; 11 R252, R253, R263): the block that a search finds is the applied one of its number, and a miss in a direct block is
translated by its offset and fills the cache.
-/

namespace Sys2Proof.Machine

/-- The search answers a block's number with the block as applied. -/
theorem State.eq_blk_of_findBlk {s : State} {b va k i n : Nat} {x : Blk} (hfind : s.findBlk b va k i = some (n, x)) : x = s.blk 0x100 b n := by
  induction k generalizing i with
  | zero => cases hfind
  | succ k ih =>
    rw [State.findBlk] at hfind
    split at hfind
    · cases hfind
      rfl
    · exact ih hfind

section
variable {s : State} {u : TlbUnit} {b va n : Nat} {x : Blk} (hblk : s.findBlk b va 16 0 = some (n, x)) (hdirect : x.walked = false)
include hblk hdirect

/-- A direct block maps its whole range; no table is read. -/
theorem State.resolve_of_direct : s.resolve u b va = (s, .ok ⟨x.target + (va - x.vbase), n, x.vbase, x.size, x.target⟩) := by
  simp [State.resolve, hblk, hdirect]

theorem State.translate_of_direct (hmiss : tlbHit (s.tlb u) b va = none) :
    s.translate u b va = (s.fillTlb u ⟨b, n, x.vbase, x.size, x.target⟩, .ok (x.target + (va - x.vbase))) := by
  simp [State.translate, hmiss, State.resolve_of_direct hblk hdirect]

end

/-- Settles O18: the miss is resolved by the block's offset, and the block's target is what its applied register holds. -/
theorem directBlocksTranslateByOffset : Obligations.DirectBlocksTranslateByOffset := by
  intro s u b va n x hmiss hblk hdirect
  have htarget : x.target = nbits (s.xreg b (0x108 + 16 * n)) 51 12 * 2 ^ 12 := by
    rw [State.eq_blk_of_findBlk hblk]
    rfl
  rw [State.translate_of_direct hblk hdirect hmiss, ← htarget]
  exact ⟨rfl, rfl⟩

end Sys2Proof.Machine
end

section
/-!
The translation commands (O35; 11 R260, R261, R263, R266): a walk for a unit, and each command of a berth's page, by whether one runs. That a
completion without its cause changes nothing is log entry 7, and that it waits for every access of the berth log entry 119.
-/

namespace Sys2Proof.Machine

theorem doTlbWalk_walks {s : State} {u : TlbUnit} {b va n : Nat} {x : Blk} (hmiss : tlbHit (s.tlb u) b va = none)
    (hblk : s.findBlk b va 16 0 = some (n, x)) (hwalked : x.walked = true) : doTlbWalk u b va s = (s.translate u b va).1 := by
  simp only [doTlbWalk, hmiss, hblk, hwalked, if_true]

section
variable {s : State} {b : Nat}

/-! ### No command runs -/

section
variable (hidle : (s.xpage b).busy = false)
include hidle

theorem doXcommit_applies (hpass : s.xcheck b = 0) :
    doXcommit b s = ((s.xapply b).dropTranslations b none).setXpage b { s.xpage b with xgo := true, goSeq := s.seqNo } := by
  simp [doXcommit, hidle, hpass]

theorem doXcommit_reports (hfail : s.xcheck b ≠ 0) : doXcommit b s = s.setXpage b { s.xpage b with xresult := s.xcheck b } := by
  rw [doXcommit, if_neg (by simp [hidle])]
  split
  · contradiction
  · rfl

theorem doTlbiAll_drops :
    doTlbiAll b s = (s.dropTranslations b none).setXpage b { s.xpage b with top := 1, tgo := true, goSeq := s.seqNo } := by
  simp [doTlbiAll, hidle]

theorem doTlbiAddr_drops :
    doTlbiAddr b s = (s.dropTranslations b (some (s.xpage b).taddr)).setXpage b { s.xpage b with top := 2, tgo := true, goSeq := s.seqNo } := by
  simp [doTlbiAddr, hidle]

end

/-! ### A command runs -/

section
variable (hbusy : (s.xpage b).busy = true)
include hbusy

theorem doXcommit_busy : doXcommit b s = s := if_pos hbusy
theorem doTlbiAll_busy : doTlbiAll b s = s := if_pos hbusy
theorem doTlbiAddr_busy : doTlbiAddr b s = s := if_pos hbusy

theorem doTlbiComplete_completes (hperformed : s.openBefore b (s.xpage b).goSeq = false) :
    doTlbiComplete b s =
      s.setXpage b { s.xpage b with xgo := false, tgo := false, xresult := if (s.xpage b).xgo then 0 else (s.xpage b).xresult } := by
  simp [doTlbiComplete, hbusy, hperformed]

end

theorem doTlbiComplete_idle (h : (s.xpage b).busy = false ∨ s.openBefore b (s.xpage b).goSeq = true) : doTlbiComplete b s = s :=
  if_pos (by simpa using h)

end

/-- Settles O35: each command is its definition's, which the lemmas above say by whether a command of the page runs. -/
theorem translationCommandsTakeEffect : Obligations.TranslationCommandsTakeEffect := by
  refine ⟨fun s hruns => ⟨fun u b va sp ha => exec_tlbWalk u b va sp s ha hruns, fun b ha => exec_xcommit b s ha hruns,
    fun b ha => exec_tlbiAll b s ha hruns, fun b ha => exec_tlbiAddr b s ha hruns, fun b ha => exec_tlbiComplete b s ha hruns⟩,
    fun s b hb hruns => ?_⟩
  have hxcommit := exec_xcommit b s (Instr.absent_of_unit_lt rfl rfl hb) hruns
  have htlbiAll := exec_tlbiAll b s (Instr.absent_of_unit_lt rfl rfl hb) hruns
  have htlbiAddr := exec_tlbiAddr b s (Instr.absent_of_unit_lt rfl rfl hb) hruns
  have htlbiComplete := exec_tlbiComplete b s (Instr.absent_of_unit_lt rfl rfl hb) hruns
  refine ⟨?walks, ?applies, ?reports, ?drops, ?completes, ?busy, ?waits⟩
  case walks =>
    intro u va sp n x ha hmiss hblk hwalked
    rw [exec_tlbWalk u b va sp s ha hruns, doTlbWalk_walks hmiss hblk hwalked]
  case applies =>
    intro hidle hpass
    rw [hxcommit, doXcommit_applies hidle hpass]
  case reports =>
    intro hidle hfail
    rw [hxcommit, doXcommit_reports hidle hfail]
  case drops =>
    intro hidle
    rw [htlbiAll, htlbiAddr, doTlbiAll_drops hidle, doTlbiAddr_drops hidle]
    exact ⟨rfl, rfl⟩
  case completes =>
    intro hbusy hperformed
    rw [htlbiComplete, doTlbiComplete_completes hbusy hperformed]
  case busy =>
    intro hbusy
    rw [hxcommit, htlbiAll, htlbiAddr, doXcommit_busy hbusy, doTlbiAll_busy hbusy, doTlbiAddr_busy hbusy]
    exact ⟨rfl, rfl, rfl⟩
  case waits =>
    intro hwaits
    rw [htlbiComplete, doTlbiComplete_idle hwaits]

end Sys2Proof.Machine
end

section
/-!
The groom engine's commands (O40; 12 R278 to R287, Table 12.7): each command by the conditions of the phases it needs. That a command whose
conditions do not hold changes nothing is log entry 7.
-/

namespace Sys2Proof.Machine

section
variable {s : State} {b : Nat}

/-! ### Cycles and sweeps -/

theorem doMinorCycle_starts (hon : s.heapOn b = true) (hrun : (s.berth b).halted = false) (hminor : s.minorPhase b = 0) (hoff : s.oldPhase b ≠ 0)
    (hevac : s.oldPhase b ≠ 3) (hupd : s.oldPhase b ≠ 4) : doMinorCycle b s = (({ s := s, b := b } : Gc).startMark true).done := by
  simp [doMinorCycle, hon, hrun, hminor, hoff, hevac, hupd]

theorem doMinorCycle_idle (h : s.heapOn b = false ∨ (s.berth b).halted = true ∨ s.minorPhase b ≠ 0 ∨ s.oldPhase b = 0 ∨ s.oldPhase b = 3 ∨
    s.oldPhase b = 4) : doMinorCycle b s = s :=
  if_pos (by simpa [or_assoc] using h)

theorem doMajorCycle_pends (hon : s.heapOn b = true) (hrun : (s.berth b).halted = false) :
    doMajorCycle b s = (s.updBerth b (fun x => { x with pendMajor := true })).tryMajor b := by
  simp [doMajorCycle, hon, hrun]

theorem doMajorCycle_idle (h : s.heapOn b = false ∨ (s.berth b).halted = true) : doMajorCycle b s = s :=
  if_pos (by simpa using h)

theorem doSweep_starts (h : s.oldPhase b = 0 ∨ s.oldPhase b = 1) : doSweep b s = s.startSweep b := by
  obtain hphase | hphase := h <;> simp [doSweep, hphase]

theorem doSweep_waits (hcycle : 2 ≤ s.oldPhase b) (hsweep : s.oldPhase b ≠ 5) :
    doSweep b s = s.updBerth b (fun x => { x with pendSweep := true }) := by
  unfold doSweep
  split
  · omega
  · omega
  · contradiction
  · rfl

theorem doSweep_sweeping (hsweep : s.oldPhase b = 5) : doSweep b s = s := by
  simp [doSweep, hsweep]

theorem doSweepEnd_idle (hsweep : s.oldPhase b ≠ 5) : doSweepEnd b s = s :=
  if_pos (by simpa using hsweep)

/-! ### Statistics -/

theorem ent_foldl_setEnt_zero (i e : Nat) (l : List Nat) (s : State) :
    (l.foldl (fun s j => s.setEnt i j 0) s).ent i e = if e ∈ l then 0 else s.ent i e := by
  induction l generalizing s with
  | nil => rfl
  | cons j l ih =>
    rw [List.foldl_cons, ih, State.ent_setEnt_sub]
    by_cases he : e = j <;> simp [he]

theorem ent_doClearStatistics_cleared {e : Nat} (hlo : 0x59 ≤ e) (hhi : e ≤ 0x5F) : (doClearStatistics b s).ent (berthIdx b) e = 0 := by
  rw [doClearStatistics, ent_foldl_setEnt_zero, if_pos]
  simp only [List.mem_cons, List.not_mem_nil, or_false]
  omega

theorem ent_doClearStatistics_kept {e : Nat} (hlo : e < 0x59) : (doClearStatistics b s).ent (berthIdx b) e = s.ent (berthIdx b) e := by
  rw [doClearStatistics, ent_foldl_setEnt_zero, if_neg]
  simp only [List.mem_cons, List.not_mem_nil, or_false]
  omega

theorem doClearStatistics_mem : (doClearStatistics b s).mem = s.mem :=
  List.foldlRecOn (motive := fun t : State => t.mem = s.mem) _ _ rfl fun _ ht _ _ => ht

/-! ### The ends of the phases -/

/-- Marking does not end while a store waits in a merging buffer or the collector is halted. -/
theorem doMarkEnd_waits (minor : Bool) (h : s.anyBuffered b = true ∨ (s.berth b).halted = true) : doMarkEnd b minor s = s :=
  if_pos (by simpa using h)

theorem doMarkEnd_minor_idle (h : s.anyBuffered b = true ∨ (s.berth b).halted = true ∨ s.minorPhase b ≠ 1) : doMarkEnd b true s = s := by
  by_cases hwait : s.anyBuffered b = true ∨ (s.berth b).halted = true
  · exact doMarkEnd_waits true hwait
  · have hphase : s.minorPhase b ≠ 1 := by tauto
    rw [doMarkEnd, if_neg (by simpa using hwait), if_pos rfl, if_pos (by simpa using hphase)]

theorem doMarkEnd_old_idle (h : s.anyBuffered b = true ∨ (s.berth b).halted = true ∨ s.oldPhase b ≠ 2 ∨ s.minorPhase b ≠ 0) :
    doMarkEnd b false s = s := by
  by_cases hwait : s.anyBuffered b = true ∨ (s.berth b).halted = true
  · exact doMarkEnd_waits false hwait
  · have hphase : s.oldPhase b ≠ 2 ∨ s.minorPhase b ≠ 0 := by tauto
    rw [doMarkEnd, if_neg (by simpa using hwait), if_neg Bool.false_ne_true, if_pos (by simpa using hphase)]

theorem doEvacEnd_minor (hrun : (s.berth b).halted = false) (hphase : s.minorPhase b = 2) : doEvacEnd b true s = s.setPhase b 3 (s.oldPhase b) := by
  simp [doEvacEnd, hrun, hphase]

theorem doEvacEnd_old (hrun : (s.berth b).halted = false) (hphase : s.oldPhase b = 3) : doEvacEnd b false s = s.setPhase b (s.minorPhase b) 4 := by
  simp [doEvacEnd, hrun, hphase]

theorem doUpdateEnd_minor_idle (h : s.anyBuffered b = true ∨ (s.berth b).halted = true ∨ s.minorPhase b ≠ 3) : doUpdateEnd b true s = s := by
  by_cases hwait : s.anyBuffered b = true ∨ (s.berth b).halted = true
  · exact if_pos (by simpa using hwait)
  · have hphase : s.minorPhase b ≠ 3 := by tauto
    rw [doUpdateEnd, if_neg (by simpa using hwait), if_pos rfl, if_pos (by simpa using hphase)]

/-! ### Claims -/

theorem doObjClaim_free (n : Nat) (hfree : s.ent (berthIdx b) 0x56 ≠ 1) :
    doObjClaim b n s = (s.setEnt (berthIdx b) 0x56 1).updBerth b (fun x => { x with objReq := some n }) :=
  if_neg (by simpa using hfree)

theorem doObjClaim_busy (n : Nat) (hbusy : s.ent (berthIdx b) 0x56 = 1) : doObjClaim b n s = s :=
  if_pos (by simpa using hbusy)

theorem doObjStatusDone_none (hreq : (s.berth b).objReq = none) : doObjStatusDone b s = s := by
  simp [doObjStatusDone, hreq]

end

/-- A claim leaves the engine's hands. -/
def State.dropClaim (s : State) (b : Nat) : State := s.updBerth b (fun x => { x with objReq := none })

/-- A claim that a check of the collector or the mailbox refuses is counted, and answered by OBJ_STATUS `v`. -/
def State.refuseClaim (s : State) (b v : Nat) : State := ((s.dropClaim b).anomaly b 0 1).setEnt (berthIdx b) 0x56 v

section
variable (s : State) (b v : Nat)

@[simp] theorem State.heapOn_dropClaim : (s.dropClaim b).heapOn b = s.heapOn b := rfl
@[simp] theorem State.ent_dropClaim (i j : Nat) : (s.dropClaim b).ent i j = s.ent i j := rfl
@[simp] theorem State.berth_dropClaim : (s.dropClaim b).berth b = { s.berth b with objReq := none } := State.berth_setBerth _ _ _

@[simp] theorem State.ent_refuseClaim : (s.refuseClaim b v).ent (berthIdx b) 0x56 = v := State.ent_setEnt _ _ _ _
@[simp] theorem State.objReq_refuseClaim : ((s.refuseClaim b v).berth b).objReq = none :=
  congrArg Berth.objReq (s.berth_dropClaim b)
@[simp] theorem State.refuseClaim_mem : (s.refuseClaim b v).mem = s.mem := rfl

end

section
variable {s : State} {b n : Nat} (hreq : (s.berth b).objReq = some n)
include hreq

theorem doObjStatusDone_disabled (h : s.heapOn b = false ∨ (s.berth b).halted = true) : doObjStatusDone b s = s.refuseClaim b 6 := by
  rw [doObjStatusDone, hreq, ← State.dropClaim]
  exact if_pos (by simpa using h)

theorem doObjStatusDone_unaligned (hon : s.heapOn b = true) (hrun : (s.berth b).halted = false) (hmailbox : s.ent (berthIdx b) 0x54 % 16 ≠ 0) :
    doObjStatusDone b s = s.refuseClaim b 5 := by
  rw [doObjStatusDone, hreq, ← State.dropClaim]
  exact (if_neg (by simp [hon, hrun])).trans (if_pos (by simp [hmailbox]))

/-- A claim that finds its segment is answered by the chunk's capability in the mailbox. -/
theorem doObjStatusDone_claims {g : Gc} {c : Gran} (hon : s.heapOn b = true) (hrun : (s.berth b).halted = false)
    (hmailbox : s.ent (berthIdx b) 0x54 % 16 = 0) (hout : (s.dropClaim b).segOf b (s.ent (berthIdx b) 0x54) = none)
    (hmapped : ((s.dropClaim b).verVA b (s.ent (berthIdx b) 0x54)).isSome = true)
    (hclaim : (if n = 0 then Gc.claimChunk { s := s.dropClaim b, b := b } 2 0 else Gc.claimLarge { s := s.dropClaim b, b := b } n 0) = (g, .ok c))
    (hbad : g.bad = none) :
    doObjStatusDone b s = (((g.s.putVA (g.s.engUnit b (s.ent (berthIdx b) 0x54)) b (s.ent (berthIdx b) 0x54)
      (fun m => m.setGran c)).quotaEdge b).tryMinor b).setEnt (berthIdx b) 0x56 2 := by
  rw [doObjStatusDone, hreq, ← State.dropClaim]
  dsimp only
  rw [if_neg (by simp [hon, hrun]), if_neg (by simp [hmailbox, hout, Option.isSome_iff_ne_none.mp hmapped]), hclaim, hbad]
  rfl

end

/-- Settles O40: each command is its definition's, which the lemmas above say by the phase, the halted collector and the claim it finds. -/
theorem collectorCommandsTakeEffect : Obligations.CollectorCommandsTakeEffect := by
  refine ⟨fun s hruns => ⟨fun b ha => exec_minorCycle b s ha hruns, fun b ha => exec_majorCycle b s ha hruns, fun b ha => exec_sweep b s ha hruns,
    fun b ha => exec_clearStatistics b s ha hruns, fun b m ha => exec_markEnd b m s ha hruns, fun b m ha => exec_evacEnd b m s ha hruns,
    fun b m ha => exec_updateEnd b m s ha hruns, fun b ha => exec_sweepEnd b s ha hruns, fun b n ha => exec_objClaim b n s ha hruns,
    fun b ha => exec_objStatusDone b s ha hruns⟩, fun s b hb hruns => ?_⟩
  have hminorCycle := exec_minorCycle b s (Instr.absent_of_unit_lt rfl rfl hb) hruns
  have hmajorCycle := exec_majorCycle b s (Instr.absent_of_unit_lt rfl rfl hb) hruns
  have hsweep := exec_sweep b s (Instr.absent_of_unit_lt rfl rfl hb) hruns
  have hclear := exec_clearStatistics b s (Instr.absent_of_unit_lt rfl rfl hb) hruns
  have hmarkEnd m := exec_markEnd b m s (Instr.absent_of_unit_lt rfl rfl hb) hruns
  have hevacEnd m := exec_evacEnd b m s (Instr.absent_of_unit_lt rfl rfl hb) hruns
  have hupdateEnd m := exec_updateEnd b m s (Instr.absent_of_unit_lt rfl rfl hb) hruns
  have hsweepEnd := exec_sweepEnd b s (Instr.absent_of_unit_lt rfl rfl hb) hruns
  have hobjClaim n := exec_objClaim b n s (Instr.absent_of_unit_lt rfl rfl hb) hruns
  have hobjDone := exec_objStatusDone b s (Instr.absent_of_unit_lt rfl rfl hb) hruns
  refine ⟨?minor, ?minorIdle, ?major, ?majorIdle, ?sweep, ?sweepWaits, ?sweeping, ?clear, fun _ _ _ => hmarkEnd true, fun _ _ _ _ => hmarkEnd false,
    ?markMinorIdle, ?markOldIdle, ?evacMinor, ?evacOld, fun _ _ _ => hupdateEnd true, fun _ _ _ => hupdateEnd false, ?updateIdle, fun _ => hsweepEnd,
    ?sweepEndIdle, ?claim, ?claimBusy, ?disabled, ?unaligned, ?claims, ?noClaim⟩
  case minor =>
    intro hon hrun hminor hoff hevac hupd
    rw [hminorCycle, doMinorCycle_starts hon hrun hminor hoff hevac hupd]
  case minorIdle =>
    intro h
    rw [hminorCycle, doMinorCycle_idle h]
  case major =>
    intro hon hrun
    rw [hmajorCycle, doMajorCycle_pends hon hrun]
  case majorIdle =>
    intro h
    rw [hmajorCycle, doMajorCycle_idle h]
  case sweep =>
    intro h
    rw [hsweep, doSweep_starts h]
  case sweepWaits =>
    intro hcycle hphase
    rw [hsweep, doSweep_waits hcycle hphase]
  case sweeping =>
    intro hphase
    rw [hsweep, doSweep_sweeping hphase]
  case clear =>
    exact ⟨_, hclear, fun e hlo hhi => ent_doClearStatistics_cleared hlo hhi, fun e he => ent_doClearStatistics_kept he, doClearStatistics_mem⟩
  case markMinorIdle =>
    intro h
    rw [hmarkEnd, doMarkEnd_minor_idle h]
  case markOldIdle =>
    intro h
    rw [hmarkEnd, doMarkEnd_old_idle h]
  case evacMinor =>
    intro hrun hphase
    rw [hevacEnd, doEvacEnd_minor hrun hphase]
  case evacOld =>
    intro hrun hphase
    rw [hevacEnd, doEvacEnd_old hrun hphase]
  case updateIdle =>
    intro h
    rw [hupdateEnd, doUpdateEnd_minor_idle h]
  case sweepEndIdle =>
    intro hphase
    rw [hsweepEnd, doSweepEnd_idle hphase]
  case claim =>
    intro n hfree
    rw [hobjClaim, doObjClaim_free n hfree]
  case claimBusy =>
    intro n hbusy
    rw [hobjClaim, doObjClaim_busy n hbusy]
  case disabled =>
    intro n hreq h
    exact ⟨_, hobjDone.trans (by rw [doObjStatusDone_disabled hreq h]), by simp, by simp, by simp⟩
  case unaligned =>
    intro n hreq hon hrun hmailbox
    exact ⟨_, hobjDone.trans (by rw [doObjStatusDone_unaligned hreq hon hrun hmailbox]), by simp, by simp, by simp⟩
  case claims =>
    rintro n c _ g hreq hon hrun hmailbox rfl hout hmapped hclaim hbad
    rw [hobjDone, doObjStatusDone_claims hreq hon hrun hmailbox hout hmapped hclaim hbad]
  case noClaim =>
    intro hreq
    rw [hobjDone, doObjStatusDone_none hreq]

end Sys2Proof.Machine
end

section
/-!
What an access of an engine to memory leaves alone (O50; 12 R288): a read through ports, haylofts and translation changes no berth, and a read
of the reference tables that fails halts the collector, which keeps the tables.
-/

namespace Sys2Proof.Machine

/-- `t` is `s` but for what reads of memory change: granules, ports, haylofts, translation caches, entries, error lines and free values. -/
def State.SameButMemory (s t : State) : Prop :=
  ∃ fresh sheds mem ports xpages tlbs walkc dict errorLines,
    t = { s with fresh := fresh, sheds := sheds, mem := mem, ports := ports, xpages := xpages, tlbs := tlbs, walkc := walkc, dict := dict,
                 errorLines := errorLines }

namespace State.SameButMemory

theorem refl (s : State) : s.SameButMemory s := ⟨_, _, _, _, _, _, _, _, _, rfl⟩

theorem trans {s t u : State} (h : s.SameButMemory t) (h' : t.SameButMemory u) : s.SameButMemory u := by
  obtain ⟨_, _, _, _, _, _, _, _, _, rfl⟩ := h
  obtain ⟨_, _, _, _, _, _, _, _, _, rfl⟩ := h'
  exact ⟨_, _, _, _, _, _, _, _, _, rfl⟩

theorem foldl {α : Type} {f : State → α → State} (hf : ∀ (s : State) a, s.SameButMemory (f s a)) (l : List α) (s : State) :
    s.SameButMemory (l.foldl f s) :=
  List.foldlRecOn l f (refl s) fun t ht a _ => ht.trans (hf t a)

/-- One of two outcomes. -/
theorem ite {α : Type} {c : Prop} [Decidable c] {s : State} {x y : State × α} (hx : s.SameButMemory x.1) (hy : s.SameButMemory y.1) :
    s.SameButMemory (if c then x else y).1 := by
  split
  · exact hx
  · exact hy

theorem ite_state {c : Prop} [Decidable c] {s x y : State} (hx : s.SameButMemory x) (hy : s.SameButMemory y) :
    s.SameButMemory (if c then x else y) := by
  split
  · exact hx
  · exact hy

theorem berth_eq {s t : State} (h : s.SameButMemory t) (b : Nat) : t.berth b = s.berth b := by
  obtain ⟨_, _, _, _, _, _, _, _, _, rfl⟩ := h
  rfl

end State.SameButMemory

section
variable (s : State)

/-! ### Granules and ports -/

theorem State.mset_sameButMemory (k : Nat) (m : MGran) : s.SameButMemory (s.mset k m) := ⟨_, _, _, _, _, _, _, _, _, rfl⟩
theorem State.bump_sameButMemory (i j w n : Nat) : s.SameButMemory (s.bump i j w n) := ⟨_, _, _, _, _, _, _, _, _, rfl⟩
theorem State.setWcache_sameButMemory (w : Nat) (l : List WalkEntry) : s.SameButMemory (s.setWcache w l) := ⟨_, _, _, _, _, _, _, _, _, rfl⟩
theorem State.countWalk_sameButMemory (b : Nat) (faulted : Bool) : s.SameButMemory (s.countWalk b faulted) := ⟨_, _, _, _, _, _, _, _, _, rfl⟩
theorem State.fillTlb_sameButMemory (u : TlbUnit) (e : TlbEntry) : s.SameButMemory (s.fillTlb u e) := ⟨_, _, _, _, _, _, _, _, _, rfl⟩

theorem State.injected_sameButMemory (bit : Nat) : s.SameButMemory (s.injected bit).1 :=
  .ite ⟨_, _, _, _, _, _, _, _, _, rfl⟩ (.refl s)

theorem State.injectLine_sameButMemory (p shed : Nat) (held : Bool) : s.SameButMemory (s.injectLine p shed held).1 :=
  .ite (s.injected_sameButMemory shed) (.ite (s.injected_sameButMemory _) ((s.injected_sameButMemory _).trans (injected_sameButMemory _ _)))

theorem State.decodeAt_sameButMemory (p pda shed : Nat) (held : Bool) : s.SameButMemory (s.decodeAt p pda shed held).1 :=
  .ite (s.injectLine_sameButMemory p shed held) (.refl s)

theorem State.corrected_sameButMemory (p pda : Nat) (held : Bool) (shed : Nat) (m : MGran) : s.SameButMemory (s.corrected p pda held shed m) :=
  .ite_state ⟨_, _, _, _, _, _, _, _, _, rfl⟩ ⟨_, _, _, _, _, _, _, _, _, rfl⟩

theorem State.badGranule_sameButMemory (p pda pa shed : Nat) (held poison : Bool) : s.SameButMemory (s.badGranule p pda pa shed held poison) := by
  cases held <;> exact ⟨_, _, _, _, _, _, _, _, _, rfl⟩

theorem State.poisonAt_sameButMemory (p pda : Nat) (held : Bool) : s.SameButMemory (s.poisonAt p pda held) :=
  .ite_state (s.mset_sameButMemory _ _) (.refl s)

theorem State.readPA_sameButMemory (shed pa : Nat) : s.SameButMemory (s.readPA shed pa).1 := by
  unfold State.readPA
  split
  · exact .refl s
  next p pda _ =>
    dsimp only
    generalize s.holder shed (pa / 64) = sh
    generalize s.lineHeld (pa / 64) = held
    split
    · exact .refl s
    next q more _ =>
      have hq := s.decodeAt_sameButMemory q pda sh held
      generalize s.decodeAt q pda sh held = dq at hq ⊢
      obtain ⟨s1, d, m⟩ := dq
      have hfail (t : State) (h : s.SameButMemory t) : s.SameButMemory ((t.badGranule q pda pa sh held (d == .poison)).poisonAt q pda held) :=
        (h.trans (t.badGranule_sameButMemory _ _ _ _ _ _)).trans (State.poisonAt_sameButMemory _ _ _ _)
      cases d with
      | clean => exact hq
      | corrected => exact hq.trans (s1.corrected_sameButMemory _ _ _ _ _)
      | _ =>
        dsimp only
        split
        · exact hfail s1 hq
        next r _ _ =>
          have hr := hq.trans (s1.decodeAt_sameButMemory r pda sh held)
          generalize s1.decodeAt r pda sh held = dr at hr ⊢
          obtain ⟨s2, d2, m2⟩ := dr
          cases d2 with
          | clean => exact hr.trans ⟨_, _, _, _, _, _, _, _, _, rfl⟩
          | corrected => exact (hr.trans (s2.corrected_sameButMemory _ _ _ _ _)).trans ⟨_, _, _, _, _, _, _, _, _, rfl⟩
          | _ => exact hfail s2 hr

theorem State.firstErr_sameButMemory (p pda : Nat) : s.SameButMemory (s.firstErr p pda) := by
  unfold State.firstErr
  dsimp only
  split <;> exact ⟨_, _, _, _, _, _, _, _, _, rfl⟩

theorem State.useSidecar_sameButMemory (p pda : Nat) (wr : Bool) : s.SameButMemory (s.useSidecar p pda wr) := by
  unfold State.useSidecar
  dsimp only
  split <;> exact ⟨_, _, _, _, _, _, _, _, _, rfl⟩

/-! ### Haylofts -/

theorem State.writeBack_sameButMemory (line : Nat) : s.SameButMemory (s.writeBack line) := by
  unfold State.writeBack
  split
  · exact .refl s
  · exact .foldl (fun s q => .ite_state ((s.useSidecar_sameButMemory _ _ _).trans (bump_sameButMemory _ _ _ _ _)) (s.firstErr_sameButMemory _ _)) _ s

/-- A line taken back by its dirty copy's write-back. -/
theorem State.cleaned_sameButMemory (line : Nat) : s.SameButMemory (if s.dirty line then s.writeBack line else s) :=
  .ite_state (s.writeBack_sameButMemory line) (.refl s)

theorem State.dropLine_sameButMemory (line : Nat) : s.SameButMemory (s.dropLine line) :=
  (s.cleaned_sameButMemory line).trans ⟨_, _, _, _, _, _, _, _, _, rfl⟩

theorem State.shareOthers_sameButMemory (me line : Nat) : s.SameButMemory (s.shareOthers me line) :=
  (s.cleaned_sameButMemory line).trans ⟨_, _, _, _, _, _, _, _, _, rfl⟩

theorem State.dirRoom_sameButMemory (line : Nat) : s.SameButMemory (s.dirRoom line) := by
  unfold State.dirRoom
  dsimp only
  split
  · exact .refl s
  · split
    · exact (s.dropLine_sameButMemory _).trans ⟨_, _, _, _, _, _, _, _, _, rfl⟩
    · exact .refl s

theorem State.fillLine_sameButMemory (shed b line : Nat) (st : LState) : s.SameButMemory (s.fillLine shed b line st) := by
  unfold State.fillLine
  split
  · exact .refl s
  · dsimp only
    split
    · exact s.dirRoom_sameButMemory line
    · exact (s.dirRoom_sameButMemory line).trans ⟨_, _, _, _, _, _, _, _, _, rfl⟩

theorem State.portRead_sameButMemory (shed line gi : Nat) : s.SameButMemory (s.portRead shed line gi) := by
  unfold State.portRead
  split
  · exact .refl s
  · split
    · exact ((s.useSidecar_sameButMemory _ _ _).trans (bump_sameButMemory _ _ _ _ _)).trans
        (.foldl (fun s i => .ite_state (.refl s) (s.readPA_sameButMemory _ _)) _ _)
    · exact .refl s

theorem State.touchRead_sameButMemory (shed b line gi : Nat) : s.SameButMemory (s.touchRead shed b line gi) := by
  have hread := s.portRead_sameButMemory shed line gi
  exact .ite_state (.refl s)
    (.ite_state hread ((hread.trans (shareOthers_sameButMemory _ _ _)).trans (fillLine_sameButMemory _ _ _ _ _)))

/-! ### Translation -/

theorem State.readVia_sameButMemory (u : TlbUnit) (b pa : Nat) : s.SameButMemory (s.readVia u b pa).1 := by
  have hread := s.readPA_sameButMemory (unitShed u) pa
  unfold State.readVia
  dsimp only
  split
  · exact hread
  · split
    · exact .ite_state (((hread.trans (portRead_sameButMemory _ _ _ _))).trans (shareOthers_sameButMemory _ _ _))
        (hread.trans (portRead_sameButMemory _ _ _ _))
    · exact hread.trans (touchRead_sameButMemory _ _ _ _ _)

theorem State.walkFrom_sameButMemory (u : TlbUnit) (b va n : Nat) (x : Blk) (k t : Nat) : s.SameButMemory (s.walkFrom u b va n x k t).1 := by
  induction k generalizing s t with
  | zero => exact .refl s
  | succ k ih =>
    unfold State.walkFrom
    extract_lets w idx p r sz
    have hread : s.SameButMemory r.1 := s.readVia_sameButMemory u b _
    clear_value r
    refine .ite (.refl s) (.ite (.refl s) ?_)
    split
    · exact hread
    extract_lets e v base ent c
    refine .ite hread (.ite hread (.ite hread (.ite ?leaf ?table)))
    case leaf => exact .ite hread (.ite hread (.ite hread hread))
    case table => exact .ite hread ((hread.trans (setWcache_sameButMemory _ _ _)).trans (ih _ _))

theorem State.resolve_sameButMemory (u : TlbUnit) (b va : Nat) : s.SameButMemory (s.resolve u b va).1 := by
  unfold State.resolve
  split
  · exact .refl s
  next n x _ =>
    refine .ite ?_ (.refl s)
    extract_lets st s1 r
    have hwalk : s.SameButMemory r.1 := (s.setWcache_sameButMemory _ _).trans (walkFrom_sameButMemory _ _ _ _ _ _ _ _)
    split
    · exact (hwalk.trans ⟨_, _, _, _, _, _, _, _, _, rfl⟩).trans (countWalk_sameButMemory _ _ _)
    · exact hwalk.trans (countWalk_sameButMemory _ _ _)

theorem State.translate_sameButMemory (u : TlbUnit) (b va : Nat) : s.SameButMemory (s.translate u b va).1 := by
  have hresolve := s.resolve_sameButMemory u b va
  unfold State.translate
  split
  · exact .refl s
  · dsimp only
    split
    · exact hresolve
    · exact hresolve.trans (fillTlb_sameButMemory _ _ _)

/-! ### The engine and its tables -/

@[simp] theorem State.exports_berthEvent (b code : Nat) (w0 w1 : Word64) : ((s.berthEvent b code w0 w1).berth b).exports = (s.berth b).exports := by
  unfold State.berthEvent
  split
  · simp [State.updBerth]
  · rfl

@[simp] theorem State.exports_haltGc (b va : Nat) (e : Exc) : ((s.haltGc b va e).berth b).exports = (s.berth b).exports := by
  unfold State.haltGc
  split
  · rfl
  · simp [State.updBerth, State.setPhase]

theorem State.exports_engHeap (b va : Nat) : ((s.engHeap b va).1.berth b).exports = (s.berth b).exports := by
  have htrans := (s.translate_sameButMemory (s.engUnit b va) b va).berth_eq b
  have hread pa := (State.readVia_sameButMemory (s.translate (s.engUnit b va) b va).1 (s.engUnit b va) b pa).berth_eq b
  unfold State.engHeap
  dsimp only
  split
  · simp [htrans]
  · split
    · dsimp only
      split <;> simp [State.anomaly, hread, htrans]
    · simp [hread, htrans]

/-- An access to the reference tables keeps the exports that they hold. -/
@[simp] theorem State.exports_tableTouch (b i : Nat) : ((s.tableTouch b i).berth b).exports = (s.berth b).exports :=
  (State.exports_engHeap _ _ _).trans (s.exports_engHeap _ _)

end

end Sys2Proof.Machine
end

section
/-!
Reference listing (O50; 12 R290, R291; 15 R360): what LIST, DROP and XACK make of the tables of the berth that their charter is bound to. That an
entry of the resent table younger than 1,024 microseconds does not end is log entry 7.
-/

namespace Sys2Proof.Machine

theorem listFind_eq_none_of_any {α : Type} {p : α → Bool} {l : List α} (h : l.any p = false) : listFind p l = none := by
  induction l with
  | nil => rfl
  | cons x l ih =>
    obtain ⟨hx, hl⟩ := Bool.or_eq_false_iff.mp (List.any_cons.symm.trans h)
    simp [listFind, hx, ih hl]

theorem exists_listFind_of_any {α : Type} {p : α → Bool} {l : List α} (h : l.any p = true) : ∃ i, listFind p l = some i := by
  induction l with
  | nil => contradiction
  | cons x l ih =>
    by_cases hx : p x = true
    · exact ⟨0, if_pos hx⟩
    · obtain ⟨i, hi⟩ := ih (by simpa [hx] using h)
      exact ⟨i + 1, by simp [listFind, hx, hi]⟩

/-! ### LIST -/

/-- The table of exports counts a LIST: in the entry of the key and its sender, or in a new one, that a full table takes too. -/
def State.listExport (s : State) (b home gran peer lo hi n : Nat) : State :=
  (s.countExport b home gran peer lo hi n).getD
    (s.setBerth b { s.berth b with exports := (s.berth b).exports ++ [{ home := home, gran := gran, peer := peer, count := n, lo := lo, hi := hi }] })

section
variable {s : State} {b home gran peer : Nat} (lo hi n : Nat)

theorem State.exports_listExport_found (hany : (s.berth b).exports.any (fun e => e.home == home && e.gran == gran && e.peer == peer) = true) :
    ((s.listExport b home gran peer lo hi n).berth b).exports = (s.berth b).exports.map (fun e =>
      if e.home = home ∧ e.gran = gran ∧ e.peer = peer then { e with count := e.count + n, lo := min e.lo lo, hi := max e.hi hi } else e) := by
  obtain ⟨i, hi⟩ := exists_listFind_of_any hany
  simp [State.listExport, State.countExport, Berth.exportAt, hi]

theorem State.exports_listExport_new (hany : (s.berth b).exports.any (fun e => e.home == home && e.gran == gran && e.peer == peer) = false) :
    ((s.listExport b home gran peer lo hi n).berth b).exports =
      (s.berth b).exports ++ [{ home := home, gran := gran, peer := peer, count := n, lo := lo, hi := hi }] := by
  simp only [State.listExport, State.countExport, Berth.exportAt, listFind_eq_none_of_any hany]
  split <;> simp

end

theorem State.takeList_of_charter {s : State} {p : Pkt} {b : Nat} (hcharter : s.charterBerth p.charter = some b) :
    ∃ lo hi, s.takeList p = (s.listExport b (p.key / 2 ^ 48) (p.key % 2 ^ 44) p.src lo hi p.count).keyed ptXACK p.src p.charter (p.key / 2 ^ 48)
      (p.key % 2 ^ 44) p.count := by
  unfold State.takeList
  rw [hcharter]
  exact ⟨_, _, rfl⟩

/-! ### DROP -/

theorem State.takeDrop_of_charter {s : State} {p : Pkt} {b : Nat} (hfirst : p.resent = false) (hcharter : s.charterBerth p.charter = some b) :
    s.takeDrop p = s.onExport b (p.key / 2 ^ 48) (p.key % 2 ^ 44) p.src (· - p.count) := by
  simp [State.takeDrop, hfirst, hcharter]

theorem State.takeDrop_resent {s : State} {p : Pkt} (hresent : p.resent = true) : s.takeDrop p = s.bump 0x5000 0x1E 64 1 := if_pos hresent

/-! ### XACK -/

theorem State.takeXack_resent {s : State} {p : Pkt} (hresent : p.resent = true) : s.takeXack p = s.bump 0x5000 0x1E 64 1 := if_pos hresent

/-- The import entry of a key counts `n` more capabilities and is no longer pending. -/
def State.countImport (s : State) (b home gran n : Nat) : State :=
  s.setBerth b { s.berth b with imports := (s.berth b).imports.map (fun i =>
    if i.home == home && i.gran == gran then { i with count := i.count + n, pending := false, waitAck := none } else i) }

section
variable {s : State} {p : Pkt} {b : Nat} (hfirst : p.resent = false) (hcharter : s.charterBerth p.charter = some b)
include hfirst hcharter

section
variable {e : XEntry} (hpending : (s.berth b).imports.find? (fun e =>
  (e.home == p.key / 2 ^ 48 && e.gran == p.key % 2 ^ 44) && e.pending && p.src == p.key / 2 ^ 48) = some e)
include hpending

/-- The home has counted an import that no other node brought. -/
theorem State.takeXack_of_home (hwait : e.waitAck = none) :
    s.takeXack p = s.countImport b (p.key / 2 ^ 48) (p.key % 2 ^ 44) p.count := by
  rw [State.takeXack, if_neg (by simp [hfirst]), hcharter]
  dsimp only
  rw [hpending]
  dsimp only
  rw [hwait, State.countImport]

/-- The home has counted an import that node `n` brought, which is told. -/
theorem State.takeXack_of_home_relayed {n ch : Nat} (hwait : e.waitAck = some (n, ch)) :
    s.takeXack p = (s.countImport b (p.key / 2 ^ 48) (p.key % 2 ^ 44) p.count).keyed ptXACK n ch (p.key / 2 ^ 48) (p.key % 2 ^ 44) 1 := by
  rw [State.takeXack, if_neg (by simp [hfirst]), hcharter]
  dsimp only
  rw [hpending]
  dsimp only
  rw [hwait, State.countImport]

end

/-- A receiver has counted what this node relayed to it: the relay entry and HOLD fall. -/
theorem State.takeXack_of_receiver (hpending : (s.berth b).imports.find? (fun e =>
      (e.home == p.key / 2 ^ 48 && e.gran == p.key % 2 ^ 44) && e.pending && p.src == p.key / 2 ^ 48) = none)
    (hrelay : (s.berth b).exports.any (fun e => (e.home == p.key / 2 ^ 48 && e.gran == p.key % 2 ^ 44) && e.peer == p.src) = true)
    (hremote : p.key / 2 ^ 48 ≠ s.nodeId) :
    s.takeXack p = (s.onExport b (p.key / 2 ^ 48) (p.key % 2 ^ 44) p.src (· - p.count)).updBerth b (fun y => { y with imports := y.imports.map (fun i =>
      if i.home == p.key / 2 ^ 48 && i.gran == p.key % 2 ^ 44 then { i with hold := i.hold - p.count } else i) }) := by
  rw [State.takeXack, if_neg (by simp [hfirst]), hcharter]
  dsimp only
  rw [hpending, hrelay]
  exact if_pos (by simpa using hremote)

end

/-! ### The resent table -/

theorem doResentEntryExpiry_due {s : State} {i : Nat} {e : Nat × Nat × Nat × Nat} (hat : listAt s.resent i = some e) (hdue : e.2.2.2 + 102400 ≤ s.time) :
    doResentEntryExpiry i s = { s with resent := listDel s.resent i } := by
  simp [doResentEntryExpiry, hat, hdue]

theorem doResentEntryExpiry_young {s : State} {i : Nat} {e : Nat × Nat × Nat × Nat} (hat : listAt s.resent i = some e)
    (hyoung : s.time < e.2.2.2 + 102400) : doResentEntryExpiry i s = s := by
  simp [doResentEntryExpiry, hat, hyoung]

/-- Settles O50: each command is its definition's, which the lemmas above say by the packet at the front and the entries it finds. -/
theorem referencesAreListed : Obligations.ReferencesAreListed := by
  refine ⟨fun s hruns => ⟨exec_list s hruns, exec_drop s hruns, exec_xack s hruns, fun i => exec_resentEntryExpiry i s hruns⟩,
    fun s s1 p b hruns => ?_⟩
  have hlist (hnext : s.nextOf ptLIST = some (p, s1)) : exec .list s = .next (s.after (s1.takeList p)) := by
    rw [exec_list s hruns, doList, hnext]
  have hdrop (hnext : s.nextOf ptDROP = some (p, s1)) : exec .drop s = .next (s.after (s1.takeDrop p)) := by
    rw [exec_drop s hruns, doDrop, hnext]
  have hxack (hnext : s.nextOf ptXACK = some (p, s1)) : exec .xack s = .next (s.after (s1.takeXack p)) := by
    rw [exec_xack s hruns, doXack, hnext]
  refine ⟨?list, ?drop, ?dropResent, ?xackResent, ?home, ?receiver, ?due, ?young⟩
  case list =>
    intro hnext hcharter
    obtain ⟨lo, hi, htake⟩ := State.takeList_of_charter hcharter
    refine ⟨s1.listExport b (p.key / 2 ^ 48) (p.key % 2 ^ 44) p.src lo hi p.count, by rw [hlist hnext, htake], fun hany => ?_, fun hany => ?_⟩
    · rw [State.exports_listExport_found lo hi p.count hany, List.map_map]
      refine List.map_congr_left fun e _ => ?_
      by_cases hsame : e.home = p.key / 2 ^ 48 ∧ e.gran = p.key % 2 ^ 44 ∧ e.peer = p.src
      · simp only [Function.comp, if_pos hsame]
      · simp only [Function.comp, if_neg hsame]
    · rw [State.exports_listExport_new lo hi p.count hany, List.map_append, List.map_singleton]
  case drop =>
    intro hnext hfirst hcharter
    rw [hdrop hnext, State.takeDrop_of_charter hfirst hcharter]
  case dropResent =>
    intro hnext hresent
    rw [hdrop hnext, State.takeDrop_resent hresent]
  case xackResent =>
    intro hnext hresent
    rw [hxack hnext, State.takeXack_resent hresent]
  case home =>
    rintro e _ hnext hfirst hcharter hpending rfl
    refine ⟨fun hwait => ?_, fun n ch hwait => ?_⟩
    · rw [hxack hnext, State.takeXack_of_home hfirst hcharter hpending hwait, State.countImport]
    · rw [hxack hnext, State.takeXack_of_home_relayed hfirst hcharter hpending hwait, State.countImport]
  case receiver =>
    intro hnext hfirst hcharter hpending hrelay hremote
    rw [hxack hnext, State.takeXack_of_receiver hfirst hcharter hpending hrelay hremote]
  case due =>
    intro i e hat hdue
    rw [exec_resentEntryExpiry i s hruns, doResentEntryExpiry_due hat hdue]
  case young =>
    intro i e hat hyoung
    rw [exec_resentEntryExpiry i s hruns, doResentEntryExpiry_young hat hyoung]

end Sys2Proof.Machine
end

section
/-!
The queue and the domains (O1, O2, O3, O6, O7): what a step makes of the queue, and which commands a reset or a mooring holds still. The order of
the queue, the tick on an empty one and the three domains are the model's choices (log entries 1, 2 and 4).
-/

namespace Sys2Proof.Machine

/-! ### The empty queue -/

/-- A tick counts and rouses records, nothing else. -/
theorem State.tick_eq (s : State) : ∃ records sheds, s.tick = { s with time := s.time + 1, records := records, sheds := sheds } := by
  unfold State.tick
  refine List.foldlRecOn (motive := fun t : State => ∃ records sheds, t = { s with time := s.time + 1, records := records, sheds := sheds }) _ _
    ⟨_, _, rfl⟩ fun t ht e _ => ?_
  obtain ⟨records, sheds, rfl⟩ := ht
  obtain ⟨records', sheds', hwake⟩ := State.wakeRecord_eq
    (State.updRecord { s with time := s.time + 1, records := records, sheds := sheds } e.1 fun r => { r with timp := true }) e.1
  exact ⟨records', sheds', hwake⟩

/-- Settles O2: with no command to run, a step is a tick. That it ticks on an empty queue is log entry 2. -/
theorem emptyQueueCountsATick : Obligations.EmptyQueueCountsATick := by
  intro s hempty
  obtain ⟨records, sheds, htick⟩ := s.tick_eq
  refine ⟨s.tick, step_empty s hempty, ?_⟩
  rw [htick]
  exact ⟨rfl, rfl, rfl, rfl, rfl, rfl, rfl, rfl, rfl, rfl, rfl, rfl, hempty⟩

/-! ### The front of the queue -/

/-- Settles O1: the queue's order is log entry 1. -/
theorem stepRunsTheFrontCommand : Obligations.StepRunsTheFrontCommand := step_front

/-- A command that does not stop leaves the queue as it is: an absent unit is a fault, and any other command answers with the queue it found. -/
theorem exec_pending {c : Instr} {s t : State} (h : exec c s = .next t) : t.pending = s.pending := by
  cases hc : c.absent with
  | some u =>
    have hfault := exec_fault_of_absent c s (by simp [hc])
    rw [hfault] at h
    contradiction
  | none =>
    obtain ⟨u, hu, hpending⟩ := exec_next_of_present c s hc
    rw [hu] at h
    cases h
    exact hpending

/-- Settles O3: a command runs on the rest of the queue, which it leaves; a tick leaves the empty queue. -/
theorem everyStepTakesTheFront : Obligations.EveryStepTakesTheFront := by
  intro s t hstep
  cases hq : s.pending with
  | cons c rest =>
    rw [step_front s c rest hq] at hstep
    exact exec_pending hstep
  | nil =>
    obtain ⟨records, sheds, htick⟩ := s.tick_eq
    rw [step_empty s hq, htick] at hstep
    cases hstep
    exact hq

/-! ### The domains -/

/-- Where a command acts (log entry 4): the pins and the test access port always, the helm out of reset, all else out of reset and not moored. -/
def runsIn (c : Instr) (s : State) : Bool :=
  match c.actsInReset, c.ofHelm with
  | true, _ => true
  | false, true => s.helmRuns
  | false, false => s.coreRuns

/-- Every meaning is a command of its domain: the arms of `exec`, one by one. -/
theorem exec_is_of_domain (c : Instr) : ∃ f, ∀ s, exec c s = command c (runsIn c) f s := by
  cases c <;> exact ⟨_, fun _ => rfl⟩

theorem exec_idle {c : Instr} {s : State} (hpresent : c.absent = none) (hidle : runsIn c s = false) : exec c s = .next s := by
  obtain ⟨f, hexec⟩ := exec_is_of_domain c
  rw [hexec, command_idle c _ f s hpresent hidle]

/-- Settles O6: neither the helm nor the cores run in reset. -/
theorem resetHoldsTheDeviceStill : Obligations.ResetHoldsTheDeviceStill := by
  intro c s hreset hpresent hpins
  refine exec_idle hpresent ?_
  cases hhelm : c.ofHelm
  · simp [runsIn, hpins, hhelm, State.coreRuns, hreset]
  · simp [runsIn, hpins, hhelm, State.helmRuns, hreset]

/-- Settles O7: the cores do not run while the device is moored. -/
theorem mooredHoldsTheCoresStill : Obligations.MooredHoldsTheCoresStill := by
  intro c s hmoored hpresent hhelm hpins
  refine exec_idle hpresent ?_
  simp [runsIn, hpins, hhelm, State.coreRuns, hmoored]

end Sys2Proof.Machine
end

section
/-!
Stores behind the ports (O19; 13 R301, R308): which granules of which ports a store of one granule changes.
-/

namespace Sys2Proof.Machine

theorem State.writePA_of_locate {s : State} {pa p pda : Nat} (hlocate : s.locate pa = some (p, pda)) (m : MGran) :
    s.writePA pa m = s.writeAt p pda m := by
  rw [State.writePA, hlocate]

/-- By induction on the ports that take the write: a later one writes the same granule under its own key. -/
theorem writeAt_same (s : State) (p pda : Nat) (m : MGran) {q : Nat} (hq : q ∈ s.writePorts p) : (s.writeAt p pda m).mget (mkey q pda) = m := by
  refine foldl_establishes (R := fun t u : State => t.mget (mkey q pda) = m → u.mget (mkey q pda) = m)
    (P := fun t r => r = q → t.mget (mkey q pda) = m) (fun _ => id) (fun h h' => h' ∘ h) ?_ ?_ (fun h hP hr => h (hP hr)) _ _ hq rfl
  · intro t r ht
    by_cases hkey : mkey q pda = mkey r pda
    · rw [hkey, State.mget_mset]
    · rw [State.mget_mset_other _ _ hkey, ht]
  · rintro t r rfl
    exact State.mget_mset _ _ _

/-- Settles O19: a store is a write of its granule at each port that takes it. -/
theorem granuleStoresReachTheirPort : Obligations.GranuleStoresReachTheirPort := by
  intro s pa p pda m hlocate
  have hsame : ∀ q ∈ s.writePorts p, (s.writePA pa m).mget (mkey q pda) = m := fun q hq => by
    rw [State.writePA_of_locate hlocate, writeAt_same s p pda m hq]
  have hother : ∀ k, (∀ q ∈ s.writePorts p, k ≠ mkey q pda) → (s.writePA pa m).mget k = s.mget k := fun k hk => by
    rw [State.writePA_of_locate hlocate, writeAt_other s p pda k m hk]
  refine ⟨fun hsingle => ?_, hsame, hother, writePA_wf s pa m⟩
  have hports := State.writePorts_of_unmirrored hsingle
  exact ⟨hsame p (by simp [hports]), fun k hk => hother k (by simpa [hports] using hk)⟩

end Sys2Proof.Machine
end

section
/-!
A memory port's life (O38; 13 R298 to R300, R309, R310): training, initialisation and OFF. That the end of a training nobody began does nothing but
what boot adds is log entry 7; that boot gives INIT to the port is log entry 79.
-/

namespace Sys2Proof

/-- A part of a map by key reads as the map where the key is kept, and as unlisted where it is not. -/
theorem SMap.get_filter_key {α : Type} (d : Nat → α) (keep : Nat → Bool) (m : SMap α) (k : Nat) :
    SMap.get d (m.filter (fun e => keep e.1)) k = if keep k then SMap.get d m k else d k := by
  induction m with
  | nil => simp [SMap.get]
  | cons e m ih =>
    obtain ⟨k', v⟩ := e
    by_cases hkey : k = k'
    · subst hkey
      cases hkeep : keep k <;> simp [hkeep, SMap.get, ih]
    · cases hkeep : keep k' <;> simp [hkeep, SMap.get, hkey, ih]

end Sys2Proof

namespace Sys2Proof.Machine

/-! ### A port's entries -/

/-- Entries of different objects, or of different numbers in them, do not meet. -/
theorem State.ent_setEnt_apart (s : State) {i j i' j' : Nat} (v : Nat) (hj : j < 256) (hj' : j' < 256) (hne : i' ≠ i ∨ j' ≠ j) :
    (s.setEnt i j v).ent i' j' = s.ent i' j' :=
  State.ent_setEnt_other s v (by simp only [ekey]; omega)

/-- Several entries of one object written, in order. -/
def State.writeEnts (s : State) (i : Nat) (l : List (Nat × Nat)) : State := l.foldl (fun s e => s.setEnt i e.1 e.2) s

/-- Entries written change the dictionary alone. -/
theorem State.writeEnts_eq (s : State) (i : Nat) (l : List (Nat × Nat)) : ∃ dict, s.writeEnts i l = { s with dict := dict } := by
  refine List.foldlRecOn (motive := fun t : State => ∃ dict, t = { s with dict := dict }) _ _ ⟨_, rfl⟩ fun t ht e _ => ?_
  obtain ⟨dict, rfl⟩ := ht
  exact ⟨_, rfl⟩

/-- An entry reads as the last write of it, if the list writes it. -/
theorem State.ent_writeEnts (s : State) (i j : Nat) (l : List (Nat × Nat)) :
    (s.writeEnts i l).ent i j = (l.reverse.lookup j).getD (s.ent i j) := by
  induction l generalizing s with
  | nil => rfl
  | cons e l ih =>
    obtain ⟨k, v⟩ := e
    rw [State.writeEnts, List.foldl_cons, ← State.writeEnts, ih, List.reverse_cons, List.lookup_append, State.ent_setEnt_sub]
    cases List.lookup j l.reverse with
    | some w => rfl
    | none =>
      by_cases hj : j = k
      · simp [List.lookup, hj]
      · simp [List.lookup, hj, beq_false_of_ne hj]

theorem State.ent_writeEnts_other (s : State) {i i' j : Nat} {l : List (Nat × Nat)} (hi : i' ≠ i) (hj : j < 256) (hl : ∀ e ∈ l, e.1 < 256) :
    (s.writeEnts i l).ent i' j = s.ent i' j := by
  refine List.foldlRecOn (motive := fun t : State => t.ent i' j = s.ent i' j) _ _ rfl fun t ht e he => ?_
  rw [State.ent_setEnt_apart t _ (hl e he) hj (.inl hi), ht]

section
variable (s : State) (p : Nat)

@[simp] theorem State.ent_updPort (f : Port → Port) (i j : Nat) : (s.updPort p f).ent i j = s.ent i j := rfl
@[simp] theorem State.portState_updPort (f : Port → Port) (q : Nat) : (s.updPort p f).portState q = s.portState q := rfl
@[simp] theorem updPort_mem (f : Port → Port) : (s.updPort p f).mem = s.mem := rfl
@[simp] theorem State.port_updPort (f : Port → Port) : (s.updPort p f).port p = f (s.port p) := State.port_setPort _ _ _

@[simp] theorem setResult_mem (v : Nat) : (s.setResult p v).mem = s.mem := rfl
@[simp] theorem State.port_setResult (v q : Nat) : (s.setResult p v).port q = s.port q := rfl

theorem State.ent_setResult (v j : Nat) : (s.setResult p v).ent (portIdx p) j = if j = 0x09 then v else s.ent (portIdx p) j :=
  State.ent_setEnt_sub _ _ _ _ _

@[simp] theorem State.portState_setResult (v q : Nat) : (s.setResult p v).portState q = s.portState q :=
  State.ent_setEnt_apart _ _ (by decide) (by decide) (.inr (by decide))

@[simp] theorem State.anyTraining_setResult (v : Nat) : (s.setResult p v).anyTraining = s.anyTraining := by
  simp [State.anyTraining]

end

/-! ### TRAIN -/

section
variable {s : State} {p : Nat}

theorem doTrain_begins (hstate : s.portState p = psOFF ∨ s.portState p = psFAILED) (hfree : s.anyTraining = false) :
    doTrain p s = (s.setResult p crRUN).beginTraining p := by
  rcases hstate with hstate | hstate <;> simp [doTrain, hstate, hfree]

theorem doTrain_waits (hstate : s.portState p = psOFF ∨ s.portState p = psFAILED) (htraining : s.anyTraining = true) :
    doTrain p s = (s.setResult p crRUN).updPort p (fun x => { x with trainWait := true }) := by
  rcases hstate with hstate | hstate <;> simp [doTrain, hstate, htraining]

theorem doTrain_refused (hoff : s.portState p ≠ psOFF) (hfailed : s.portState p ≠ psFAILED) : doTrain p s = s.setResult p crSTATE := by
  simp [doTrain, hoff, hfailed]

end

/-! ### The next training -/

/-- The end of a training starts that of a port that waits, if any port does. -/
theorem State.nextTraining_cases (s : State) :
    s.nextTraining = s ∨ ∃ q < nPorts, (s.port q).trainWait = true ∧ s.nextTraining = s.beginTraining q := by
  unfold State.nextTraining
  split
  · exact .inl rfl
  · split
    next q hfind => exact .inr ⟨q, mem_upTo.mp (List.mem_of_find?_eq_some hfind), by simpa using List.find?_some hfind, rfl⟩
    next => exact .inl rfl

@[simp] theorem beginTraining_mem (s : State) (p : Nat) : (s.beginTraining p).mem = s.mem := rfl

@[simp] theorem nextTraining_mem (s : State) : s.nextTraining.mem = s.mem := by
  obtain h | ⟨q, -, -, h⟩ := s.nextTraining_cases <;> simp [h]

@[simp] theorem nextTraining_bootStep (s : State) : s.nextTraining.bootStep = s.bootStep := by
  obtain h | ⟨q, -, -, h⟩ := s.nextTraining_cases <;> rw [h]
  rfl

theorem State.ent_beginTraining_other (s : State) {q i j : Nat} (hi : i ≠ portIdx q) (hj : j < 256) : (s.beginTraining q).ent i j = s.ent i j := by
  unfold State.beginTraining
  dsimp only
  rw [State.ent_updPort, State.ent_setEnt_apart _ _ (by decide) hj (.inl hi), State.ent_setEnt_apart _ _ (by decide) hj (.inl hi)]
  rfl

/-- A port that does not wait for training keeps its entries when another's begins. -/
theorem State.ent_nextTraining {s : State} {p j : Nat} (hwait : (s.port p).trainWait = false) (hj : j < 256) :
    s.nextTraining.ent (portIdx p) j = s.ent (portIdx p) j := by
  obtain h | ⟨q, -, hq, h⟩ := s.nextTraining_cases
  · rw [h]
  · have hne : p ≠ q := by
      rintro rfl
      simp [hwait] at hq
    rw [h, State.ent_beginTraining_other s (by simpa [portIdx] using hne) hj]

theorem State.ent_nextTraining_device (s : State) {i j : Nat} (hi : i < 0x4000) (hj : j < 256) : s.nextTraining.ent i j = s.ent i j := by
  obtain h | ⟨q, -, -, h⟩ := s.nextTraining_cases
  · rw [h]
  · rw [h, State.ent_beginTraining_other s (by simp only [portIdx]; omega) hj]

/-! ### PORT_TRAINING_END -/

/-- The port whose training has failed for reason `r`, before its report. -/
def State.trainingFails (s : State) (p r : Nat) : State :=
  (((s.setEnt (portIdx p) 0x01 psFAILED).setEnt (portIdx p) 0x02 r).setResult p crFAILED).setEnt (portIdx p) 0x03 0

/-- The entries of a port ACTIVE on a device of `raw` bytes in `units` coded units, none of them initialised. -/
def activeEnts (speed raw units serial : Nat) : List (Nat × Nat) :=
  [(0x01, psACTIVE), (0x02, 0), (0x03, speed), (0x04, raw), (0x05, units), (0x06, units * unitData), (0x07, 0), (0x0B, serial), (0x09, 0)]

/-- The port whose training has found that device. -/
def State.portActive (s : State) (p speed raw units serial : Nat) : State :=
  (s.writeEnts (portIdx p) (activeEnts speed raw units serial)).updPort p (fun x => { x with sidecar := [], scOut := [], initRun := false })

section
variable (s : State) (p speed raw units serial : Nat)

@[simp] theorem portActive_mem : (s.portActive p speed raw units serial).mem = s.mem := by
  obtain ⟨dict, h⟩ := s.writeEnts_eq (portIdx p) (activeEnts speed raw units serial)
  rw [State.portActive, h]
  rfl

@[simp] theorem portActive_bootStep : (s.portActive p speed raw units serial).bootStep = s.bootStep := by
  obtain ⟨dict, h⟩ := s.writeEnts_eq (portIdx p) (activeEnts speed raw units serial)
  rw [State.portActive, h]
  rfl

@[simp] theorem State.trainWait_portActive : ((s.portActive p speed raw units serial).port p).trainWait = (s.port p).trainWait := by
  obtain ⟨dict, h⟩ := s.writeEnts_eq (portIdx p) (activeEnts speed raw units serial)
  rw [State.portActive, h, State.port_updPort]
  rfl

theorem State.ent_portActive_device {i j : Nat} (hi : i < 0x4000) (hj : j < 256) : (s.portActive p speed raw units serial).ent i j = s.ent i j := by
  rw [State.portActive, State.ent_updPort, State.ent_writeEnts_other s (by simp only [portIdx]; omega) hj (by simp [activeEnts])]

theorem State.ent_portActive (j : Nat) : (s.portActive p speed raw units serial).ent (portIdx p) j =
    ((activeEnts speed raw units serial).reverse.lookup j).getD (s.ent (portIdx p) j) := by
  rw [State.portActive, State.ent_updPort, State.ent_writeEnts]

end

/-- A port whose training has ended: ACTIVE, or FAILED with the report that all reasons but an absent device make. -/
def State.trainingReported (s : State) (p : Nat) : TrainEnd → State
  | .active cap lanes rate ser =>
    s.portActive p (lanes % 256 * 256 + rate % 256) (min cap (2 ^ 40)) (min cap (2 ^ 40) / unitRaw) (leNat (ser.take 8))
  | .noDevice => s.trainingFails p 1
  | .unsupported => (s.trainingFails p 2).portReport p none 0
  | .link => (s.trainingFails p 3).portReport p none 0

theorem doPortTrainingEnd_idle {s : State} {p : Nat} (how : TrainEnd) (hstate : s.portState p ≠ psTRAINING) : doPortTrainingEnd p how s = s :=
  if_pos (by simpa using hstate)

theorem doPortTrainingEnd_training {s : State} {p : Nat} (how : TrainEnd) (hstate : s.portState p = psTRAINING) :
    doPortTrainingEnd p how s = (s.trainingReported p (s.portTraining p how)).nextTraining := by
  rw [doPortTrainingEnd, if_neg (by simp [hstate])]
  cases s.portTraining p how <;> rfl

/-- FAIL_REASON of a training that ends so (13 Table 13.2). -/
def failReason : TrainEnd → Option Nat
  | .active .. => none
  | .noDevice => some 1
  | .unsupported => some 2
  | .link => some 3

section
variable {s : State} {p : Nat}

@[simp] theorem trainingReported_mem (o : TrainEnd) : (s.trainingReported p o).mem = s.mem := by
  cases o <;> simp [State.trainingReported, State.trainingFails, State.portReport]

@[simp] theorem State.trainWait_trainingReported (o : TrainEnd) : ((s.trainingReported p o).port p).trainWait = (s.port p).trainWait := by
  cases o <;> simp [State.trainingReported, State.trainingFails, State.portReport]

theorem State.ent_trainingFails (r : Nat) {o : TrainEnd} (ho : failReason o = some r) :
    (s.trainingReported p o).ent (portIdx p) 0x01 = psFAILED ∧ (s.trainingReported p o).ent (portIdx p) 0x02 = r := by
  cases o <;> simp only [failReason, reduceCtorEq, Option.some.injEq] at ho <;> subst ho <;>
    simp [State.trainingReported, State.trainingFails, State.portReport, State.ent_setResult, State.ent_setEnt_sub]

theorem State.bootInit_of_inactive (hstate : s.portState p ≠ psACTIVE) : s.bootInit p = s :=
  if_neg (by simp [hstate])

/-- A training that fails leaves its port FAILED for its reason; boot has nothing to add. -/
theorem portTrainingEnd_fails {how : TrainEnd} {r : Nat} (hstate : s.portState p = psTRAINING) (hwait : (s.port p).trainWait = false)
    (hreason : failReason (s.portTraining p how) = some r) :
    ∃ x : State, (doPortTrainingEnd p how s).bootInit p = x ∧ x.portState p = psFAILED ∧ x.ent (portIdx p) 0x02 = r ∧ x.mem = s.mem := by
  obtain ⟨hfailed, hr⟩ := State.ent_trainingFails (s := s) (p := p) r hreason
  have hkept := fun j hj => State.ent_nextTraining (s := s.trainingReported p (s.portTraining p how)) (p := p) (j := j) (by simpa using hwait) hj
  have hend : (doPortTrainingEnd p how s).portState p = psFAILED := by
    rw [doPortTrainingEnd_training how hstate, State.portState, hkept _ (by decide), hfailed]
  refine ⟨_, State.bootInit_of_inactive (by simp [hend]), hend, ?_, ?_⟩
  · rw [doPortTrainingEnd_training how hstate, hkept _ (by decide), hr]
  · rw [doPortTrainingEnd_training how hstate, nextTraining_mem, trainingReported_mem]

theorem State.portTraining_unsupported {how : TrainEnd} (hiso : maskBit s.isoIocs (p % 4) = false)
    (h : how = .unsupported ∨ ∃ lanes rate ser, 4 ≤ lanes ∧ 32 ≤ rate ∧ how = .active 0 lanes rate ser) : s.portTraining p how = .unsupported := by
  obtain rfl | ⟨lanes, rate, ser, hlanes, hrate, rfl⟩ := h
  · simp [State.portTraining, hiso, judgeTraining]
  · simp [State.portTraining, hiso, judgeTraining, Nat.not_lt.mpr hlanes, Nat.not_lt.mpr hrate]

theorem State.portTraining_link {how : TrainEnd} (hdevice : how ≠ .noDevice)
    (h : maskBit s.isoIocs (p % 4) = true ∨ how = .link ∨ ∃ cap lanes rate ser, (lanes < 4 ∨ rate < 32) ∧ how = .active cap lanes rate ser) :
    s.portTraining p how = .link := by
  unfold State.portTraining
  by_cases hiso : maskBit s.isoIocs (p % 4) = true
  · simp [hiso, hdevice]
  · obtain rfl | ⟨cap, lanes, rate, ser, hbad, rfl⟩ := h.resolve_left hiso
    · simp [hiso, judgeTraining]
    · simp [hiso, judgeTraining, hbad]

theorem State.portTraining_active {cap lanes rate : Nat} {ser : List Byte} (hiso : maskBit s.isoIocs (p % 4) = false) (hcap : cap ≠ 0)
    (hlanes : 4 ≤ lanes) (hrate : 32 ≤ rate) : s.portTraining p (.active cap lanes rate ser) = .active cap lanes rate ser := by
  simp [State.portTraining, hiso, judgeTraining, hcap, Nat.not_lt.mpr hlanes, Nat.not_lt.mpr hrate]

theorem doPortTrainingEnd_active {cap lanes rate : Nat} {ser : List Byte} (hstate : s.portState p = psTRAINING)
    (hiso : maskBit s.isoIocs (p % 4) = false) (hcap : cap ≠ 0) (hlanes : 4 ≤ lanes) (hrate : 32 ≤ rate) :
    doPortTrainingEnd p (.active cap lanes rate ser) s =
      (s.portActive p (lanes % 256 * 256 + rate % 256) (min cap (2 ^ 40)) (min cap (2 ^ 40) / unitRaw) (leNat (ser.take 8))).nextTraining := by
  rw [doPortTrainingEnd_training _ hstate, State.portTraining_active hiso hcap hlanes hrate, State.trainingReported]

/-- In boot's step 5 a port that has become ACTIVE is given INIT. -/
theorem State.bootInit_of_active {x : State} (hactive : x.portState p = psACTIVE) (hstep : x.bootStep = s.bootStep)
    (hboot : x.ent 0x2200 0x03 = s.ent 0x2200 0x03) : x.bootInit p = if s.bootStep = 5 ∧ s.ent 0x2200 0x03 = 1 then doInit p x else x := by
  simp [State.bootInit, hactive, hstep, hboot]

end

/-! ### INIT and OFF -/

section
variable {s : State} {p : Nat}

theorem doInit_starts (hstate : s.portState p = psACTIVE) (hidle : (s.port p).initRun = false) (hunits : 0 < s.ent (portIdx p) 0x05) :
    doInit p s = ((s.setEnt (portIdx p) 0x07 0).setResult p crRUN).updPort p (fun x => { x with initRun := true }) := by
  have hzero : (((s.setEnt (portIdx p) 0x07 0).setResult p crRUN).updPort p (fun x => { x with initRun := true })).ent (portIdx p) 0x07 = 0 := by
    simp [State.ent_setResult]
  have hfive : (((s.setEnt (portIdx p) 0x07 0).setResult p crRUN).updPort p (fun x => { x with initRun := true })).ent (portIdx p) 0x05 =
      s.ent (portIdx p) 0x05 := by
    simp [State.ent_setResult, State.ent_setEnt_sub]
  rw [doInit, if_neg (by simp [hstate]), if_neg (by simp [hidle]), State.initStep, if_neg (by rw [hzero, hfive]; omega)]

theorem doInit_refused (hstate : s.portState p ≠ psACTIVE) : doInit p s = s.setResult p crSTATE := if_pos (by simpa using hstate)

theorem doInit_running (hstate : s.portState p = psACTIVE) (hrun : (s.port p).initRun = true) : doInit p s = s := by
  simp [doInit, hstate, hrun]

/-- What a unit's initialisation leaves: zero in the unit, but for the lines that a hayloft holds, and every other granule (02 R35, 13 R310). -/
theorem State.mget_zeroUnit (s : State) (p u key : Nat) : (s.zeroUnit p u).mget key =
    if mkey p (u * unitData) ≤ key ∧ key < mkey p ((u + 1) * unitData) ∧ s.keyHeld key = false then MGran.zero else s.mget key := by
  have hread := SMap.get_filter_key (fun _ => MGran.zero)
    (fun k => s.keyHeld k || !(decide (mkey p (u * unitData) ≤ k) && decide (k < mkey p ((u + 1) * unitData)))) s.mem key
  rw [State.mget, State.zeroUnit, hread]
  cases s.keyHeld key
  · by_cases hunit : mkey p (u * unitData) ≤ key ∧ key < mkey p ((u + 1) * unitData)
    · simp [hunit]
    · rw [if_pos (by rcases not_and_or.mp hunit with h | h <;> simp [h]), if_neg (by tauto), State.mget]
  · simp [State.mget]

theorem State.ent_initStep (s : State) (p : Nat) {j : Nat} (hj : j ≠ 0x09) : (s.initStep p).ent (portIdx p) j = s.ent (portIdx p) j := by
  unfold State.initStep
  split
  · simp [State.ent_setResult, hj]
  · rfl

@[simp] theorem initStep_mem (s : State) (p : Nat) : (s.initStep p).mem = s.mem := by
  unfold State.initStep
  split <;> rfl

theorem doCodedUnitInit_runs (hstate : s.portState p = psACTIVE) (hrun : (s.port p).initRun = true) :
    doCodedUnitInit p s = ((s.zeroUnit p (s.ent (portIdx p) 0x07)).setEnt (portIdx p) 0x07 (s.ent (portIdx p) 0x07 + 1)).initStep p :=
  if_neg (by simp [hstate, hrun])

theorem State.mget_doCodedUnitInit (hstate : s.portState p = psACTIVE) (hrun : (s.port p).initRun = true) (key : Nat) :
    (doCodedUnitInit p s).mget key = (s.zeroUnit p (s.ent (portIdx p) 0x07)).mget key := by
  rw [doCodedUnitInit_runs hstate hrun, State.mget, initStep_mem, State.setEnt_mem, State.mget]

theorem doOff_inactive (htraining : s.portState p ≠ psTRAINING) (hactive : s.portState p ≠ psACTIVE) :
    doOff p s = ((s.setEnt (portIdx p) 0x01 psOFF).setEnt (portIdx p) 0x02 0).setResult p 0 := by
  simp [doOff, htraining, hactive]

theorem doOff_training (htraining : s.portState p = psTRAINING) : doOff p s = s.setResult p crSTATE := by
  simp [doOff, htraining]

theorem doOff_active (hactive : s.portState p = psACTIVE) :
    doOff p s = ((s.setResult p crRUN).updPort p (fun x => { x with flushing := true, offAfter := true })).flushStep p := by
  simp [doOff, hactive]

end

/-- Settles O38: each command is its definition's, which the lemmas above say by the port's state and the training's outcome. -/
theorem portsTrainInitialiseAndStop : Obligations.PortsTrainInitialiseAndStop := by
  refine ⟨fun s hruns => ⟨fun p ha => exec_train p s ha hruns, fun p how ha => exec_portTrainingEnd p how s ha hruns,
    fun p ha => exec_portInit p s ha hruns, fun p ha => exec_codedUnitInit p s ha hruns, fun p ha => exec_portOff p s ha hruns⟩,
    fun s p hp hruns => ?_⟩
  have htrain := exec_train p s (Instr.absent_of_unit_lt rfl rfl hp) hruns
  have hend := fun how => exec_portTrainingEnd p how s (Instr.absent_of_unit_lt rfl rfl hp) hruns
  have hinit := exec_portInit p s (Instr.absent_of_unit_lt rfl rfl hp) hruns
  have hunit := exec_codedUnitInit p s (Instr.absent_of_unit_lt rfl rfl hp) hruns
  have hoff := exec_portOff p s (Instr.absent_of_unit_lt rfl rfl hp) hruns
  rw [htrain, hinit, hunit, hoff]
  simp only [hend]
  refine ⟨?begins, ?waits, ?trainRefused, ?fails, ?active, ?noTraining, ?initStarts, ?initRefused, ?initRuns, ?unit, ?offInactive, ?offTraining,
    ?offActive⟩
  case begins => exact fun hstate hfree => by rw [doTrain_begins hstate hfree]
  case waits => exact fun hstate hother => by rw [doTrain_waits hstate hother]
  case trainRefused => exact fun hoff hfailed => by rw [doTrain_refused hoff hfailed]
  case fails =>
    intro how hstate hwait
    have hfails : ∀ r, failReason (s.portTraining p how) = some r → ∃ x, Host.Outcome.next (s.after ((doPortTrainingEnd p how s).bootInit p)) =
        (.next (s.after x) : Host.Outcome State Fault Refusal) ∧ x.portState p = psFAILED ∧ x.ent (portIdx p) 0x02 = r ∧ x.mem = s.mem := by
      intro r hreason
      obtain ⟨x, hx, heffect⟩ := portTrainingEnd_fails hstate hwait hreason
      exact ⟨x, by rw [hx], heffect⟩
    refine ⟨?_, fun hiso h => hfails 2 (by rw [State.portTraining_unsupported hiso h]; rfl),
      fun hdevice h => hfails 3 (by rw [State.portTraining_link hdevice h]; rfl)⟩
    rintro rfl
    exact hfails 1 (by simp [State.portTraining, judgeTraining, failReason])
  case active =>
    intro cap lanes rate ser hiso hstate hwait hcap hlanes hrate
    rw [doPortTrainingEnd_active hstate hiso hcap hlanes hrate]
    generalize min cap (2 ^ 40) = raw
    generalize lanes % 256 * 256 + rate % 256 = speed
    generalize leNat (ser.take 8) = serial
    have hent : ∀ j < 256, (s.portActive p speed raw (raw / unitRaw) serial).nextTraining.ent (portIdx p) j =
        ((activeEnts speed raw (raw / unitRaw) serial).reverse.lookup j).getD (s.ent (portIdx p) j) := fun j hj => by
      rw [State.ent_nextTraining (by simpa using hwait) hj, State.ent_portActive]
    have hboot : (s.portActive p speed raw (raw / unitRaw) serial).nextTraining.ent 0x2200 0x03 = s.ent 0x2200 0x03 := by
      rw [State.ent_nextTraining_device _ (by decide) (by decide), State.ent_portActive_device _ _ _ _ _ _ (by decide) (by decide)]
    have hactive := hent 0x01 (by decide)
    refine ⟨_, congrArg _ (congrArg _ (State.bootInit_of_active hactive (by simp) hboot)), hactive, hent 0x04 (by decide), hent 0x05 (by decide),
      hent 0x06 (by decide), hent 0x07 (by decide), hent 0x09 (by decide), by simp⟩
  case noTraining => exact fun hstate how => by rw [doPortTrainingEnd_idle how hstate]
  case initStarts => exact fun hstate hidle hunits => by rw [doInit_starts hstate hidle hunits]
  case initRefused => exact fun hstate => by rw [doInit_refused hstate]
  case initRuns => exact fun hstate hrun => by rw [doInit_running hstate hrun]
  case unit =>
    intro hstate hrun
    refine ⟨_, rfl, ?_, fun key hlo hhi hheld => ?_, fun key hkey => ?_⟩
    · rw [doCodedUnitInit_runs hstate hrun, State.ent_initStep _ _ (by decide), State.ent_setEnt]
    · rw [State.mget_doCodedUnitInit hstate hrun, State.mget_zeroUnit, if_pos ⟨hlo, hhi, hheld⟩]
    · rw [State.mget_doCodedUnitInit hstate hrun, State.mget_zeroUnit, if_neg]
      rintro ⟨hlo, hhi, hheld⟩
      rcases hkey with hkey | hkey | hkey
      · omega
      · omega
      · simp [hheld] at hkey
  case offInactive => exact fun htraining hactive => by rw [doOff_inactive htraining hactive]
  case offTraining => exact fun htraining => by rw [doOff_training htraining]
  case offActive => exact fun hactive => by rw [doOff_active hactive]

end Sys2Proof.Machine
end

section
/-!
A memory port at work (O39; 13 R304 to R311): reads, the sidecar cache, the device's answers, failures and resynchronisation. That a fetch, a read, an
event record or a timeout without its cause leaves the state as it is is log entry 7.
-/

namespace Sys2Proof

variable {α : Type}

theorem SMap.lt_of_mem_of_rising {lo : Nat} {m : SMap α} (h : SMap.rising (some lo) m = true) {e : Nat × α} (he : e ∈ m) : lo < e.1 := by
  induction m generalizing lo with
  | nil => contradiction
  | cons e' m ih =>
    obtain ⟨hlo, hm⟩ := (SMap.rising_cons _ e'.1 e'.2 m).mp h
    rcases List.mem_cons.mp he with rfl | he
    · exact hlo lo rfl
    · exact (hlo lo rfl).trans (ih hm he)

/-- A map with rising keys reads what it lists. -/
theorem SMap.get_of_mem {d : Nat → α} {lo : Option Nat} {m : SMap α} (h : SMap.rising lo m = true) {e : Nat × α} (he : e ∈ m) :
    SMap.get d m e.1 = e.2 := by
  induction m generalizing lo with
  | nil => contradiction
  | cons e' m ih =>
    obtain ⟨-, hm⟩ := (SMap.rising_cons _ e'.1 e'.2 m).mp h
    rcases List.mem_cons.mp he with rfl | he
    · exact if_pos rfl
    · exact (if_neg (SMap.lt_of_mem_of_rising hm he).ne').trans (ih hm he)

end Sys2Proof

namespace Sys2Proof.Machine

/-! ### FLUSH -/

section
variable {s : State} {p : Nat}

theorem doFlush_active (hactive : s.portState p = psACTIVE) :
    doFlush p s = ((s.setResult p crRUN).updPort p (fun x => { x with flushing := true })).flushStep p := by
  simp [doFlush, hactive]

theorem doFlush_inactive (hactive : s.portState p ≠ psACTIVE) : doFlush p s = s.setResult p crSTATE := if_pos (by simpa using hactive)

theorem State.flushStep_ends (hflush : (s.port p).flushing = true) (hoff : (s.port p).offAfter = false)
    (hclean : (s.port p).sidecar.any (·.2.isSome) = false) (hout : (s.port p).scOut = []) :
    s.flushStep p = (s.updPort p (fun x => { x with flushing := false })).setResult p 0 := by
  simp only [State.flushStep, hflush, hoff, hclean, hout]
  rfl

theorem State.flushStep_waits (hopen : (s.port p).sidecar.any (·.2.isSome) = true ∨ (s.port p).scOut ≠ []) : s.flushStep p = s := by
  refine if_neg ?_
  rcases hopen with hopen | hopen <;> simp [hopen]

/-! ### SIDECAR_FETCH and LINE_READ -/

theorem doSidecarFetch_misses {g : Nat} (poison : Nat) (hactive : s.portState p = psACTIVE) (hgroup : g * 512 < s.ent (portIdx p) 0x06)
    (hmiss : (s.port p).sidecar.any (fun e => e.1 == g) = false) :
    doSidecarFetch p g poison s = ((s.bump (portIdx p) 0x24 64 1).updPort p (fun x => x.touchSidecar g none)).poisonAll p
      (((upTo 32).map (fun i => 512 * g + 16 * i)).filter (fun d => (upTo 3).any (fun j => nbit poison j && inSidecarLine j d))) := by
  have huse : s.useSidecar p (512 * g) false = (s.bump (portIdx p) 0x24 64 1).updPort p (fun x => x.touchSidecar g none) := by
    simp only [State.useSidecar, Nat.mul_div_cancel_left g (show 0 < 512 by decide), hmiss]
    rfl
  rw [doSidecarFetch, if_neg (by simp [hactive, hgroup, hmiss]), huse]

theorem doSidecarFetch_idle {g : Nat} (poison : Nat)
    (h : s.portState p ≠ psACTIVE ∨ s.ent (portIdx p) 0x06 ≤ g * 512 ∨ (s.port p).sidecar.any (fun e => e.1 == g) = true) :
    doSidecarFetch p g poison s = s := by
  refine if_pos ?_
  rcases h with h | h | h <;> simp [h]

section
variable {line pda q : Nat} (hlocate : s.locate (64 * line) = some (p, pda)) (hport : (s.readPorts p pda).headD p = q)
include hlocate hport

theorem doLineRead_reads (poison : Bool) (hactive : s.portState q = psACTIVE) (hheld : s.lineHeld line = false) :
    doLineRead line poison s = (upTo 4).foldl (fun s i => (s.readPA 0 (64 * line + 16 * i)).1)
      (if poison then ((s.useSidecar q pda false).bump (portIdx q) 0x25 64 1).poisonAll q ((upTo 4).map (fun i => pda + 16 * i))
        else (s.useSidecar q pda false).bump (portIdx q) 0x25 64 1) := by
  rw [doLineRead, hlocate]
  dsimp only
  rw [hport]
  exact if_neg (by simp [hactive, hheld])

theorem doLineRead_idle (poison : Bool) (h : s.portState q ≠ psACTIVE ∨ s.lineHeld line = true) : doLineRead line poison s = s := by
  rw [doLineRead, hlocate]
  dsimp only
  rw [hport]
  refine if_pos ?_
  rcases h with h | h <;> simp [h]

end

/-! ### The device's answers -/

theorem doS2mNdr_flushed {g a : Nat} (ok : Bool) (hout : listFind (fun e : Nat × Nat => e.1 == g) (s.port p).scOut = none)
    (hdirty : (s.port p).sidecar.find? (fun e => e.1 == g) = some (g, some a)) (hflush : (s.port p).flushing = true) :
    doS2mNdr p (.sidecar g) ok s =
      (if ok then s.updPort p (fun x => { x with sidecar := x.sidecar.map (fun e => if e.1 = g then (g, none) else e) })
        else (s.updPort p (fun x => { x with sidecar := x.sidecar.map (fun e => if e.1 = g then (g, none) else e) })).firstErr p a).flushStep p := by
  rw [doS2mNdr, hout, hdirty]
  exact if_pos hflush

theorem doS2mNdr_replaced {g i a : Nat} (ok : Bool) (hout : listFind (fun e : Nat × Nat => e.1 == g) (s.port p).scOut = some i)
    (hat : listAt (s.port p).scOut i = some (g, a)) :
    doS2mNdr p (.sidecar g) ok s = (if ok then s.updPort p (fun x => { x with scOut := listDel x.scOut i })
      else (s.updPort p (fun x => { x with scOut := listDel x.scOut i })).firstErr p a).flushStep p := by
  simp only [doS2mNdr, hout, hat, Option.elim]

/-! ### Failures -/

theorem State.trainWait_degrade (s : State) (p q : Nat) : ((s.degrade p).port q).trainWait = (s.port q).trainWait := by
  unfold State.degrade
  dsimp only
  split
  · split
    · by_cases hq : q = evenPort p
      · subst hq
        simp
      · simp [State.updPort, State.port_setPort_other _ _ hq]
    · rfl
  · rfl

theorem State.ent_degrade (s : State) (p : Nat) {i j : Nat} (hj : j < 256) (hne : j ≠ 0x18) : (s.degrade p).ent i j = s.ent i j := by
  unfold State.degrade
  dsimp only
  split
  · rw [State.ent_setEnt_apart _ _ (by decide) hj (.inr hne)]
    split <;> rfl
  · rfl

@[simp] theorem degrade_mem (s : State) (p : Nat) : (s.degrade p).mem = s.mem := by
  unfold State.degrade
  dsimp only
  split
  · split <;> rfl
  · rfl

theorem State.ent_degrade_pair (hpair : s.inPair p = true) : (s.degrade p).ent (portIdx (evenPort p)) 0x18 = 2 := by
  unfold State.degrade
  dsimp only
  rw [if_pos hpair, State.ent_setEnt]

/-- The start of a training writes a port's state and reason alone. -/
theorem State.ent_nextTraining_pairState (s : State) (i : Nat) : s.nextTraining.ent i 0x18 = s.ent i 0x18 := by
  obtain h | ⟨q, -, -, h⟩ := s.nextTraining_cases
  · rw [h]
  · rw [h, State.beginTraining]
    dsimp only
    rw [State.ent_updPort, State.ent_setEnt_apart _ _ (by decide) (by decide) (.inr (by decide)),
      State.ent_setEnt_apart _ _ (by decide) (by decide) (.inr (by decide))]
    rfl

/-- Port `p` FAILED for reason `r`, with its report, and its pair degraded. -/
def State.failed (s : State) (p r : Nat) : State := ((s.leaveActive p psFAILED r).portReport p none 0).degrade p

/-- `x` is `s` but for the results of commands. -/
def State.SameButResults (s x : State) : Prop := x.ports = s.ports ∧ x.mem = s.mem ∧ ∀ i j, j < 256 → j ≠ 0x09 → x.ent i j = s.ent i j

theorem State.sameButResults_of_result (s : State) (c : Bool) (q v : Nat) : s.SameButResults (if c then s.setResult q v else s) := by
  cases c
  · exact ⟨rfl, rfl, fun _ _ _ _ => rfl⟩
  · exact ⟨rfl, rfl, fun i j hj hne => State.ent_setEnt_apart s v (by decide) hj (.inr hne)⟩

/-- What else a failure does: commands that ran report it, and the next training begins. -/
theorem State.failPort_eq (hstate : s.portState p = psACTIVE ∨ s.portState p = psTRAINING) (r : Nat) :
    ∃ x, s.failPort p r = (x.setEnt (portIdx p) 0x03 0).nextTraining ∧ (s.failed p r).SameButResults x := by
  rw [State.failPort, if_neg (by rcases hstate with h | h <;> simp [h])]
  dsimp only
  rw [← State.failed]
  obtain ⟨hports, hmem, hent⟩ := State.sameButResults_of_result (s.failed p r) (s.ent (portIdx p) 0x09 == crRUN) p crFAILED
  generalize (if s.ent (portIdx p) 0x09 == crRUN then (s.failed p r).setResult p crFAILED else s.failed p r) = x1 at hports hmem hent ⊢
  obtain ⟨hports', hmem', hent'⟩ := State.sameButResults_of_result x1 (x1.ent (portIdx (evenPort p)) 0x09 == crRUN &&
    x1.ent (portIdx (evenPort p)) 0x18 == 2 && x1.inPair p) (evenPort p) crFAILED
  exact ⟨_, rfl, hports'.trans hports, hmem'.trans hmem, fun i j hj hne => (hent' i j hj hne).trans (hent i j hj hne)⟩

/-- A port that fails is FAILED for the reason given, and no unit of it is initialised; its pair is degraded. -/
theorem State.failPort_effect (hstate : s.portState p = psACTIVE ∨ s.portState p = psTRAINING) (hwait : (s.port p).trainWait = false) (r : Nat) :
    (s.failPort p r).portState p = psFAILED ∧ (s.failPort p r).ent (portIdx p) 0x02 = r ∧ (s.failPort p r).ent (portIdx p) 0x07 = 0 ∧
      (s.inPair p = true → (s.failPort p r).ent (portIdx (evenPort p)) 0x18 = 2) ∧ (s.failPort p r).mem = s.mem := by
  obtain ⟨x, heq, hports, hmem, hx⟩ := State.failPort_eq hstate r
  have hwaits : ((x.setEnt (portIdx p) 0x03 0).port p).trainWait = false := by
    rw [State.port_of_setEnt, State.port, hports, ← State.port, State.failed, State.trainWait_degrade]
    simpa [State.leaveActive, State.portReport] using hwait
  have hent : ∀ j, j < 256 → j ≠ 0x03 → j ≠ 0x09 → j ≠ 0x18 → (s.failPort p r).ent (portIdx p) j = (s.leaveActive p psFAILED r).ent (portIdx p) j := by
    intro j hj h3 h9 h18
    rw [heq, State.ent_nextTraining hwaits hj, State.ent_setEnt_apart _ _ (by decide) hj (.inr h3), hx _ _ hj h9, State.failed,
      State.ent_degrade _ _ hj h18]
    rfl
  refine ⟨?_, ?_, ?_, fun hpair => ?_, ?_⟩
  · rw [State.portState, hent _ (by decide) (by decide) (by decide) (by decide)]
    simp [State.leaveActive, State.ent_setEnt_sub]
  · rw [hent _ (by decide) (by decide) (by decide) (by decide)]
    simp [State.leaveActive, State.ent_setEnt_sub]
  · rw [hent _ (by decide) (by decide) (by decide) (by decide)]
    simp [State.leaveActive]
  · have hpair' : ((s.leaveActive p psFAILED r).portReport p none 0).inPair p = true := by
      simpa [State.inPair, State.leaveActive, State.portReport, State.updPort] using hpair
    rw [heq, State.ent_nextTraining_pairState, State.ent_setEnt_apart _ _ (by decide) (by decide) (.inr (by decide)), hx _ _ (by decide) (by decide),
      State.failed, State.ent_degrade_pair hpair']
  · rw [heq, nextTraining_mem, State.setEnt_mem, hmem]
    simp [State.failed, State.leaveActive, State.portReport]

end

/-! ### Resynchronisation -/

/-- Writes of other keys leave a granule. -/
theorem State.mget_mset_fold_other (l : List (Nat × MGran)) (f : Nat → Nat) (s : State) {k : Nat} (hk : ∀ e ∈ l, k ≠ f e.1) :
    (l.foldl (fun s e => s.mset (f e.1) e.2) s).mget k = s.mget k :=
  List.foldlRecOn (motive := fun t : State => t.mget k = s.mget k) l _ rfl fun t ht e he => (State.mget_mset_other t e.2 (hk e he)).trans ht

/-- Where every write of a key writes one value, the key has it after the fold, if some write is of that key or it had it before. -/
theorem State.mget_mset_fold_same (l : List (Nat × MGran)) (f : Nat → Nat) (s : State) {k : Nat} {v : MGran} (hv : ∀ e ∈ l, f e.1 = k → e.2 = v)
    (h : s.mget k = v ∨ ∃ e ∈ l, f e.1 = k) : (l.foldl (fun s e => s.mset (f e.1) e.2) s).mget k = v := by
  induction l generalizing s with
  | nil => simpa using h
  | cons e l ih =>
    refine ih _ (fun e' he' => hv e' (List.mem_cons_of_mem _ he')) ?_
    by_cases hkey : f e.1 = k
    · exact .inl (by rw [← hkey, State.mget_mset, hv e List.mem_cons_self hkey])
    · rcases h with h | ⟨e', he', hkey'⟩
      · exact .inl (by rw [State.mget_mset_other _ _ (Ne.symm hkey), h])
      · rcases List.mem_cons.mp he' with rfl | he'
        · exact absurd hkey' hkey
        · exact .inr ⟨e', he', hkey'⟩

theorem mkey_unit (p u : Nat) : mkey p (u * unitData) = p * 2 ^ 40 + u * 2 ^ 17 := by
  simp only [mkey, unitData]
  omega

section
variable {s : State} {p a b u : Nat}

/-- A granule outside the copy's unit keeps its value. -/
theorem State.mget_copyUnit_other (hu : u < 2 ^ 23) {key : Nat} (hkey : key < mkey b (u * unitData) ∨ mkey b ((u + 1) * unitData) ≤ key) :
    (s.copyUnit a b u).mget key = s.mget key := by
  rw [mkey_unit, mkey_unit] at hkey
  unfold State.copyUnit
  dsimp only
  simp only [mkey_unit]
  rw [State.mget_mset_fold_other _ (fun k => b * 2 ^ 40 + k % 2 ^ 40)]
  · rw [State.mget, SMap.get_filter_key (fun _ => MGran.zero)
      (fun k => !(decide (b * 2 ^ 40 + u * 2 ^ 17 ≤ k) && decide (k < b * 2 ^ 40 + (u + 1) * 2 ^ 17))), if_pos (by simp; omega), State.mget]
  · intro e he
    have hunit : a * 2 ^ 40 + u * 2 ^ 17 ≤ e.1 ∧ e.1 < a * 2 ^ 40 + (u + 1) * 2 ^ 17 := by simpa using (List.mem_filter.mp he).2
    omega

/-- A granule of the copy's unit is the good side's. -/
theorem State.mget_copyUnit_same (hu : u < 2 ^ 23) (hwf : Memory.wf s.mem = true) {i : Nat} (hi : i < unitData / 16) :
    (s.copyUnit a b u).mget (mkey b (u * unitData) + i) = s.mget (mkey a (u * unitData) + i) := by
  have hi' : i < 2 ^ 17 := hi
  have hrising := ((SMap.wf_iff _ _).mp hwf).1
  unfold State.copyUnit
  dsimp only
  simp only [mkey_unit]
  refine State.mget_mset_fold_same _ (fun k => b * 2 ^ 40 + k % 2 ^ 40) _ (fun e he hkey => ?_) ?_
  · obtain ⟨hmem, hunit⟩ := List.mem_filter.mp he
    have hunit' : a * 2 ^ 40 + u * 2 ^ 17 ≤ e.1 ∧ e.1 < a * 2 ^ 40 + (u + 1) * 2 ^ 17 := by simpa using hunit
    have hsame : e.1 = a * 2 ^ 40 + u * 2 ^ 17 + i := by omega
    rw [← hsame]
    exact (SMap.get_of_mem hrising hmem).symm
  · rcases SMap.get_eq_default_or_mem (fun _ => MGran.zero) s.mem (a * 2 ^ 40 + u * 2 ^ 17 + i) with hdefault | hlisted
    · left
      rw [State.mget, SMap.get_filter_key (fun _ => MGran.zero)
        (fun k => !(decide (b * 2 ^ 40 + u * 2 ^ 17 ≤ k) && decide (k < b * 2 ^ 40 + (u + 1) * 2 ^ 17))), if_neg (by simp; omega)]
      exact hdefault.symm
    · refine .inr ⟨_, List.mem_filter.mpr ⟨hlisted, by simp; omega⟩, ?_⟩
      dsimp only
      omega

theorem State.copyUnit_eq (s : State) (a b u : Nat) : ∃ mem, s.copyUnit a b u = { s with mem := mem } := by
  refine List.foldlRecOn (motive := fun t : State => ∃ mem, t = { s with mem := mem }) _ _ ⟨_, rfl⟩ fun t ht e _ => ?_
  obtain ⟨mem, rfl⟩ := ht
  exact ⟨_, rfl⟩

theorem doResync_starts (heven : p % 2 = 0) (hdegraded : s.ent (portIdx p) 0x18 = 2) (hpartner : s.portState (s.partner p) = psACTIVE)
    (hsize : s.app (portIdx p) 0x12 ≤ s.ent (portIdx (s.partner p)) 0x06) :
    doResync p s = (((s.setEnt (portIdx p) 0x18 3).setEnt (portIdx p) 0x19 0).setResult p crRUN).resyncStep p := by
  rw [doResync, if_neg (by simp [heven]), if_neg (by simp [hdegraded, hpartner]), if_neg (by omega)]

theorem doResync_small (heven : p % 2 = 0) (hdegraded : s.ent (portIdx p) 0x18 = 2) (hpartner : s.portState (s.partner p) = psACTIVE)
    (hsize : s.ent (portIdx (s.partner p)) 0x06 < s.app (portIdx p) 0x12) : doResync p s = s.setResult p crSIZE := by
  rw [doResync, if_neg (by simp [heven]), if_neg (by simp [hdegraded, hpartner]), if_pos hsize]

theorem doResync_refused (heven : p % 2 = 0) (h : s.ent (portIdx p) 0x18 ≠ 2 ∨ s.portState (s.partner p) ≠ psACTIVE) :
    doResync p s = s.setResult p crSTATE := by
  rw [doResync, if_neg (by simp [heven]), if_pos (by simpa using h)]

/-- The step after a unit writes the pair's state and the port's result alone. -/
theorem State.resyncStep_effect (s : State) (e : Nat) : (s.resyncStep e).ent (portIdx e) 0x19 = s.ent (portIdx e) 0x19 ∧
    (s.resyncStep e).mem = s.mem ∧ (s.resyncStep e).stalls = s.stalls ∧ (s.resyncStep e).records = s.records := by
  unfold State.resyncStep
  split
  · exact ⟨by simp [State.ent_setResult, State.ent_setEnt_sub], rfl, rfl, rfl⟩
  · exact ⟨rfl, rfl, rfl, rfl⟩

theorem doResyncUnitCopied_copies (hrun : s.ent (portIdx p) 0x18 = 3) :
    (doResyncUnitCopied p s).ent (portIdx p) 0x19 = s.ent (portIdx p) 0x19 + 1 ∧ (doResyncUnitCopied p s).stalls = s.stalls ∧
      (doResyncUnitCopied p s).records = s.records ∧
      ∀ key, (doResyncUnitCopied p s).mget key = (s.copyUnit (s.survivor p) (s.partner p) (s.ent (portIdx p) 0x19)).mget key := by
  rw [doResyncUnitCopied, if_neg (by simp [hrun])]
  dsimp only
  obtain ⟨mem, hcopy⟩ := s.copyUnit_eq (s.survivor p) (s.partner p) (s.ent (portIdx p) 0x19)
  obtain ⟨hent, hmem, hstalls, hrecords⟩ := State.resyncStep_effect (((if decide (s.ent (portIdx p) 0x19 < s.ent (portIdx (s.survivor p)) 0x07) then
    (s.copyUnit (s.survivor p) (s.partner p) (s.ent (portIdx p) 0x19)).setEnt (portIdx (s.partner p)) 0x07
      (max (s.ent (portIdx p) 0x19 + 1) ((s.copyUnit (s.survivor p) (s.partner p) (s.ent (portIdx p) 0x19)).ent (portIdx (s.partner p)) 0x07))
    else s.copyUnit (s.survivor p) (s.partner p) (s.ent (portIdx p) 0x19))).setEnt (portIdx p) 0x19 (s.ent (portIdx p) 0x19 + 1)) p
  refine ⟨by rw [hent, State.ent_setEnt], ?_, ?_, fun key => ?_⟩
  · rw [hstalls, State.setEnt_stalls, hcopy]
    split <;> rfl
  · rw [hrecords, State.setEnt_records, hcopy]
    split <;> rfl
  · rw [State.mget, hmem, State.setEnt_mem]
    split <;> rfl

end

/-- Settles O39: each command is its definition's, which the lemmas above say by the port's state and what its cache and the device hold. -/
theorem portsServeTheirDevices : Obligations.PortsServeTheirDevices := by
  refine ⟨fun s hruns => ⟨fun line poison => exec_lineRead ⟨line, poison⟩ s hruns, fun p g poison ha => exec_sidecarFetch p ⟨g, poison⟩ s ha hruns,
    fun p ha => exec_resync p s ha hruns, fun p ha => exec_resyncUnitCopied p s ha hruns, fun p ha => exec_flush p s ha hruns,
    fun p ha => exec_portFailure p s ha hruns, fun p ha => exec_portTimeout p s ha hruns, fun p kind ok ha => exec_s2mNdr p kind ok s ha hruns,
    fun p n ha => exec_cxlEventRecord p n s ha hruns⟩, fun s p hp hruns => ?_⟩
  have hflush := exec_flush p s (Instr.absent_of_unit_lt rfl rfl hp) hruns
  have hfetch := fun g poison => exec_sidecarFetch p ⟨g, poison⟩ s (Instr.absent_of_unit_lt rfl rfl hp) hruns
  have hread := fun line poison => exec_lineRead ⟨line, poison⟩ s hruns
  have hndr := fun kind ok => exec_s2mNdr p kind ok s (Instr.absent_of_unit_lt rfl rfl hp) hruns
  have hrecord := fun n => exec_cxlEventRecord p n s (Instr.absent_of_unit_lt rfl rfl hp) hruns
  have hfailure := exec_portFailure p s (Instr.absent_of_unit_lt rfl rfl hp) hruns
  have htimeout := exec_portTimeout p s (Instr.absent_of_unit_lt rfl rfl hp) hruns
  have hresync := exec_resync p s (Instr.absent_of_unit_lt rfl rfl hp) hruns
  have hcopied := exec_resyncUnitCopied p s (Instr.absent_of_unit_lt rfl rfl hp) hruns
  rw [hflush, hfailure, htimeout, hresync, hcopied]
  simp only [hfetch, hread, hndr, hrecord]
  refine ⟨?flush, ?flushRefused, fun hf hoff hclean hout => State.flushStep_ends hf hoff hclean hout, State.flushStep_waits, ?fetch, ?fetchIdle, ?read,
    ?readNowhere, ?flushed, ?replaced, ?written, ?counted, ?notCounted, rfl, ?timeout, ?timeoutIdle,
    fun r hstate hwait => State.failPort_effect hstate hwait r, ?resync, ?resyncRefused, ?copied⟩
  case flush => exact fun hactive => by rw [doFlush_active hactive]
  case flushRefused => exact fun hactive => by rw [doFlush_inactive hactive]
  case fetch => exact fun g poison hactive hgroup hmiss => by rw [doSidecarFetch_misses poison hactive hgroup hmiss]
  case fetchIdle => exact fun g poison h => by rw [doSidecarFetch_idle poison h]
  case read =>
    intro line q pda hlocate hport
    refine ⟨fun hactive hheld => ⟨?_, ?_⟩, fun poison h => by rw [doLineRead_idle hlocate hport poison h]⟩
    · rw [doLineRead_reads hlocate hport false hactive hheld, if_neg (by decide)]
    · rw [doLineRead_reads hlocate hport true hactive hheld, if_pos rfl]
  case readNowhere => exact fun line poison hlocate => by rw [doLineRead, hlocate]
  case flushed =>
    rintro g a hout hdirty hflushing _ rfl
    exact ⟨by rw [doS2mNdr_flushed true hout hdirty hflushing, if_pos rfl],
      by rw [doS2mNdr_flushed false hout hdirty hflushing, if_neg (by decide)]⟩
  case replaced =>
    rintro g i a hout hat _ rfl
    exact ⟨by rw [doS2mNdr_replaced true hout hat, if_pos rfl], by rw [doS2mNdr_replaced false hout hat, if_neg (by decide)]⟩
  case written => exact fun pda => ⟨rfl, rfl⟩
  case counted => exact fun n hactive => by rw [doCxlEventRecord, if_pos (by simpa using hactive)]
  case notCounted => exact fun n hactive => by rw [doCxlEventRecord, if_neg (by simpa using hactive)]
  case timeout => exact fun hactive => by rw [doPortTimeout, if_pos (by simpa using hactive)]
  case timeoutIdle => exact fun hactive => by rw [doPortTimeout, if_neg (by simpa using hactive)]
  case resync =>
    exact fun heven hdegraded hpartner => ⟨fun hsize => by rw [doResync_starts heven hdegraded hpartner hsize],
      fun hsize => by rw [doResync_small heven hdegraded hpartner hsize]⟩
  case resyncRefused => exact fun heven h => by rw [doResync_refused heven h]
  case copied =>
    intro _ hrun hunit hwf
    obtain ⟨hdone, hstalls, hrecords, hmget⟩ := doResyncUnitCopied_copies hrun
    exact ⟨_, rfl, hdone, hstalls, hrecords, fun i hi => (hmget _).trans (State.mget_copyUnit_same hunit hwf hi),
      fun key hkey => (hmget _).trans (State.mget_copyUnit_other hunit hkey)⟩

end Sys2Proof.Machine
end

section
/-!
Links that go DOWN (O46; 14 R324, 15 R342): what a link keeps, what it loses, and what goes back to the compass.
-/

namespace Sys2Proof.Machine

/-! ### Where no sounding runs -/

theorem State.sendOwnLsa_quiet {s : State} (h : s.sounding = false) : s.sendOwnLsa = s := if_pos (by simp [h])

theorem State.dbChanged_quiet {s : State} (h : s.sounding = false) : s.dbChanged = s := if_neg (by simp [h])

theorem State.adjChanged_quiet {s : State} (h : s.sounding = false) : s.adjChanged = s := by
  rw [State.adjChanged, State.sendOwnLsa_quiet h, State.dbChanged_quiet h]

theorem lkIdx_ne_device (k : Nat) : 0x5000 ≠ lkIdx k := by
  simp only [lkIdx]
  omega

@[simp] theorem State.sounding_setEnt_link (s : State) (k v : Nat) {j : Nat} (hj : j < 256) : (s.setEnt (lkIdx k) j v).sounding = s.sounding := by
  rw [State.sounding, State.ent_setEnt_apart _ _ hj (by decide) (.inl (lkIdx_ne_device k)), ← State.sounding]

/-! ### FABRIC_EVENT -/

/-- A fabric event reaches the cores' device events and its cause entry alone. -/
theorem State.fabricEvent_eq (s : State) (bits : Nat) : ∃ cores dict, s.fabricEvent bits = { s with cores := cores, dict := dict } := by
  unfold State.fabricEvent
  split <;> exact ⟨_, _, rfl⟩

theorem State.ent_fabricEvent (s : State) (bits : Nat) {i j : Nat} (hj : j < 256) (hne : i ≠ 0x5000 ∨ j ≠ 0x21) :
    (s.fabricEvent bits).ent i j = s.ent i j := by
  unfold State.fabricEvent
  split
  · rfl
  · exact State.ent_setEnt_apart s _ (by decide) hj hne

/-! ### DOWN -/

/-- The packets of a link whose last flit was not acknowledged, marked resent. -/
def State.unacked (s : State) (k : Nat) : List Transit :=
  (s.linkSt k).retry.filterMap (fun f => f.pkt.map (fun p => { pkt := { p with resent := true }, since := s.time }))

/-- Link `k` stopped in state `st`: it keeps its lanes and role and the messages drained, and gives its packets back. -/
def State.stopped (s : State) (k st : Nat) : State :=
  ({ s.setLink k { txGood := (s.linkSt k).txGood, rxGood := (s.linkSt k).rxGood, role := (s.linkSt k).role, sounds := (s.linkSt k).sounds } with
    compass := s.compass ++ s.unacked k } : State).setEnt (lkIdx k) 0x03 st

section
variable (s : State) (k st : Nat)

@[simp] theorem stopped_mem : (s.stopped k st).mem = s.mem := by
  rw [State.stopped, State.setEnt_mem]
  rfl

@[simp] theorem stopped_stalls : (s.stopped k st).stalls = s.stalls := by
  rw [State.stopped, State.setEnt_stalls]
  rfl

@[simp] theorem stopped_compass : (s.stopped k st).compass = s.compass ++ s.unacked k := by
  rw [State.stopped, State.setEnt_compass]

@[simp] theorem State.lkState_stopped : (s.stopped k st).lkState k = st := State.ent_setEnt _ _ _ _

@[simp] theorem State.linkSt_stopped : (s.stopped k st).linkSt k =
    { txGood := (s.linkSt k).txGood, rxGood := (s.linkSt k).rxGood, role := (s.linkSt k).role, sounds := (s.linkSt k).sounds } := by
  rw [State.stopped, State.linkSt_of_setEnt]
  exact State.linkSt_setLink s k _

theorem State.linkSt_stopped_other {j : Nat} (hj : j ≠ k) : (s.stopped k st).linkSt j = s.linkSt j := by
  rw [State.stopped, State.linkSt_of_setEnt]
  exact State.linkSt_setLink_other s _ hj

end

theorem State.linkStop_running {s : State} {k : Nat} (hruns : lkRuns (s.lkState k) = true) (st : Nat) :
    s.linkStop k st = (s.stopped k st).adjChanged := if_neg (by simp [hruns])

theorem State.sounding_stopped (s : State) (k st : Nat) : (s.stopped k st).sounding = s.sounding :=
  State.sounding_setEnt_link _ k st (by decide)

/-- A link that carries codewords is neither DISABLED nor DOWN: its loss is counted, told and reported. -/
theorem State.linkDown_running {s : State} {k : Nat} (hruns : lkRuns (s.lkState k) = true) :
    s.linkDown k = (((s.linkStop k lsDOWN).bump (lkIdx k) 0x15 32 1).fabricEvent 4).linkReport k := by
  refine if_neg ?_
  simp only [lkRuns, lsUP, lsDEGRADING, lsMISMATCH, lsDISABLED, lsDOWN, Bool.or_eq_true, beq_iff_eq] at hruns ⊢
  omega

/-- Settles O46: with no sounding the link stops, and nothing follows but the count, the event and the report. -/
theorem downLinksGiveBackTheirPackets : Obligations.DownLinksGiveBackTheirPackets := by
  intro s k hruns hquiet
  have hstop : s.linkStop k lsDOWN = s.stopped k lsDOWN := by
    rw [State.linkStop_running hruns, State.adjChanged_quiet ((s.sounding_stopped k lsDOWN).trans hquiet)]
  have hstate : ((s.stopped k lsDOWN).bump (lkIdx k) 0x15 32 1).lkState k = lsDOWN := by
    rw [State.bump, State.lkState, State.ent_setEnt_sub, if_neg (by decide), ← State.lkState, State.lkState_stopped]
  have hlink := s.linkSt_stopped k lsDOWN
  have hother := fun j => s.linkSt_stopped_other k lsDOWN (j := j)
  have hcompass := stopped_compass s k lsDOWN
  have hmem := stopped_mem s k lsDOWN
  have hstalls := stopped_stalls s k lsDOWN
  rw [State.linkDown_running hruns, hstop]
  generalize s.stopped k lsDOWN = x at hstate hlink hother hcompass hmem hstalls ⊢
  have hdown : ((x.bump (lkIdx k) 0x15 32 1).fabricEvent 4).lkState k = lsDOWN := (State.ent_fabricEvent _ 4 (by decide) (.inr (by decide))).trans hstate
  obtain ⟨cores, dict, hevent⟩ := (x.bump (lkIdx k) 0x15 32 1).fabricEvent_eq 4
  rw [hevent] at hdown ⊢
  exact ⟨hdown, (congrArg Link.retry hlink :), (congrArg Link.greeted hlink :), (congrArg Link.txGood hlink :), (congrArg Link.rxGood hlink :), hcompass,
    hmem, hstalls, hother⟩

end Sys2Proof.Machine
end

section
/-!
The links (O44, O45; 14 R313 to R325): what a link that runs does with codewords and failing lanes, and how a link trains and stops.
-/

namespace Sys2Proof.Machine

/-! ### The commands of a link -/

theorem absent_laneFailure {k lane : Nat} (hk : k < nLinks) (hlane : lane < 4) : (Instr.laneFailure k lane).absent = none := by
  simp [Instr.absent, Instr.units, UnitKind.has, UnitKind.range, hk, hlane]

theorem State.lkState_of_setEnt (s : State) (k v : Nat) {j : Nat} (hj : j ≠ 0x03) : (s.setEnt (lkIdx k) j v).lkState k = s.lkState k := by
  rw [State.lkState, State.ent_setEnt_sub, if_neg hj.symm, ← State.lkState]

/-! ### Codewords -/

section
variable {s : State} {k : Nat}

theorem doDataCodeword_uncorrectable (hruns : lkRuns (s.lkState k) = true) (hdr : BitVec 20) (flits : List (List Byte)) :
    doDataCodeword k .uncorrectable hdr flits s = (s.bump (lkIdx k) 0x11 64 1).flitError k := by
  simp [doDataCodeword, hruns]

/-- A codeword of type 1 that the decoder need not correct brings nothing. -/
theorem doDataCodeword_idle (hruns : lkRuns (s.lkState k) = true) {hdr : BitVec 20} (hcwt : hdr.toNat / 2 ^ 18 = 1) (flits : List (List Byte)) :
    doDataCodeword k .clean hdr flits s = s := by
  simp only [doDataCodeword, hcwt]
  simp [hruns]

theorem doDataCodeword_idle_corrected (hruns : lkRuns (s.lkState k) = true) {hdr : BitVec 20} (hcwt : hdr.toNat / 2 ^ 18 = 1)
    (flits : List (List Byte)) : doDataCodeword k .corrected hdr flits s = s.bump (lkIdx k) 0x10 64 1 := by
  simp only [doDataCodeword, hcwt]
  simp [hruns]

/-- A clean codeword of flits: its ACK, its credits, its flits, and then the messages that its credits let go. -/
theorem doDataCodeword_clean (hruns : lkRuns (s.lkState k) = true) {hdr : BitVec 20} (hcwt : hdr.toNat / 2 ^ 18 = 0) (flits : List (List Byte))
    {x : State} (hflits : (flits.take 5).foldl (fun s f => if lkRuns (s.lkState k) then s.rxFlit k f else s)
      (s.updLink k (fun l => (l.acked (hdr.toNat / 64 % 4096)).credit (hdr.toNat / 16 % 4) (hdr.toNat % 16))) = x)
    (hx : lkRuns (x.lkState k) = true) :
    doDataCodeword k .clean hdr flits s = x.flushSounds k ((x.linkSt k).outSounds.length + 1) := by
  rw [← hflits] at hx ⊢
  simp only [doDataCodeword, hcwt]
  simp [hruns, hx]

theorem doRetryTimeout_resends (hruns : lkRuns (s.lkState k) = true) (hretry : (s.linkSt k).retry ≠ []) : doRetryTimeout k s = s.resend k := by
  simp [doRetryTimeout, hruns, hretry]

/-! ### Lanes -/

/-- Where the lanes left give no width, the link goes DOWN. -/
theorem State.narrow_down {after : BitVec 4} {tx : Bool} (before : BitVec 4) (h : s.newWidth k (if tx then s.txWidth k else s.rxWidth k) after = none) :
    s.narrow k tx before after = s.linkDown k := by
  simp only [State.narrow, h]

/-- A narrower receive width makes a link that is UP degrade. -/
theorem State.narrow_rx {after : BitVec 4} {w : Nat} (before : BitVec 4) (h : s.newWidth k (s.rxWidth k) after = some w) (hw : w ≠ s.rxWidth k)
    (hup : s.lkState k = lsUP) :
    s.narrow k false before after = (((s.setWidths k (s.txWidth k) w).bump (lkIdx k) 0x14 32 1).setEnt (lkIdx k) 0x03 lsDEGRADING).adjChanged := by
  have hstill : ((s.setWidths k (s.txWidth k) w).bump (lkIdx k) 0x14 32 1).lkState k = lsUP := by
    rw [State.bump, State.lkState_of_setEnt _ _ _ (by decide), State.setWidths, State.lkState_of_setEnt _ _ _ (by decide), hup]
  simp [State.narrow, h, hw, hstill]

theorem doAlignmentCodeword_recovers (hruns : lkRuns (s.lkState k) = true) {good : BitVec 4} (hgood : (s.linkSt k).txGood &&& good = (s.linkSt k).txGood)
    (hstate : s.lkState k = lsDEGRADING) : doAlignmentCodeword k good s = (s.setEnt (lkIdx k) 0x03 lsUP).adjChanged := by
  rw [hstate] at hruns
  simp [doAlignmentCodeword, hgood, hstate, hruns]

theorem doAlignmentCodeword_narrows (hruns : lkRuns (s.lkState k) = true) {good : BitVec 4} (hgood : (s.linkSt k).txGood &&& good ≠ (s.linkSt k).txGood) :
    doAlignmentCodeword k good s =
      (s.updLink k (fun l => { l with txGood := (s.linkSt k).txGood &&& good })).narrow k true (s.linkSt k).txGood ((s.linkSt k).txGood &&& good) := by
  simp [doAlignmentCodeword, hruns, hgood]

theorem doLaneFailure_narrows (hruns : lkRuns (s.lkState k) = true) {lane : Nat} (hlane : lane < 4) (hgood : maskBit (s.linkSt k).rxGood lane = true)
    {g : BitVec 4} (hg : maskClr (s.linkSt k).rxGood lane = g) :
    doLaneFailure k lane s = (((s.updLink k (fun l => { l with rxGood := g })).setEnt (lkIdx k) 0x05 g.toNat).linkReport k).narrow k false
      (s.linkSt k).rxGood g := by
  subst hg
  simp [doLaneFailure, hruns, hgood, Nat.not_le.mpr hlane]

end

/-- Settles O44: a link that runs passes each command's first test, and what it received decides the rest. -/
theorem linksCarryCodewords : Obligations.LinksCarryCodewords := by
  refine ⟨fun s hcore => ⟨fun k fec hdr flits ha => exec_dataCodeword k fec hdr flits s ha hcore,
    fun k good ha => exec_alignmentCodeword k good s ha hcore, fun k ha => exec_retryTimeout k s ha hcore,
    fun k lane ha => exec_laneFailure k lane s ha hcore⟩, fun s k hdr flits hk hcore hruns => ?_⟩
  have hdata := fun fec => exec_dataCodeword k fec hdr flits s (Instr.absent_of_unit_lt rfl rfl hk) hcore
  have halign := fun good => exec_alignmentCodeword k good s (Instr.absent_of_unit_lt rfl rfl hk) hcore
  have hlane := fun lane (hl : lane < 4) => exec_laneFailure k lane s (absent_laneFailure hk hl) hcore
  refine ⟨?uncorrectable, ?idle, ?clean, ?retry, ?recovers, ?partnerDown, ?lane⟩
  case uncorrectable => rw [hdata, doDataCodeword_uncorrectable hruns]
  case idle =>
    intro hcwt
    rw [hdata, hdata, doDataCodeword_idle hruns hcwt, doDataCodeword_idle_corrected hruns hcwt]
    exact ⟨rfl, rfl⟩
  case clean =>
    intro x hcwt hflits hx
    rw [hdata, doDataCodeword_clean hruns hcwt flits hflits hx]
  case retry =>
    intro hretry
    rw [exec_retryTimeout k s (Instr.absent_of_unit_lt rfl rfl hk) hcore, doRetryTimeout_resends hruns hretry]
  case recovers =>
    intro good hgood hstate
    rw [halign, doAlignmentCodeword_recovers hruns hgood hstate]
  case partnerDown =>
    intro good x hgood hx hnone
    rw [halign, doAlignmentCodeword_narrows hruns hgood, hx, State.narrow_down _ hnone]
  case lane =>
    intro lane g x hl hgood hg hx
    refine ⟨fun hnone => ?_, fun w hw hne hup => ?_⟩
    · rw [hlane lane hl, doLaneFailure_narrows hruns hl hgood hg, hx, State.narrow_down _ hnone]
    · rw [hlane lane hl, doLaneFailure_narrows hruns hl hgood hg, hx, State.narrow_rx _ hw hne hup]

/-! ### Training -/

section
variable {s : State} {k : Nat}

theorem doLkRetryMs_trains (henabled : s.ent (lkIdx k) 0x01 = 1) (hup : s.lkState k ≠ lsUP) (hdegrading : s.lkState k ≠ lsDEGRADING)
    (hiso : maskBit s.isoLinks k = false) : doLkRetryMs k s = (s.linkStop k lsTRAINING).trainLink k false := by
  simp [doLkRetryMs, henabled, hup, hdegrading, hiso]

/-- A training that succeeds: the link afresh and UP with its widths, and HELLO to its partner. -/
theorem doLinkUp_training {x : State} (henabled : s.ent (lkIdx k) 0x01 = 1) (hstate : s.lkState k = lsTRAINING) (hiso : maskBit s.isoIocs (k % 4) = false)
    (htx : (s.newWidth k 4 (s.linkSt k).txGood).isSome = true) (hrx : (s.newWidth k 4 (s.linkSt k).rxGood).isSome = true)
    (hx : (((s.setLink k { txGood := (s.linkSt k).txGood, rxGood := (s.linkSt k).rxGood, role := (s.linkSt k).role }).setEnt (lkIdx k) 0x03
      lsUP).setWidths k (bestWidth (s.linkSt k).txGood) (bestWidth (s.linkSt k).rxGood)).setEnt (lkIdx k) 0x05 (s.linkSt k).rxGood.toNat = x) :
    doLinkUp k s = x.sendSound k (helloMsg x.myFlags k (s.linkSt k).role x.nodeId mySerial) := by
  subst hx
  simp [doLinkUp, henabled, hstate, hiso, Option.isNone_eq_false_iff.mpr htx, Option.isNone_eq_false_iff.mpr hrx]

theorem doRetrain_enabled (h : s.ent (lkIdx k) 0x01 = 1) : doRetrain k s = (s.linkStop k lsTRAINING).trainLink k false := by
  simp [doRetrain, h]

theorem doRetrainFull_enabled (h : s.ent (lkIdx k) 0x01 = 1) : doRetrainFull k s = (s.linkDown k).trainLink k true := by
  simp [doRetrainFull, h]

theorem doTakeDown_enabled (h : s.ent (lkIdx k) 0x01 = 1) : doTakeDown k s = (s.sendDown k 3).linkDown k := by
  simp [doTakeDown, h]

/-- A write of LK_ENABLE that is taken enables or releases the link. -/
theorem State.applyEntry_lkEnable (s : State) (p : Path) (hk : k < nLinks) (v : Nat) :
    (s.applyEntry p (lkIdx k) 0x01 v).1 = doLkEnable k (v == 1) s := by
  have hrange : 0x5010 ≤ lkIdx k ∧ lkIdx k < 0x501C := by simp only [lkIdx, nLinks] at *; omega
  have hsub : lkIdx k - 0x5010 = k := Nat.add_sub_cancel_left ..
  simp [State.applyEntry, entryMask, entryInfo, linkInfo, show ¬lkIdx k < 0x3140 by omega, show ¬lkIdx k < 0x4010 by omega,
    show ¬0x7000 ≤ lkIdx k by omega, show lkIdx k ≠ 0x6000 by omega, hrange, hsub, State.applyLink]

theorem doLkEnable_on (h : s.ent (lkIdx k) 0x01 ≠ 1) : doLkEnable k true s = (s.setEnt (lkIdx k) 0x01 1).trainLink k true := by
  simp [doLkEnable, h]

theorem doLkEnable_off (k : Nat) (s : State) : doLkEnable k false s = (s.linkStop k lsDISABLED).setEnt (lkIdx k) 0x01 0 := rfl

theorem helmRuns_of_coreRuns (h : s.coreRuns = true) : s.helmRuns = true := (Bool.and_eq_true_iff.mp h).1

end

/-- Settles O45: an enabled link that may train does, and LK_ENABLE acts where its write is taken. -/
theorem linksTrainAndStop : Obligations.LinksTrainAndStop := by
  refine ⟨fun s hcore => ⟨fun k ha => exec_lkRetryMs k s ha hcore, fun k ha => exec_linkUp k s ha hcore, fun k ha => exec_retrain k s ha hcore,
    fun k ha => exec_takeDown k s ha hcore, fun k ha => exec_retrainFullWidth k s ha hcore⟩,
    fun s hhelm => fun p k on ha => exec_lkEnable p k on s ha hhelm, fun s k hk hcore => ?_⟩
  refine ⟨?retries, ?up, ?commands, ?enable, ?release⟩
  case retries =>
    intro henabled hup hdegrading hiso
    rw [exec_lkRetryMs k s (Instr.absent_of_unit_lt rfl rfl hk) hcore, doLkRetryMs_trains henabled hup hdegrading hiso]
  case up =>
    intro x henabled hstate hiso htx hrx hx
    rw [exec_linkUp k s (Instr.absent_of_unit_lt rfl rfl hk) hcore, doLinkUp_training henabled hstate hiso htx hrx hx]
  case commands =>
    intro henabled
    rw [exec_retrain k s (Instr.absent_of_unit_lt rfl rfl hk) hcore, exec_retrainFullWidth k s (Instr.absent_of_unit_lt rfl rfl hk) hcore,
      exec_takeDown k s (Instr.absent_of_unit_lt rfl rfl hk) hcore, doRetrain_enabled henabled, doRetrainFull_enabled henabled,
      doTakeDown_enabled henabled]
    exact ⟨rfl, rfl, rfl⟩
  case enable =>
    intro p ha htakes hoff
    rw [exec_lkEnable p k true s ha (helmRuns_of_coreRuns hcore), show b2n true = 1 from rfl, State.dictWrite_of_writeTakes htakes,
      State.applyEntry_lkEnable s p hk, show (1 == 1) = true from rfl, doLkEnable_on hoff]
  case release =>
    intro p ha htakes
    rw [exec_lkEnable p k false s ha (helmRuns_of_coreRuns hcore), show b2n false = 0 from rfl, State.dictWrite_of_writeTakes htakes,
      State.applyEntry_lkEnable s p hk, show (0 == 1) = false from rfl, doLkEnable_off]

end Sys2Proof.Machine
end

section
/-!
Sounding (O47; 14 R326 to R333): what each message and each SOUND_CMD does where nothing stands against it.
-/

namespace Sys2Proof.Machine

section
variable {s s1 : State} {k : Nat} {m : List Byte}

theorem doHello_greets (hs1 : s.takeSound k m = s1) (htype : leAt m 0 1 = 1) (hlength : m.length = 16) (hruns : lkRuns (s1.lkState k) = true)
    (hrole : leAt m 3 1 = (s1.linkSt k).role) (hformat : leAt m 6 1 = 1) :
    doHello k m s = ((((s1.setEnt (lkIdx k) 0x08 (leAt m 8 8)).setEnt (lkIdx k) 0x09 (leAt m 2 1)).setEnt (lkIdx k) 0x0A (leAt m 4 2)).updLink k
      (fun l => { l with greeted := true })).adjChanged := by
  subst hs1
  simp [doHello, htype, hlength, hruns, hrole, hformat]

/-- The LSA of a node not yet in the database. -/
theorem doLsa_new {n : SNode} {s2 s3 : State} (hs1 : s.takeSound k m = s1) (htype : leAt m 0 1 = 2) (hread : readLsa m = some n)
    (hsounding : s1.sounding = true) (hmine : n.serial ≠ mySerial) (hnew : s1.sound.db.find? (fun x => x.serial == n.serial) = none)
    (hstore : s1.storeNode n = some s2)
    (hs3 : (upTo nLinks).foldl (fun s j => if s.ent (lkIdx j) 0x08 = n.serial ∧ (s.linkSt j).greeted then s.setEnt (lkIdx j) 0x0A n.node else s)
      (s2.flood (some k) m) = s3) :
    doLsa k m s = (s3.setEnt 0x5000 0x05 (if s3.ent 0x5000 0x05 = 5 then 5 else 1)).dbChanged := by
  simp [doLsa, hs1, htype, hread, hsounding, hmine, hnew, hstore, hs3]

/-- Another node is the lowest that may be master: this one waits for its assignment. -/
theorem doSoundQuiet_waits {n : Nat} (hsounding : s.sounding = true)
    (hlowest : minNat ((s.sound.db.filter (fun n => nbit n.flags 0)).map (·.serial)) = some n) (hmine : n ≠ mySerial) (hassigned : s.ent 0x5000 0x05 ≠ 5) :
    doSoundQuiet s = (s.setEnt 0x5000 0x0B n).setEnt 0x5000 0x05 3 := by
  simp [doSoundQuiet, hsounding, hlowest, hmine, State.ent_setEnt_sub, hassigned]

/-- No node may be master, and no tally gives this one its number. -/
theorem doSoundQuiet_unassigned (hsounding : s.sounding = true)
    (hnone : minNat ((s.sound.db.filter (fun n => nbit n.flags 0)).map (·.serial)) = none) (htally : (s.setEnt 0x5000 0x0B 0).ent 0x5000 0x02 = 0xFFFF) :
    doSoundQuiet s = ((s.setEnt 0x5000 0x0B 0).setEnt 0x5000 0x05 2).setEnt 0x5000 0x06 1 := by
  simp [doSoundQuiet, hsounding, hnone, htally]

/-- The last part of an assignment, all of it in one message. -/
theorem doAssign_applies {s2 : State} {ids : List (Nat × Nat × Nat)} (hs1 : s.takeSound k m = s1) (htype : leAt m 0 1 = 3) (hok : soundOk m = true)
    (hsounding : s1.sounding = true) (hmaster : leAt m 8 8 = s1.ent 0x5000 0x0B) (hlater : s1.ent 0x5000 0x0C < leAt m 4 4)
    (hepoch : s1.sound.epoch ≠ leAt m 4 4)
    (hids : (upTo (leAt m 2 2)).map (fun i => (leAt m 16 4 + i, leAt m (24 + 10 * i) 8, leAt m (32 + 10 * i) 2)) = ids)
    (hall : leAt m 20 4 ≤ ids.length)
    (hs2 : ({ s1 with sound := { s1.sound with seen := max s1.sound.seen (leAt m 4 4), epoch := leAt m 4 4, part := ids } } : State).flood (some k) m = s2) :
    doAssign k m s = s2.applyIds (leAt m 4 4) (ids.map (fun e => (e.2.1, e.2.2))) := by
  have hsounding' : ({ s1 with sound := { s1.sound with seen := max s1.sound.seen (leAt m 4 4) } } : State).sounding = true := hsounding
  have hmaster' : leAt m 8 8 = ({ s1 with sound := { s1.sound with seen := max s1.sound.seen (leAt m 4 4) } } : State).ent 0x5000 0x0B := hmaster
  have hlater' : ¬leAt m 4 4 ≤ ({ s1 with sound := { s1.sound with seen := max s1.sound.seen (leAt m 4 4) } } : State).ent 0x5000 0x0C :=
    Nat.not_le.mpr hlater
  simp only [doAssign, hs1, htype, hok, hsounding', ← hmaster', if_neg hepoch, List.nil_append, hids, hs2, ge_iff_le, if_pos hall]
  simp [hlater']

theorem doNodedown_link (hs1 : s.takeSound k m = s1) (htype : leAt m 0 1 = 4) (hlength : m.length = 16) (h1 : leAt m 1 1 ≠ 1) (h2 : leAt m 1 1 ≠ 2) :
    doNodedown k m s = (s1.linkDown k).fabricEvent 32 := by
  simp [doNodedown, hs1, htype, hlength, h1, h2]

theorem doStartSounding_sends (hbuffer : s.ent 0x5000 0x08 ≠ 0) (hroom : ((s.setEnt 0x5000 0x05 1).setEnt 0x5000 0x06 0).dbRoom ≠ 0) :
    doStartSounding s = ((s.setEnt 0x5000 0x05 1).setEnt 0x5000 0x06 0).sendOwnLsa := by
  simp [doStartSounding, hbuffer, hroom]

theorem doRebuildCharts_sounding (h : s.sounding = true) : doRebuildCharts s = s.rebuild true := if_pos h

end

/-- Settles O47: each command is its definition's, on the branch that its conditions take. -/
theorem soundingCommandsTakeEffect : Obligations.SoundingCommandsTakeEffect := by
  refine ⟨fun s hcore => ⟨fun k m ha => exec_hello k m s ha hcore, fun k m ha => exec_lsa k m s ha hcore, exec_lsaRefresh s hcore,
    exec_soundQuiet s hcore, fun k m ha => exec_assign k m s ha hcore, fun k m ha => exec_nodedown k m s ha hcore, exec_startSounding s hcore,
    exec_rebuildCharts s hcore, exec_stopSounding s hcore⟩, fun s s1 k m hk hcore hs1 => ?_⟩
  refine ⟨?hello, ?lsa, ?refresh, ?waits, ?unassigned, ?assign, ?nodedown, ?start, ?rebuild, exec_stopSounding s hcore⟩
  case hello =>
    intro htype hlength hruns hrole hformat
    rw [exec_hello k m s (Instr.absent_of_unit_lt rfl rfl hk) hcore, doHello_greets hs1 htype hlength hruns hrole hformat]
  case lsa =>
    intro n s2 s3 htype hread hsounding hmine hnew hstore hs3
    rw [exec_lsa k m s (Instr.absent_of_unit_lt rfl rfl hk) hcore, doLsa_new hs1 htype hread hsounding hmine hnew hstore hs3]
  case refresh => exact fun _ => exec_lsaRefresh s hcore
  case waits =>
    intro n hsounding hlowest hmine hassigned
    rw [exec_soundQuiet s hcore, doSoundQuiet_waits hsounding hlowest hmine hassigned]
  case unassigned =>
    intro hsounding hnone htally
    rw [exec_soundQuiet s hcore, doSoundQuiet_unassigned hsounding hnone htally]
  case assign =>
    intro s2 ids htype hok hsounding hmaster hlater hepoch hids hall hs2
    rw [exec_assign k m s (Instr.absent_of_unit_lt rfl rfl hk) hcore,
      doAssign_applies hs1 htype hok hsounding hmaster hlater hepoch hids hall hs2]
  case nodedown =>
    intro htype hlength h1 h2
    rw [exec_nodedown k m s (Instr.absent_of_unit_lt rfl rfl hk) hcore, doNodedown_link hs1 htype hlength h1 h2]
  case start =>
    intro hbuffer hroom
    rw [exec_startSounding s hcore, doStartSounding_sends hbuffer hroom]
  case rebuild =>
    intro hsounding
    rw [exec_rebuildCharts s hcore, doRebuildCharts_sounding hsounding]

end Sys2Proof.Machine
end

section
/-!
The compass (O48, O52; 15 R338 to R347): routing, injection and the time base. That the oldest packet at an arbiter goes first is log entry 125; that
ROUTE_HOLD before its time does nothing is log entry 7; that the stamps are the commands' operands is log entry 67.
-/

namespace Sys2Proof.Machine

/-! ### PACKET_ROUTE -/

section
variable {s g : State} {i : Nat} {t : Transit}

/-- A packet is for this node: its DST names it, or is the neighbour's 0xFFFF. -/
def State.isMine (s : State) (t : Transit) : Prop := t.pkt.dst = s.nodeId ∨ t.pkt.dst = 0xFFFF

theorem doPacketRoute_mine (ht : listAt s.compass i = some t) (hg : ({ s with compass := listDel s.compass i } : State).freeBuffers t = g)
    (hmine : s.isMine t) : doPacketRoute i s = if s.outranked t then s else g.arrive t := by
  unfold doPacketRoute
  simp only [ht, hg]
  exact if_pos hmine

/-- The packet has an entry to go by: a valid one of its chart, or, once it has turned to the escape tree, a tree link. -/
def State.hasEntry (s : State) (t : Transit) : Prop :=
  chValid (s.entryFor t.pkt.dst) = true ∨ (t.pkt.esc = true ∧ (s.treeLink t.pkt.dst).isSome = true)

theorem State.not_hasEntry_iff (s : State) (t : Transit) :
    ¬s.hasEntry t ↔ (!chValid (s.entryFor t.pkt.dst) && !(t.pkt.esc && (s.treeLink t.pkt.dst).isSome)) = true := by
  rw [State.hasEntry, not_or, Bool.and_eq_true, Bool.not_eq_true', Bool.not_eq_true', Bool.not_eq_true, ← Bool.and_eq_true, Bool.not_eq_true]

theorem doPacketRoute_noEntry (ht : listAt s.compass i = some t) (hg : ({ s with compass := listDel s.compass i } : State).freeBuffers t = g)
    (hmine : ¬s.isMine t) (hentry : ¬s.hasEntry t) : doPacketRoute i s = g.noRoute t := by
  unfold doPacketRoute
  simp only [ht, hg]
  rw [if_neg (by exact hmine), if_pos ((s.not_hasEntry_iff t).mp hentry)]

theorem doPacketRoute_waits (ht : listAt s.compass i = some t) (hmine : ¬s.isMine t) (hentry : s.hasEntry t)
    (hwaits : s.route t = none ∨ s.outranked t = true) : doPacketRoute i s = s := by
  have hsome := fun h => (s.not_hasEntry_iff t).mpr h hentry
  unfold doPacketRoute
  simp only [ht]
  rw [if_neg (by exact hmine), if_neg hsome]
  cases hroute : s.route t with
  | none => rfl
  | some e => exact if_pos (hwaits.resolve_left (by simp [hroute]))

theorem doPacketRoute_departs {k : Nat} {p : Pkt} {s1 s2 : State} (ht : listAt s.compass i = some t)
    (hg : ({ s with compass := listDel s.compass i } : State).freeBuffers t = g) (hmine : ¬s.isMine t) (hentry : s.hasEntry t)
    (hroute : s.route t = some (k, p)) (hfirst : s.outranked t = false)
    (hs1 : (if p.esc && !t.pkt.esc then g.bump 0x5000 0x1C 64 1 else g) = s1) (hs2 : (if p.nm && !t.pkt.nm then s1.bump 0x5000 0x1D 64 1 else s1) = s2) :
    doPacketRoute i s = s2.transmit k ftDATA (t.depart s.time k p).vc (t.depart s.time k p).bytes (some (t.depart s.time k p)) := by
  have hsome := fun h => (s.not_hasEntry_iff t).mpr h hentry
  unfold doPacketRoute
  simp only [ht, hg, hroute, hfirst, hs1, hs2]
  rw [if_neg (by exact hmine), if_neg hsome]
  rfl

/-! ### ROUTE_HOLD -/

theorem doRouteHold_mine (ht : listAt s.compass i = some t) (hmine : s.isMine t) : doRouteHold i s = s := by
  unfold doRouteHold
  simp only [ht]
  exact if_pos hmine

/-- The packet has waited its time and nothing takes it. -/
def State.holdOver (s : State) (t : Transit) : Prop :=
  t.since + s.ent 0x5000 0x12 * 100 ≤ s.time ∧ s.routes t.pkt.dst = [] ∧ s.treeLink t.pkt.dst = none

theorem doRouteHold_over (ht : listAt s.compass i = some t) (hg : ({ s with compass := listDel s.compass i } : State).freeBuffers t = g)
    (hmine : ¬s.isMine t) (hover : s.holdOver t) : doRouteHold i s = g.noRoute t := by
  unfold doRouteHold
  simp only [ht, hg]
  rw [if_neg (by exact hmine), if_pos (by simpa [State.holdOver] using hover)]

theorem doRouteHold_waits (ht : listAt s.compass i = some t) (hmine : ¬s.isMine t) (hover : ¬s.holdOver t) : doRouteHold i s = s := by
  unfold doRouteHold
  simp only [ht]
  rw [if_neg (by exact hmine), if_neg (by simpa [State.holdOver] using hover)]

/-! ### REQUEST_INJECTION -/

theorem doRequestInjection_sends {b left n tg : Nat} {x : Slot} (hturn : s.injectBerth = some (b, left)) (hslot : s.oldestSlot b = some (n, x))
    (htg : (SMap.get (fun _ => 0) s.tgens n + 1) % 256 = tg) :
    doRequestInjection s = (({ s with tgens := SMap.set (fun _ => 0) s.tgens n tg, injBerth := b, injLeft := left } : State).setSlot n
      (some { x with st := .sent, tick := s.time, pkt := { x.pkt with tgen := tg } })).emit { x.pkt with tgen := tg } := by
  simp only [doRequestInjection, hturn, hslot, htg]

end

/-- Settles O48: a packet is for this node, or has an entry, or has none; each command's conditions are its definition's. -/
theorem packetsAreRouted : Obligations.PacketsAreRouted := by
  refine ⟨fun s hcore => ⟨fun i => exec_packetRoute i s hcore, fun i => exec_routeHold i s hcore, exec_requestInjection s hcore⟩,
    fun s g i t hcore ht hg => ⟨fun hmine => ?mine, fun hnode hnear => ?other, fun b left n x tg hturn hslot htg => ?inject⟩⟩
  case mine =>
    rw [exec_packetRoute i s hcore, exec_routeHold i s hcore, doPacketRoute_mine ht hg hmine, doRouteHold_mine ht hmine]
    exact ⟨fun hfirst => by rw [if_neg (by simp [hfirst])], fun hout => by rw [if_pos hout], rfl⟩
  case other =>
    have hmine : ¬s.isMine t := not_or.mpr ⟨hnode, hnear⟩
    rw [exec_packetRoute i s hcore, exec_routeHold i s hcore]
    refine ⟨fun hinvalid hescape => ?_, fun hentry => ⟨fun hwaits => ?_, fun k p s1 s2 hroute hfirst hs1 hs2 => ?_⟩, fun hsince hroutes htree => ?_,
      fun hstill => ?_⟩
    · rw [doPacketRoute_noEntry ht hg hmine]
      rintro (hvalid | ⟨hesc, hlink⟩)
      · simp [hvalid] at hinvalid
      · rcases hescape with hesc' | hlink'
        · simp [hesc] at hesc'
        · simp [hlink'] at hlink
    · rw [doPacketRoute_waits ht hmine hentry hwaits]
    · rw [doPacketRoute_departs ht hg hmine hentry hroute hfirst hs1 hs2]
    · rw [doRouteHold_over ht hg hmine ⟨hsince, hroutes, htree⟩]
    · rw [doRouteHold_waits ht hmine]
      rintro ⟨hsince, hroutes, htree⟩
      rcases hstill with h | h | h
      · omega
      · exact h hroutes
      · exact h htree
  case inject => rw [exec_requestInjection s hcore, doRequestInjection_sends hturn hslot htg]

/-! ### The time base -/

section
variable {s : State} {k : Nat}

theorem State.sendTime_up (hup : s.lkState k = lsUP) (hcredit : 1 ≤ ((s.linkSt k).ch 2).credits) (hroom : (s.linkSt k).room 1 = true) (pt : Nat)
    (times : List Nat) :
    s.sendTime k pt times = s.transmit k ftDATA 2 ({ pt := pt, dst := 0xFFFF, src := s.nodeId, times := times } : Pkt).bytes none :=
  if_pos ⟨hup, hcredit, hroom⟩

/-- A request to the parent. -/
theorem doTsyncInterval_up (hk : k < nLinks) (hparent : s.ent 0x5000 0x15 = k) (hup : s.lkState k = lsUP) (hcredit : 1 ≤ ((s.linkSt k).ch 2).credits)
    (hroom : (s.linkSt k).room 1 = true) :
    doTsyncInterval s = ({ s with tsOut := some (s.time * 2 ^ 16) } : State).transmit k ftDATA 2
      ({ pt := ptTSREQ, dst := 0xFFFF, src := s.nodeId, times := [s.time * 2 ^ 16, 0, 0] } : Pkt).bytes none := by
  subst hparent
  unfold doTsyncInterval
  dsimp only
  rw [if_pos ⟨hk, hup⟩]
  exact State.sendTime_up (s := { s with tsOut := some (s.time * 2 ^ 16) }) hup hcredit hroom ptTSREQ _

/-- The answer to the request outstanding, with TIME_OFFSET shown. -/
def State.offsetShown (s : State) (off : Int) : State :=
  ({ s with tsOut := none } : State).setEnt 0x5000 0x18
    ((if off > 2147483647 then 2147483647 else if off < -2147483647 then -2147483647 else off) % (2 ^ 32 : Int)).toNat

theorem State.ent_offsetShown (s : State) (off : Int) {j : Nat} (hj : j ≠ 0x18) : (s.offsetShown off).ent 0x5000 j = s.ent 0x5000 j := by
  rw [State.offsetShown, State.ent_setEnt_sub, if_neg hj]
  rfl

/-- Before the first lock, a large offset steps TIME. -/
theorem doTsyncRsp_steps {t1 t2 t3 t4 : Nat} (hout : s.tsOut = some t1) (hfree : s.ent 0x5000 0x17 = 0) (hlarge : 10000000 < tsOffset t1 t2 t3 t4) :
    doTsyncRsp t1 t2 t3 t4 s = ({ s.offsetShown (tsOffset t1 t2 t3 t4) with time := s.time + (tsOffset t1 t2 t3 t4 / 10000).toNat, tsGood := 0 } :
      State).setEnt 0x5000 0x17 1 := by
  have hstill := (s.ent_offsetShown (tsOffset t1 t2 t3 t4) (j := 0x17) (by decide)).trans hfree
  simp only [doTsyncRsp, hout, ne_eq, not_true_eq_false, if_false]
  rw [if_pos ⟨hstill, hlarge⟩]
  rfl

/-- The sixteenth good exchange in a row locks. -/
theorem doTsyncRsp_locks {t1 t2 t3 t4 : Nat} (hout : s.tsOut = some t1) (hstepped : s.ent 0x5000 0x17 = 1) (hsmall : (tsOffset t1 t2 t3 t4).natAbs < 5000)
    (hgood : s.tsGood = 15) :
    doTsyncRsp t1 t2 t3 t4 s = ({ s.offsetShown (tsOffset t1 t2 t3 t4) with tsGood := 16 } : State).setEnt 0x5000 0x17 2 := by
  have hstill := (s.ent_offsetShown (tsOffset t1 t2 t3 t4) (j := 0x17) (by decide)).trans hstepped
  have hcount : (s.offsetShown (tsOffset t1 t2 t3 t4)).tsGood = 15 := hgood
  simp only [doTsyncRsp, hout, ne_eq, not_true_eq_false, if_false]
  rw [if_neg (by rw [← State.offsetShown, hstill]; simp), if_pos hsmall, ← State.offsetShown, hcount]
  rfl

end

/-- Settles O52: a request and an answer leave by a link that is UP with a credit, and an answer acts where it is the one awaited. -/
theorem timeIsExchanged : Obligations.TimeIsExchanged := by
  refine ⟨fun s hcore => ⟨exec_tsyncInterval s hcore, fun k t1 t2 t3 ha => exec_tsyncReq k t1 t2 t3 s ha hcore,
    fun t1 t2 t3 t4 => exec_tsyncRsp t1 t2 t3 t4 s hcore⟩, fun s k t1 t2 t3 t4 hk hcore => ⟨?request, ?answer, ?steps, ?locks⟩⟩
  case request =>
    intro hparent hup hcredit hroom
    rw [exec_tsyncInterval s hcore, doTsyncInterval_up hk hparent hup hcredit hroom]
  case answer =>
    intro hup hcredit hroom
    rw [exec_tsyncReq k t1 t2 t3 s (Instr.absent_of_unit_lt rfl rfl hk) hcore, doTsyncReq, State.sendTime_up hup hcredit hroom]
  case steps =>
    intro hout hfree hlarge
    refine ⟨_, exec_tsyncRsp t1 t2 t3 t4 s hcore, ?_⟩
    rw [doTsyncRsp_steps hout hfree hlarge]
    exact ⟨rfl, State.ent_setEnt _ _ _ _, rfl, rfl⟩
  case locks =>
    intro hout hstepped hsmall hgood
    refine ⟨_, exec_tsyncRsp t1 t2 t3 t4 s hcore, ?_⟩
    rw [doTsyncRsp_locks hout hstepped hsmall hgood]
    exact ⟨rfl, State.ent_setEnt _ _ _ _, rfl⟩

end Sys2Proof.Machine
end

section
/-!
Requests at their home and responses at their slot (O49, O51; 15 R350 to R358, Table 15.4; 02 R22; 06 R124). That REMOTE_TIMEOUT of a slot not sent,
or not due, does nothing is log entries 7 and 66.
-/

namespace Sys2Proof.Machine

/-! ### A home's requests -/

/-- A home performs the request that it accepts. -/
theorem homeWith_accepts {s s1 : State} {pt b : Nat} {p : Pkt} {gs : List Gran} (h : s.accepts pt = some (p, b, gs, s1)) :
    homeWith fabricAccess pt s = s1.performReq p b gs := by
  unfold State.accepts at h
  cases hnext : s.nextRequest pt with
  | none => simp [hnext] at h
  | some t =>
    simp only [hnext] at h
    split at h
    · contradiction
    · rename_i hserved
      simp only [Bool.or_eq_true, decide_eq_true_eq, not_or, Bool.not_eq_true] at hserved
      obtain ⟨⟨⟨hage, hresent⟩, hkey⟩, hdev⟩ := hserved
      split at h
      · contradiction
      · rename_i b' hberth
        split at h
        · contradiction
        · rename_i s' gs' hdecode
          cases h
          simp [homeWith, hnext, State.homeRequest, hage, hresent, hkey, hdev, hberth, hdecode]

@[simp] theorem State.importCaps_nil (s : State) (b src : Nat) : s.importCaps b src [] = some s := by
  simp [State.importCaps, State.importsNeeded]

section
variable {s s1 s2 s3 : State} {p : Pkt} {b : Nat} {gs xs : List Gran} {t : Target}
  (htarget : s1.homeTarget b p.ver p.addr = (s2, .ok t))

section
variable (hxs : gs.map s2.capIn = xs) (hpt : p.pt ≠ ptINVOKE)
include htarget hxs hpt

theorem State.performReq_refused {e : Exc} (hop : (s2.homeOp p b t xs).2 = .refuse e) :
    s1.performReq p b gs = (if p.pt == ptLOAD then (s2.homeOp p b t xs).1 else s2).refusePkt p e := by
  obtain ⟨x, a, hx⟩ : ∃ x a, s2.homeOp p b t xs = (x, a) := ⟨_, _, rfl⟩
  rw [hx] at hop ⊢
  subst hop
  simp [State.performReq, htarget, hxs, hpt, hx]

theorem State.performReq_waits (hop : s2.homeOp p b t xs = (s3, .waits)) :
    s1.performReq p b gs = s3.homeRegister { p with cgs := gs.map CG.of } t := by
  simp [State.performReq, htarget, hxs, hpt, hop]

/-- An operation that gives a value or is done is performed once the capabilities that it brings are imported. -/
theorem State.performReq_answers {a : Answer} (hop : (s2.homeOp p b t xs).2 = a) (hwaits : a ≠ .waits)
    (hrefuse : ∀ e, a ≠ .refuse e) (himport : s2.importCaps b p.src gs = some s3) :
    s1.performReq p b gs = s2.answer (s3.homeOp p b t xs).1 p b a := by
  obtain ⟨x, a', hx⟩ : ∃ x a', s2.homeOp p b t xs = (x, a') := ⟨_, _, rfl⟩
  rw [hx] at hop
  subst hop
  cases a' with
  | waits => contradiction
  | refuse e => exact absurd rfl (hrefuse e)
  | _ => simp [State.performReq, htarget, hxs, hpt, hx, himport]

/-- Where the import table lacks room the operation is refused and its capabilities dropped. -/
theorem State.performReq_unimported {a : Answer} (hop : (s2.homeOp p b t xs).2 = a) (hwaits : a ≠ .waits)
    (hrefuse : ∀ e, a ≠ .refuse e) (himport : s2.importCaps b p.src gs = none) :
    s1.performReq p b gs = (s2.refusePkt p (reason 0x05)).dropUncounted b p.src gs := by
  obtain ⟨x, a', hx⟩ : ∃ x a', s2.homeOp p b t xs = (x, a') := ⟨_, _, rfl⟩
  rw [hx] at hop
  subst hop
  cases a' with
  | waits => contradiction
  | refuse e => exact absurd rfl (hrefuse e)
  | _ => simp [State.performReq, htarget, hxs, hpt, hx, himport]

/-- An operation whose old value goes back as DATA, its capability exported. -/
theorem State.performReq_data {s4 : State} {v : Gran} {fl : Nat} (hop : (s2.homeOp p b t xs).2 = .data v fl)
    (himport : s2.importCaps b p.src gs = some s3) (hs4 : (s3.homeOp p b t xs).1 = s4) (hroom : s4.exportRoom b p.src v = true) :
    s1.performReq p b gs = s4.sendData p b v fl := by
  rw [State.performReq_answers htarget hxs hpt hop nofun nofun himport, hs4]
  exact if_pos hroom

theorem State.performReq_ack {s4 : State} (hop : (s2.homeOp p b t xs).2 = .ack)
    (himport : s2.importCaps b p.src gs = some s3) (hs4 : (s3.homeOp p b t xs).1 = s4) :
    s1.performReq p b gs = s4.respond p ptACK 0 0 [] := by
  rw [State.performReq_answers htarget hxs hpt hop nofun nofun himport, hs4]
  rfl

end

/-! ### The operation of each type -/

theorem State.homeOp_load (s : State) (hpt : p.pt = ptLOAD) (b : Nat) (t : Target) : s.homeOp p b t [] = s.homeLoad p b t := by
  simp [State.homeOp, hpt]

section
variable (s : State) {x y : Gran} (b : Nat) (t : Target) (hx : p.badOperand x = false)
include hx

theorem State.homeOp_store (hpt : p.pt = ptSTORE) : s.homeOp p b t [x] = (s.homeWrite p b t x, .ack) := by
  simp [State.homeOp, hpt, hx]

theorem State.homeOp_cas (hpt : p.pt = ptCAS) (hy : p.badOperand y = false) : s.homeOp p b t [x, y] = s.homeCas p b t x y := by
  simp [State.homeOp, hpt, hx, hy]

theorem State.homeOp_fadd (hpt : p.pt = ptFADD) : s.homeOp p b t [x] = s.homeFadd p b t x.lo := by
  simp [State.homeOp, hpt, hx]

theorem State.homeOp_fill (hpt : p.pt = ptFILL) : s.homeOp p b t [x] = s.homeFill p b t x := by
  simp [State.homeOp, hpt, hx]

end

/-! ### INVOKE -/

section
include htarget
variable {g g' : Gran} (hpt : p.pt = ptINVOKE) (himport : s2.importCaps b p.src [g, g'] = some s3)
include hpt himport

theorem State.performReq_invoked {s4 : State} (hinvoke : s3.invokeHome .compass b p.src (s2.capIn g) (s2.capIn g') = (s4, .ok ())) :
    s1.performReq p b [g, g'] = s4.respond p ptACK 0 0 [] := by
  simp [State.performReq, htarget, hpt, himport, hinvoke]

theorem State.performReq_uninvoked {s4 : State} {e : Exc}
    (hinvoke : s3.invokeHome .compass b p.src (s2.capIn g) (s2.capIn g') = (s4, .error e)) : s1.performReq p b [g, g'] = s4.refusePkt p e := by
  simp [State.performReq, htarget, hpt, himport, hinvoke]

end

end

/-- Settles O49: the home's commands perform the request accepted, by what its operation answers. -/
theorem homesPerformRequests : Obligations.HomesPerformRequests := by
  refine ⟨fun s hcore => ⟨exec_load s hcore, exec_store s hcore, exec_remoteCas s hcore, exec_remoteFadd s hcore, exec_remoteFill s hcore,
    exec_remoteInvoke s hcore⟩, fun s s1 s2 s3 s4 p b t v g g' fl hcore htarget => ⟨?load, ?store, ?cas, ?fadd, ?fill, ?invoke⟩⟩
  case load =>
    intro haccepts hpt
    have hne : p.pt ≠ ptINVOKE := by simp [hpt]
    have hxs : ([] : List Gran).map s2.capIn = [] := rfl
    have hop := s2.homeOp_load hpt b t
    rw [exec_load s hcore, homeWith_accepts haccepts]
    refine ⟨fun hload hroom => ?_, fun gs hload => ?_, fun hload => ?_, fun e hload => ?_⟩ <;> rw [hload] at hop
    · rw [State.performReq_data htarget hxs hne (congrArg Prod.snd hop) (s2.importCaps_nil b p.src) (congrArg Prod.fst hop) hroom]
    · rw [State.performReq_answers htarget hxs hne (congrArg Prod.snd hop) nofun nofun (s2.importCaps_nil b p.src), hop]
      rfl
    · rw [State.performReq_waits htarget hxs hne hop, List.map_nil]
    · rw [State.performReq_refused htarget hxs hne (congrArg Prod.snd hop), if_pos (by simp [hpt]), hop]
  case store =>
    intro haccepts hpt hgood
    have hne : p.pt ≠ ptINVOKE := by simp [hpt]
    have hxs : [g].map s2.capIn = [s2.capIn g] := rfl
    have hop := fun x : State => x.homeOp_store b t hgood hpt
    rw [exec_store s hcore, homeWith_accepts haccepts]
    refine ⟨fun himport => ?_, fun himport => ?_⟩
    · rw [State.performReq_ack htarget hxs hne (congrArg Prod.snd (hop s2)) himport (congrArg Prod.fst (hop s3))]
    · rw [State.performReq_unimported htarget hxs hne (congrArg Prod.snd (hop s2)) nofun nofun himport]
  case cas =>
    intro haccepts hpt hgood hgood'
    have hne : p.pt ≠ ptINVOKE := by simp [hpt]
    have hxs : [g, g'].map s2.capIn = [s2.capIn g, s2.capIn g'] := rfl
    have hop := fun x : State => x.homeOp_cas b t hgood hpt hgood'
    rw [exec_remoteCas s hcore, homeWith_accepts haccepts]
    refine ⟨fun hcas himport hs4 hroom => ?_, fun e hcas => ?_⟩
    · rw [State.performReq_data htarget hxs hne ((congrArg Prod.snd (hop s2)).trans hcas) himport ((congrArg Prod.fst (hop s3)).trans hs4) hroom]
    · rw [State.performReq_refused htarget hxs hne ((congrArg Prod.snd (hop s2)).trans hcas), if_neg (by simp [hpt])]
  case fadd =>
    intro haccepts hpt hgood
    have hne : p.pt ≠ ptINVOKE := by simp [hpt]
    have hxs : [g].map s2.capIn = [s2.capIn g] := rfl
    have hop := fun x : State => x.homeOp_fadd b t hgood hpt
    rw [exec_remoteFadd s hcore, homeWith_accepts haccepts]
    refine ⟨fun hadd himport hs4 hroom => ?_, fun hadd => ?_, fun e hadd => ?_⟩
    · rw [State.performReq_data htarget hxs hne ((congrArg Prod.snd (hop s2)).trans hadd) himport ((congrArg Prod.fst (hop s3)).trans hs4) hroom]
    · rw [State.performReq_waits htarget hxs hne ((hop s2).trans hadd), List.map_singleton]
    · rw [State.performReq_refused htarget hxs hne ((congrArg Prod.snd (hop s2)).trans hadd), if_neg (by simp [hpt])]
  case fill =>
    intro haccepts hpt hgood
    have hne : p.pt ≠ ptINVOKE := by simp [hpt]
    have hxs : [g].map s2.capIn = [s2.capIn g] := rfl
    have hop := fun x : State => x.homeOp_fill b t hgood hpt
    rw [exec_remoteFill s hcore, homeWith_accepts haccepts]
    refine ⟨fun hfill himport hs4 => ?_, fun e hfill => ?_⟩
    · rw [State.performReq_ack htarget hxs hne ((congrArg Prod.snd (hop s2)).trans hfill) himport ((congrArg Prod.fst (hop s3)).trans hs4)]
    · rw [State.performReq_refused htarget hxs hne ((congrArg Prod.snd (hop s2)).trans hfill), if_neg (by simp [hpt])]
  case invoke =>
    intro haccepts hpt himport
    rw [exec_remoteInvoke s hcore, homeWith_accepts haccepts]
    exact ⟨fun hinvoke => by rw [State.performReq_invoked htarget hpt himport hinvoke],
      fun e hinvoke => by rw [State.performReq_uninvoked htarget hpt himport hinvoke]⟩

/-! ### Responses -/

theorem State.slotGives_noReg {s : State} {n : Nat} {x : Slot} (hreg : x.reg = none) (v : Gran) : s.slotGives n x v = s.setSlot n none := by
  simp [State.slotGives, hreg]

section
variable {s s1 s2 s3 : State} {p : Pkt} {x : Slot} {gs : List Gran}

section
variable (hnext : s.nextOf ptDATA = some (p, s1)) (hlive : s1.liveSlot p = some x)
include hnext hlive

theorem doData_undecoded {e : Nat} (hdecode : s1.decodeCGs p.src (p.cgs.take 1) = (s2, .error e)) :
    doData s = s2.refuseSlot p.tag { cause := cBUS, subcode := e } := by
  simp only [doData, hnext, hlive, hdecode]

variable (hdecode : s1.decodeCGs p.src (p.cgs.take 1) = (s2, .ok gs))
include hdecode

theorem doData_bad (hbad : gs.any x.badValue = true) : doData s = s2.refuseSlot p.tag { cause := cTAG, subcode := 0x01 } := by
  simp only [doData, hnext, hlive, hdecode]
  exact if_pos hbad

theorem doData_gives (hgood : gs.any x.badValue = false) (himports : s2.slotImports p x gs = .ok s3) (hpt : x.pkt.pt ≠ ptFADD) :
    doData s = s3.slotGives p.tag x (x.value (s3.capIn (gs.headD Gran.zero))) := by
  simp only [doData, hnext, hlive, hdecode, himports]
  rw [if_neg (by simp [hgood]), if_neg hpt]

/-- FADD's flags go to FSTATUS as well. -/
theorem doData_adds (hgood : gs.any x.badValue = false) (himports : s2.slotImports p x gs = .ok s3) (hpt : x.pkt.pt = ptFADD) :
    doData s = (s3.slotGives p.tag x (x.value (s3.capIn (gs.headD Gran.zero)))).orFstatus x.cid (nbits p.param 28 24) := by
  simp only [doData, hnext, hlive, hdecode, himports]
  rw [if_neg (by simp [hgood]), if_pos hpt]

end

/-- What a LINE gives the slot that asked for a granule or a word of it. -/
def Slot.lineRead (x : Slot) (ls : List Gran) : ReadOut :=
  if x.pkt.cap then readGran ((listAt ls (x.pkt.addr / 16 % 4)).getD Gran.zero) false
  else readWord ((listAt ls (x.pkt.addr / 16 % 4)).getD Gran.zero) (decide (x.pkt.addr % 16 ≥ 8)) false

section
variable {y : State} {ls : List Gran} (hnext : s.nextOf ptLINE = some (p, s1)) (hlive : s1.liveSlot p = some x)
  (hdecode : s1.decodeCGs p.src p.cgs = (s2, .ok gs)) (himports : s2.slotImports p x gs = .ok s3) (hls : gs.map s3.capIn = ls)
  (hy : (if x.pkt.line then s3.keepCopy x p ls else s3) = y)
include hnext hlive hdecode himports hls hy

theorem doLine_gives {v : Gran} (hread : x.lineRead ls = .value v) : doLine s = y.slotGives p.tag x v := by
  unfold Slot.lineRead at hread
  simp only [doLine, hnext, hlive, hdecode, himports, hls, hy, hread]

theorem doLine_bad {sub : Nat} (hread : x.lineRead ls = .bad sub) : doLine s = y.refuseSlot p.tag { cause := cTAG, subcode := sub } := by
  unfold Slot.lineRead at hread
  simp only [doLine, hnext, hlive, hdecode, himports, hls, hy, hread]

end

/-- What an ACK leaves in the slot's register: FILL's own operand, zero for an operation without one. -/
def State.ackGran (s : State) (x : Slot) : Gran := match x.pkt.cgs with | c :: _ => x.value (s.capIn c.g) | [] => Gran.zero

theorem doAck_live (hnext : s.nextOf ptACK = some (p, s1)) (hlive : s1.liveSlot p = some x) :
    doAck s = s1.slotGives p.tag x (s1.ackGran x) := by
  simp only [doAck, hnext, hlive]
  rfl

theorem doRefuse_live (hnext : s.nextOf ptREFUSE = some (p, s1)) (hlive : s1.liveSlot p = some x) : doRefuse s = s1.refuseSlot p.tag p.refusal := by
  simp [doRefuse, hnext, hlive]

theorem doRetry_live (hnext : s.nextOf ptRETRY = some (p, s1)) (hlive : s1.liveSlot p = some x) :
    doRetry s = s1.setSlot p.tag (some { x with st := .poll, tick := s1.time }) := by
  simp only [doRetry, hnext, hlive]

theorem doWaiting_live (hnext : s.nextOf ptWAITING = some (p, s1)) (hlive : s1.liveSlot p = some x) :
    doWaiting s = s1.setSlot p.tag (some { x with st := .exempt }) := by
  simp only [doWaiting, hnext, hlive]

theorem doRemoteTimeout_due {n : Nat} (hslot : s.slot n = some x) (hsent : x.st = .sent) (hdue : x.tick + s.ent 0x5000 0x13 * 100000 ≤ s.time) :
    doRemoteTimeout n s = s.refuseSlot n { cause := cREFUSED, subcode := 0x08 } := by
  simp only [doRemoteTimeout, hslot]
  exact if_pos ⟨hsent, hdue⟩

theorem doRemoteTimeout_early {n : Nat} (hslot : s.slot n = some x) (hearly : x.st ≠ .sent ∨ s.time < x.tick + s.ent 0x5000 0x13 * 100000) :
    doRemoteTimeout n s = s := by
  simp only [doRemoteTimeout, hslot]
  exact if_neg fun ⟨hsent, hdue⟩ => hearly.elim (· hsent) (Nat.not_lt.mpr hdue)

end

/-- Settles O51: a response goes to the slot that is live for it, and what it brings decides the rest. -/
theorem responsesReachTheirSlot : Obligations.ResponsesReachTheirSlot := by
  refine ⟨fun s hcore => ⟨exec_data s hcore, exec_line s hcore, exec_ack s hcore, exec_refuse s hcore, exec_retry s hcore, exec_waiting s hcore,
    fun n ha => exec_remoteTimeout n s ha hcore⟩, fun s s1 s2 s3 p x gs hcore => ?_⟩
  refine ⟨?data, ?undecoded, ?line, ?ack, ?refuse, ?retry, ?waiting, ?dead, ?due, ?early⟩
  case data =>
    intro hnext hlive hdecode
    rw [exec_data s hcore]
    refine ⟨fun hgood himports => ⟨fun hpt => ?_, fun hpt => ?_⟩, fun hbad => ?_⟩
    · rw [doData_gives hnext hlive hdecode hgood himports hpt]
    · rw [doData_adds hnext hlive hdecode hgood himports hpt]
    · rw [doData_bad hnext hlive hdecode hbad]
  case undecoded =>
    intro e hnext hlive hdecode
    rw [exec_data s hcore, doData_undecoded hnext hlive hdecode]
  case line =>
    intro y ls hnext hlive hdecode himports hls hy
    rw [exec_line s hcore]
    refine ⟨fun v hread => ?_, fun sub hread => ?_⟩
    · rw [doLine_gives hnext hlive hdecode himports hls hy hread]
    · rw [doLine_bad hnext hlive hdecode himports hls hy hread]
  case ack =>
    intro hnext hlive
    rw [exec_ack s hcore, doAck_live hnext hlive]
    exact ⟨fun hreg => by rw [State.slotGives_noReg hreg], rfl⟩
  case refuse =>
    intro hnext hlive
    rw [exec_refuse s hcore, doRefuse_live hnext hlive]
  case retry =>
    intro hnext hlive
    rw [exec_retry s hcore, doRetry_live hnext hlive]
  case waiting =>
    intro hnext hlive
    rw [exec_waiting s hcore, doWaiting_live hnext hlive]
  case dead =>
    intro hdead
    rw [exec_data s hcore, exec_line s hcore, exec_ack s hcore, exec_refuse s hcore, exec_retry s hcore, exec_waiting s hcore]
    refine ⟨fun h => ?_, fun h => ?_, fun h => ?_, fun h => ?_, fun h => ?_, fun h => ?_⟩
    · simp only [doData, h, hdead]
    · simp only [doLine, h, hdead]
    · simp only [doAck, h, hdead]
    · simp [doRefuse, h, hdead]
    · simp only [doRetry, h, hdead]
    · simp only [doWaiting, h, hdead]
  case due =>
    intro n hn hslot hsent hdue
    rw [exec_remoteTimeout n s (Instr.absent_of_unit_lt rfl rfl hn) hcore, doRemoteTimeout_due hslot hsent hdue]
  case early =>
    intro n hn hslot hearly
    rw [exec_remoteTimeout n s (Instr.absent_of_unit_lt rfl rfl hn) hcore, doRemoteTimeout_early hslot hearly]

end Sys2Proof.Machine
end

section
/-!
Berths (O41, O42, O43; 16 R366, R367, R375, R377 to R379): the commands of a berth by its state, what a reset leaves, and its event queue. That
DRAIN_LIMIT of a berth that does not drain does nothing is log entry 7.
-/

namespace Sys2Proof.Machine

/-! ### BERTH_CMD -/

section
variable {s : State} {b cmd : Nat}

theorem State.berthCmd_first (hfree : s.ent (berthIdx b) 0x03 ≠ 0xFF) (hb : b = 0) (hcmd : 1 ≤ cmd ∧ cmd ≤ 5) :
    s.berthCmd b cmd = s.berthResult b 0x74 := by
  rw [State.berthCmd, if_neg hfree, if_neg (by omega), if_pos hb]

theorem State.berthCmd_start (hfree : s.ent (berthIdx b) 0x03 ≠ 0xFF) (hb : b ≠ 0) (hstate : s.berthState b = bsCONFIGURED) :
    s.berthCmd b 1 = s.startBerth b := by
  rw [State.berthCmd, if_neg hfree, if_neg (by omega), if_neg hb, if_pos rfl, if_pos hstate]

theorem State.berthCmd_start_refused (hfree : s.ent (berthIdx b) 0x03 ≠ 0xFF) (hb : b ≠ 0) (hstate : s.berthState b ≠ bsCONFIGURED) :
    s.berthCmd b 1 = s.berthResult b 0x71 := by
  rw [State.berthCmd, if_neg hfree, if_neg (by omega), if_neg hb, if_pos rfl, if_neg hstate]

theorem State.berthCmd_reset (hfree : s.ent (berthIdx b) 0x03 ≠ 0xFF) (hb : b ≠ 0) (hcmd : 2 ≤ cmd ∧ cmd ≤ 5)
    (hstate : s.berthState b = bsCONFIGURED ∨ s.berthState b = bsACTIVE) : s.berthCmd b cmd = s.beginReset b cmd := by
  rw [State.berthCmd, if_neg hfree, if_neg (by omega), if_neg hb, if_neg (by omega), if_pos hstate]

theorem State.berthCmd_reset_refused (hfree : s.ent (berthIdx b) 0x03 ≠ 0xFF) (hb : b ≠ 0) (hcmd : 2 ≤ cmd ∧ cmd ≤ 5)
    (hconfigured : s.berthState b ≠ bsCONFIGURED) (hactive : s.berthState b ≠ bsACTIVE) : s.berthCmd b cmd = s.berthResult b 0x71 := by
  rw [State.berthCmd, if_neg hfree, if_neg (by omega), if_neg hb, if_neg (by omega), if_neg (not_or.mpr ⟨hconfigured, hactive⟩)]

/-- While a command runs, a squash that follows its drain ends it. -/
theorem State.berthCmd_squashes (hruns : s.ent (berthIdx b) 0x03 = 0xFF) (hdrains : (s.berth b).resetStep = 3) (hkind : (s.berth b).cmd + 1 = cmd)
    (hcmd : cmd = 3 ∨ cmd = 5) : s.berthCmd b cmd = s.fallBack b := by
  rw [State.berthCmd, if_pos hruns, if_pos ⟨hdrains, hkind, hcmd⟩]

theorem State.berthCmd_ignored (hruns : s.ent (berthIdx b) 0x03 = 0xFF) (hother : (s.berth b).cmd + 1 = cmd → ¬(cmd = 3 ∨ cmd = 5)) :
    s.berthCmd b cmd = s := by
  rw [State.berthCmd, if_pos hruns, if_neg fun ⟨_, hkind, hcmd⟩ => hother hkind hcmd]

theorem doDrainLimit_drains (hstate : s.berthState b = bsRESETTING) (hdrains : (s.berth b).resetStep = 3) : doDrainLimit b s = s.fallBack b :=
  if_pos ⟨hstate, hdrains⟩

theorem doDrainLimit_idle (h : s.berthState b ≠ bsRESETTING ∨ (s.berth b).resetStep ≠ 3) : doDrainLimit b s = s :=
  if_neg fun ⟨hstate, hdrains⟩ => h.elim (· hstate) (· hdrains)

end

/-- Settles O41: the five commands are BERTH_CMD's, by whether one runs, by the berth and by its state. -/
theorem berthCommandsTakeEffect : Obligations.BerthCommandsTakeEffect := by
  refine ⟨fun s hcore => ⟨fun b ha => exec_berthStart b s ha hcore, fun b ha => exec_resetDrain b s ha hcore, fun b ha => exec_resetSquash b s ha hcore,
    fun b ha => exec_removeDrain b s ha hcore, fun b ha => exec_removeSquash b s ha hcore, fun b ha => exec_drainLimit b s ha hcore⟩,
    fun s b hb hcore => ?_⟩
  rw [exec_berthStart b s (Instr.absent_of_unit_lt rfl rfl hb) hcore, exec_resetDrain b s (Instr.absent_of_unit_lt rfl rfl hb) hcore,
    exec_resetSquash b s (Instr.absent_of_unit_lt rfl rfl hb) hcore, exec_removeDrain b s (Instr.absent_of_unit_lt rfl rfl hb) hcore,
    exec_removeSquash b s (Instr.absent_of_unit_lt rfl rfl hb) hcore, exec_drainLimit b s (Instr.absent_of_unit_lt rfl rfl hb) hcore,
    doBerthStart, doResetDrain, doResetSquash, doRemoveDrain, doRemoveSquash]
  refine ⟨fun hzero hfree => ?first, fun hne hfree hstate => ?start, fun hne hfree hstate => ?unstarted, fun hne hfree hstate => ?reset,
    fun hne hfree hconfigured hactive => ?unreset, fun hruns => ?running, fun hstate hdrains => ?limit, fun hidle => ?idle⟩
  case first =>
    have hresult (cmd : Nat) (hcmd : 1 ≤ cmd ∧ cmd ≤ 5) := State.berthCmd_first hfree hzero hcmd
    rw [hresult 1 (by decide), hresult 2 (by decide), hresult 3 (by decide), hresult 4 (by decide), hresult 5 (by decide)]
    exact ⟨rfl, rfl, rfl, rfl, rfl⟩
  case start => rw [State.berthCmd_start hfree hne hstate]
  case unstarted => rw [State.berthCmd_start_refused hfree hne hstate]
  case reset =>
    have hbegins (cmd : Nat) (hcmd : 2 ≤ cmd ∧ cmd ≤ 5) := State.berthCmd_reset hfree hne hcmd hstate
    rw [hbegins 2 (by decide), hbegins 3 (by decide), hbegins 4 (by decide), hbegins 5 (by decide)]
    exact ⟨rfl, rfl, rfl, rfl⟩
  case unreset =>
    have hresult (cmd : Nat) (hcmd : 2 ≤ cmd ∧ cmd ≤ 5) := State.berthCmd_reset_refused hfree hne hcmd hconfigured hactive
    rw [hresult 2 (by decide), hresult 3 (by decide), hresult 4 (by decide), hresult 5 (by decide)]
    exact ⟨rfl, rfl, rfl, rfl⟩
  case running =>
    rw [State.berthCmd_ignored (cmd := 1) hruns (by omega), State.berthCmd_ignored (cmd := 2) hruns (by omega),
      State.berthCmd_ignored (cmd := 4) hruns (by omega)]
    refine ⟨rfl, rfl, rfl, fun hdrains hkind => ?_, fun hdrains hkind => ?_, fun hkind => ?_, fun hkind => ?_⟩
    · rw [State.berthCmd_squashes hruns hdrains (by rw [hkind]) (.inl rfl)]
    · rw [State.berthCmd_squashes hruns hdrains (by rw [hkind]) (.inr rfl)]
    · rw [State.berthCmd_ignored hruns fun h => absurd (Nat.succ.inj h) hkind]
    · rw [State.berthCmd_ignored hruns fun h => absurd (Nat.succ.inj h) hkind]
  case limit => rw [doDrainLimit_drains hstate hdrains]
  case idle => rw [doDrainLimit_idle hidle]

/-! ### Steps 4 to 6 -/

/-- BERTH_RESULT after a reset: whether the drain fell back to a squash. -/
def Berth.resetResult (x : Berth) : Nat := if x.fellBack then 0x01 else 0x00

section
variable {s : State} {b : Nat}

theorem State.finishReset_reset (h : (s.berth b).cmd < 4) : ∃ y : State, s.finishReset b =
    ((((y.updBerth b (fun x => { x with cmd := 0, resetStep := 0, fellBack := false })).setEnt (berthIdx b) 0x01 bsCONFIGURED).bump (berthIdx b) 0x1D 32
      1).berthResult b (s.berth b).resetResult) :=
  ⟨(s.destroyAll b).clearBerth b, if_neg (Nat.not_le.mpr h)⟩

theorem State.finishReset_removal (h : 4 ≤ (s.berth b).cmd) : ∃ y : State, s.finishReset b =
    ((y.forget b).setEnt (berthIdx b) 0x1D 1).berthResult b (s.berth b).resetResult :=
  ⟨(s.destroyAll b).clearBerth b, if_pos h⟩

theorem State.ent_berthResult (s : State) (b v : Nat) {j : Nat} (hj : j ≠ 0x03) : (s.berthResult b v).ent (berthIdx b) j = s.ent (berthIdx b) j := by
  rw [State.berthResult, State.ent_setEnt_sub, if_neg hj]

@[simp] theorem State.berth_berthResult (s : State) (b v q : Nat) : (s.berthResult b v).berth q = s.berth q := rfl

/-- A berth forgotten is as it was at first. -/
theorem State.berth_forget (s : State) (b : Nat) : (s.forget b).berth b = {} := by
  refine (SMap.get_filter_key (fun _ => {}) (fun k => k != b) s.berths b).trans ?_
  simp

end

/-- Settles O42: what a reset's or a removal's last writes leave of the state that steps 4 and 5 made. -/
theorem squashedBerthsAreConfiguredAgain : Obligations.SquashedBerthsAreConfiguredAgain := by
  refine fun s b _ => ⟨fun hreset => ?reset, fun hremoval => ?removal⟩
  case reset =>
    obtain ⟨y, hfinish⟩ := State.finishReset_reset hreset
    refine ⟨y, hfinish, ?_⟩
    rw [hfinish]
    refine ⟨?_, ?_, State.ent_setEnt _ _ _ _⟩
    · rw [State.berthState, State.ent_berthResult _ _ _ (by decide), State.bump, State.ent_setEnt_sub, if_neg (by decide), State.ent_setEnt]
    · rw [State.berth_berthResult, State.bump, State.berth_of_setEnt, State.berth_of_setEnt, State.updBerth, State.berth_setBerth]
  case removal =>
    obtain ⟨y, hfinish⟩ := State.finishReset_removal hremoval
    refine ⟨y, hfinish, ?_⟩
    rw [hfinish]
    refine ⟨?_, State.ent_setEnt _ _ _ _⟩
    rw [State.berth_berthResult, State.berth_of_setEnt, State.berth_forget]

/-! ### Events -/

theorem State.berthEvent_queued {s : State} {b : Nat} (h : (s.berth b).events.length < 32) (code : Nat) (w0 w1 : Word64) :
    s.berthEvent b code w0 w1 = s.updBerth b (fun x => { x with events := x.events ++ [⟨code, w0, w1⟩] }) := if_pos h

theorem State.berthEvent_lost {s : State} {b : Nat} (h : 32 ≤ (s.berth b).events.length) (code : Nat) (w0 w1 : Word64) :
    s.berthEvent b code w0 w1 = s.bump (berthIdx b) 0x16 32 1 := if_neg (Nat.not_lt.mpr h)

@[simp] theorem berthEvent_mem (s : State) (b code : Nat) (w0 w1 : Word64) : (s.berthEvent b code w0 w1).mem = s.mem := by
  unfold State.berthEvent
  split <;> rfl

/-- Settles O43: the queue's room decides between the two. -/
theorem berthEventsQueueOrCount : Obligations.BerthEventsQueueOrCount := by
  refine fun s b code w0 w1 => ⟨fun hroom => ?_, fun hfull => ?_, berthEvent_mem s b code w0 w1, berthEvent_stalls s b code w0 w1⟩
  · rw [State.berthEvent_queued hroom, State.updBerth, State.berth_setBerth]
    exact ⟨rfl, rfl⟩
  · rw [State.berthEvent_lost hfull]
    exact ⟨rfl, State.ent_setEnt _ _ _ _⟩

end Sys2Proof.Machine
end

section
/-!
Writes of the dictionary (O53, O54; 17 R387 to R391, R408 to R411; 18 R419, R420, R425; 19 R431, R439, R446, R448, R449). That a slower divisor
completes at once is log entry 76; the INJECT rows are entry 73, and a tally's arm entry 82.
-/

namespace Sys2Proof.Machine

/-! ### Units -/

/-- A command of a path that exists, and of a numbered unit that exists. -/
theorem find_units_append {p : List (UnitKind × Nat)} {k : UnitKind} {n : Nat} (hp : p.find? (fun u => !u.1.has u.2) = none) (hk : k.has n = true) :
    (p ++ [(k, n)]).find? (fun u => !u.1.has u.2) = none := by
  simp [List.find?_append, hp, hk]

theorem UnitKind.has_gateSlot {g : Nat} (hg : g < 64) : UnitKind.gateSlot.has g = true := by
  simp [UnitKind.has, UnitKind.range, hg]

/-! ### Which writes reach an entry -/

section
variable {s : State} {p : Path} {idx sub v : Nat} {e : EType × EAcc}

section
variable (hport : idx ≠ 0x9000) (hworks : s.pathWorks p = true) (hserved : s.served idx = true) (hreaches : pathReaches p idx = true)
  (hinfo : entryInfo idx sub = some e)
include hport hworks hserved hreaches hinfo

theorem State.dictWrite_of_rights (hwrites : pathWrites p idx sub = true) : s.dictWrite p idx sub (.num v) = s.setEntry p idx sub v := by
  simp [State.dictWrite, State.dictSet, hport, hworks, hserved, hreaches, hinfo, hwrites]

theorem State.dictWrite_without_rights (hwrites : pathWrites p idx sub = false) : s.dictWrite p idx sub (.num v) = s.refuseWrite := by
  simp [State.dictWrite, State.dictSet, hport, hworks, hserved, hreaches, hinfo, hwrites]

end

/-- An entry that is written, of a device not moored, refuses no write for what it is. -/
theorem State.entry_takes_writes (hro : e.2 ≠ .ro) (htal : s.tallyBarred p e.2 = false) (hmoored : s.ent 0x6000 0x02 ≠ 1) :
    ¬(e.2 = .ro ∨ s.tallyBarred p e.2 = true ∨ (s.ent 0x6000 0x02 = 1 ∧ (!mooredWrites idx sub) = true)) := by
  simp [hro, htal, hmoored]

theorem State.tallyBarred_of_ne_tal (p : Path) {a : EAcc} (ha : a ≠ .tal) : s.tallyBarred p a = false := by
  simp [State.tallyBarred, ha]

/-- A value out of range leaves everything. -/
theorem State.setEntry_out_of_range (hinfo : entryInfo idx sub = some e) (hdom : e.1 ≠ .dom) (htal : e.2 ≠ .tal) (hro : e.2 ≠ .ro)
    (hmoored : s.ent 0x6000 0x02 ≠ 1) (hrange : entryRange idx sub v = false) : s.setEntry p idx sub v = (s, wsRANGE) := by
  obtain ⟨t, a⟩ := e
  simp only [State.setEntry, hinfo, if_neg hdom, if_neg (State.entry_takes_writes hro (State.tallyBarred_of_ne_tal p htal) hmoored), hrange, if_neg htal]
  simp

end

/-! ### The indexes of units -/

theorem entryInfo_gate {g sub : Nat} (hg : g < 64) (hsub : sub < 256) : entryInfo (0x7000 + g) sub = gateInfo g sub := by
  simp [entryInfo, Nat.not_le.mpr hsub, show ¬0x7000 + g < 0x3140 by omega, show ¬0x7000 + g < 0x4010 by omega, show ¬0x7000 + g < 0x501C by omega,
    show 0x7000 + g < 0x7040 by omega]

/-- A write of a gate slot's entry that is taken acts as the gate's. -/
theorem State.applyEntry_gate (s : State) (p : Path) {g sub : Nat} (hg : g < 64) (hlevels : sub ≠ 0x04) (hcount : sub ≠ 0x14) (v : Nat) :
    s.applyEntry p (0x7000 + g) sub v = s.applyGate g sub v := by
  simp [State.applyEntry, entryMask, show ¬0x7000 + g < 0x3140 by omega, show 0x7000 + g < 0x7040 by omega, show 0x7000 + g ≠ 0x6000 by omega, hlevels,
    hcount]

/-- LOCK keeps LEVELS. -/
theorem State.setEntry_levels_locked {s : State} {g v : Nat} (p : Path) (hg : g < 64) (hmoored : s.ent 0x6000 0x02 ≠ 1) (hv : v < 256)
    (hlock : s.ent (0x7000 + g) 0x06 = 1) : s.setEntry p (0x7000 + g) 0x04 v = s.refuseWrite := by
  have hinfo : entryInfo (0x7000 + g) 0x04 = some (.u8, .rw) := entryInfo_gate hg (by decide)
  have hgate : 0x7000 + g < 0x7040 := by omega
  have hlocked : s.lockedEntry (0x7000 + g) 0x04 v = true := by simp [State.lockedEntry, hlock, hgate]
  have hrange : entryRange (0x7000 + g) 0x04 v = true := by
    unfold entryRange
    rw [if_neg (by omega), if_neg (by omega), if_neg (by omega), if_pos (by omega)]
    rfl
  have hcommand : commandRange (0x7000 + g) 0x04 v = true := by
    unfold commandRange
    rw [if_neg (by omega), if_neg (by omega), if_neg (by omega), if_pos (by omega)]
    rfl
  have hmoored' := State.entry_takes_writes (s := s) (p := p) (idx := 0x7000 + g) (sub := 0x04) (e := (.u8, .rw)) nofun
    (State.tallyBarred_of_ne_tal p nofun) hmoored
  simp only [State.setEntry, hinfo, if_neg hmoored', hlocked, hrange, hcommand]
  simp [typeOk, Nat.not_le.mpr hv]

/-- Settles O53: a write is taken, or its path has no right to it, or its value or LOCK stands against it. -/
theorem writesAreAppliedOrRefused : Obligations.WritesAreAppliedOrRefused := by
  refine ⟨fun s hhelm p idx sub v ha => exec_entryWrite p idx sub v s ha hhelm, fun s p idx sub v e hp hhelm => ⟨?taken, ?rights, ?range, ?locked⟩⟩
  case taken =>
    intro htakes
    rw [exec_entryWrite p idx sub (.num v) s hp hhelm, State.dictWrite_of_writeTakes htakes]
  case rights =>
    intro hport hworks hserved hreaches hinfo hwrites
    rw [exec_entryWrite p idx sub (.num v) s hp hhelm, State.dictWrite_without_rights hport hworks hserved hreaches hinfo hwrites, State.refuseWrite]
  case range =>
    intro hport hworks hserved hreaches hinfo hwrites hmoored hdom htal hro hrange
    rw [exec_entryWrite p idx sub (.num v) s hp hhelm, State.dictWrite_of_rights hport hworks hserved hreaches hinfo hwrites,
      State.setEntry_out_of_range hinfo hdom htal hro hmoored hrange]
  case locked =>
    intro g hg hworks hserved hreaches hwrites hmoored hv hlock
    rw [exec_entryWrite p (0x7000 + g) 0x04 (.num v) s hp hhelm,
      State.dictWrite_of_rights (by omega) hworks hserved hreaches (entryInfo_gate hg (by decide)) hwrites,
      State.setEntry_levels_locked p hg hmoored hv hlock, State.refuseWrite]

end Sys2Proof.Machine
end

section
/-!
The rows that write one entry (O54; 17 R408 to R411; 18 R419, R420, R425; 19 R431, R439, R446, R448, R449).
-/

namespace Sys2Proof.Machine

/-! ### INJECT (log entry 73) -/

/-- A bit of the value that the INJECT rows write. -/
theorem testBit_injectValue {m : Nat} (hm : m < 16) (v : BitVec 32) (i : Nat) :
    (injectValue m v).testBit i = if 8 ≤ i ∧ i < 12 then m.testBit (i - 8) else v.getLsbD i := by
  have hmode : (m * 256).testBit i = if 8 ≤ i ∧ i < 12 then m.testBit (i - 8) else false := by
    rw [show m * 256 = m * 2 ^ 8 from rfl, Nat.testBit_mul_two_pow]
    by_cases h8 : 8 ≤ i
    · by_cases h12 : i < 12
      · simp [h8, h12]
      · have hhigh : m.testBit (i - 8) = false :=
          Nat.testBit_lt_two_pow (Nat.lt_of_lt_of_le hm (Nat.pow_le_pow_right Nat.two_pos (show 4 ≤ i - 8 by omega)))
        simp [h12, hhigh]
    · simp [h8]
  have hmask : Nat.testBit 0xF00 i = decide (8 ≤ i ∧ i < 12) := by
    rw [show 0xF00 = (2 ^ 4 - 1) * 2 ^ 8 from rfl, Nat.testBit_mul_two_pow, Nat.testBit_two_pow_sub_one, Bool.eq_iff_iff]
    simp only [Bool.and_eq_true, decide_eq_true_eq]
    omega
  rw [injectValue, BitVec.toNat_or, BitVec.toNat_and, Nat.testBit_or, Nat.testBit_and, BitVec.testBit_toNat, BitVec.testBit_toNat, BitVec.testBit_toNat,
    BitVec.getLsbD_not, BitVec.getLsbD_ofNat, BitVec.getLsbD_ofNat, hmode, hmask]
  by_cases h : 8 ≤ i ∧ i < 12
  · simp [h, show i < 32 by omega]
  · by_cases h32 : i < 32
    · simp [h, h32]
    · simp [h, h32, BitVec.getLsbD_of_ge v i (by omega)]

/-- The value that an INJECT row leaves in the entry: its reserved bits are ignored. -/
def injectEntry (m : Nat) (v : BitVec 32) : Nat := entryMask 0x6000 0x0C (injectValue m v)

theorem testBit_injectEntry {m : Nat} (hm : m < 16) (v : BitVec 32) (i : Nat) :
    (injectEntry m v).testBit i = ((if 8 ≤ i ∧ i < 12 then m.testBit (i - 8) else v.getLsbD i) && Nat.testBit 0x80FF0F3F i) := by
  rw [injectEntry, show entryMask 0x6000 0x0C (injectValue m v) = injectValue m v &&& 0x80FF0F3F from rfl, Nat.testBit_and, testBit_injectValue hm]

/-- MODE reads as the row asks. -/
theorem nbits_injectEntry_mode {m : Nat} (hm : m < 16) (v : BitVec 32) : nbits (injectEntry m v) 11 8 = m := by
  refine Nat.eq_of_testBit_eq fun i => ?_
  rw [nbits, Nat.testBit_mod_two_pow, Nat.testBit_shiftRight, testBit_injectEntry hm]
  by_cases hi : i < 4
  · have hmask : Nat.testBit 0x80FF0F3F (8 + i) = true := by interval_cases i <;> rfl
    simp [hi, hmask, show 8 + i < 12 by omega]
  · have hhigh : m.testBit i = false := Nat.testBit_lt_two_pow (Nat.lt_of_lt_of_le hm (Nat.pow_le_pow_right Nat.two_pos (show 4 ≤ i by omega)))
    simp [hi, hhigh]

/-- SOURCE reads as the operand has it. -/
theorem nbits_injectEntry_source {m : Nat} (hm : m < 16) (v : BitVec 32) : nbits (injectEntry m v) 5 0 = v.toNat % 64 := by
  refine Nat.eq_of_testBit_eq fun i => ?_
  rw [nbits, Nat.testBit_mod_two_pow, Nat.testBit_shiftRight, testBit_injectEntry hm, show 64 = 2 ^ 6 from rfl, Nat.testBit_mod_two_pow, BitVec.testBit_toNat]
  by_cases hi : i < 6
  · have hmask : Nat.testBit 0x80FF0F3F i = true := by interval_cases i <;> rfl
    simp [hi, hmask, show ¬8 ≤ i by omega]
  · simp [hi]

theorem nbit_injectEntry_arm {m : Nat} (hm : m < 16) (v : BitVec 32) : nbit (injectEntry m v) 31 = v.getLsbD 31 := by
  rw [nbit, testBit_injectEntry hm, show Nat.testBit 0x80FF0F3F 31 = true from rfl]
  simp

theorem State.injectWrite_armed {s : State} {m : Nat} (hfree : nbit (s.ent 0x6000 0x0C) 31 = false) (hm : m < 16) (hunit : m ≠ 4) (v : BitVec 32) :
    s.injectWrite (injectEntry m v) = s.setEnt 0x6000 0x0C (injectEntry m v) := by
  simp [State.injectWrite, hfree, nbits_injectEntry_mode hm, hunit]

/-- The report that MODE UNIT raises. -/
def unitReport (v : BitVec 32) : Report :=
  { bit := nbits (injectEntry 4 v) 5 0, kind := .unit, source := (unitSlot (nbits (injectEntry 4 v) 5 0)).getD 0,
    master := if (unitSlot (nbits (injectEntry 4 v) 5 0)).isSome then 2 else 0 }

/-- MODE UNIT with ARM raises its source's report at once, and ARM falls. -/
theorem State.injectWrite_unit {s : State} (hfree : nbit (s.ent 0x6000 0x0C) 31 = false) {v : BitVec 32} (harm : v.getLsbD 31 = true) :
    s.injectWrite (injectEntry 4 v) = (s.setEnt 0x6000 0x0C (injectEntry 4 v % 2 ^ 31)).raise (unitReport v) := by
  rw [State.injectWrite, if_neg (by simp [hfree]), if_pos (by simp [nbit_injectEntry_arm, nbits_injectEntry_mode, harm]), unitReport]

theorem nbit_mod_two_pow (v i : Nat) : nbit (v % 2 ^ i) i = false := by
  simp [nbit]

/-! ### CORE_DIV_REQ (log entry 76) -/

/-- A write that is taken has a legal value. -/
theorem State.legal_of_writeTakes {s : State} {p : Path} {idx sub v : Nat} (h : s.writeTakes p idx sub v = true) :
    entryRange idx sub v = true ∧ commandRange idx sub v = true ∧ ¬(idx = 0x2000 ∧ sub = 0x02 ∧ v < lowestDiv s.ceiling) := by
  unfold State.writeTakes at h
  cases hinfo : entryInfo idx sub with
  | none => simp [hinfo] at h
  | some e =>
    simp only [hinfo, Bool.and_eq_true] at h
    obtain ⟨-, ⟨⟨⟨⟨⟨-, hrange⟩, hcommand⟩, -⟩, -⟩, -⟩, hdiv⟩ := h
    exact ⟨hrange, hcommand, fun ⟨hidx, hsub, hlow⟩ => by simp [hidx, hsub, hlow] at hdiv⟩

/-- The state that waits for the voltage of a faster divisor. -/
theorem State.startDiv_faster {s : State} {d : Nat} (h : d < s.coreDiv) : (s.startDiv d).clkRun = some d ∧ (s.startDiv d).coreDiv = s.coreDiv ∧
    (s.startDiv d).ent 0x2000 0x04 = 0xFF ∧ (s.startDiv d).ent 0x2100 0x04 = vddCore s.ceiling d := by
  rw [State.startDiv, if_pos h, State.setVdd, State.coreDiv]
  refine ⟨by simp, ?_, State.ent_setEnt _ _ _ _, ?_⟩
  · rw [State.ent_setEnt_apart _ _ (by decide) (by decide) (by decide), State.ent_setEnt_apart _ _ (by decide) (by decide) (by decide)]
    rfl
  · rw [State.ent_setEnt_apart _ _ (by decide) (by decide) (by decide), State.ent_setEnt]
    rfl

/-- A slower divisor takes effect at once. -/
theorem State.startDiv_slower {s : State} {d : Nat} (h : s.coreDiv ≤ d) : (s.startDiv d).clkRun = s.clkRun ∧ (s.startDiv d).coreDiv = d ∧
    (s.startDiv d).ent 0x2000 0x04 = 0 ∧ (s.startDiv d).ent 0x2100 0x04 = vddCore s.ceiling d := by
  rw [State.startDiv, if_neg (Nat.not_lt.mpr h), State.setVdd, State.coreDiv]
  refine ⟨by simp, ?_, State.ent_setEnt _ _ _ _, ?_⟩
  · rw [State.ent_setEnt_apart _ _ (by decide) (by decide) (by decide), State.ent_setEnt_apart _ _ (by decide) (by decide) (by decide), State.ent_setEnt]
  · rw [State.ent_setEnt_apart _ _ (by decide) (by decide) (by decide), State.ent_setEnt]
    rfl

/-- A divisor that is asked for while no change runs starts its change. -/
theorem State.reqDiv_starts {s : State} {p : Path} {v : Nat} (htakes : s.writeTakes p 0x2000 0x02 v = true) (hidle : s.clkRun = none) :
    s.reqDiv v = (s.setEnt 0x2000 0x02 v).startDiv v := by
  obtain ⟨hrange, -, hdiv⟩ := State.legal_of_writeTakes htakes
  have hlegal : (v == 4 || v == 5 || v == 6 || v == 8) = true := hrange
  have hlow : ¬v < lowestDiv s.ceiling := fun h => hdiv ⟨rfl, rfl, h⟩
  rw [State.reqDiv, if_neg (by simp only [hlegal, hlow]; decide), State.askDiv, State.setEnt_clkRun, hidle]
  rfl

theorem State.coreDiv_setEnt_req (s : State) (v : Nat) : (s.setEnt 0x2000 0x02 v).coreDiv = s.coreDiv :=
  State.ent_setEnt_apart s v (by decide) (by decide) (by decide)

/-! ### Tallies (log entry 82) -/

/-- The type of a tally's entry (19 Table 19.13). -/
def tallyType (t : Nat) : EType := if t = 1 then .u16 else if t = 3 then .u32 else .u8

section
variable {s : State} {p : Path} {t v : Nat} (h1 : 1 ≤ t) (h5 : t ≤ 5)
include h1 h5

theorem entryInfo_tally : entryInfo 0x1100 t = some (tallyType t, .tal) := by
  interval_cases t <;> rfl

theorem typeOk_of_tallyOk (hok : s.tallyOk t v = true) : typeOk (tallyType t) v = true := by
  interval_cases t <;> simp [State.tallyOk] at hok <;> simp [tallyType, typeOk] <;> omega

theorem ranges_tally (v : Nat) : entryRange 0x1100 t v = true ∧ commandRange 0x1100 t v = true := by
  interval_cases t <;> exact ⟨rfl, rfl⟩

theorem State.applyEntry_tally (s : State) (p : Path) (v : Nat) : (s.applyEntry p 0x1100 t v).1 = s.writeTally p t v := by
  interval_cases t <;> rfl

/-- A write of a tally whose arm, direction and changes admit it. -/
theorem State.setEntry_tally (hmoored : s.ent 0x6000 0x02 ≠ 1) (hjtag : p ≠ .jtag) (harmed : s.armed p t = true) (hlive : s.tally 5 ≠ 2)
    (hidle : s.tallyRun = none) (hok : s.tallyOk t v = true) : (s.setEntry p 0x1100 t v).1 = s.writeTally p t v := by
  obtain ⟨hrange, hcommand⟩ := ranges_tally h1 h5 v
  have htype := typeOk_of_tallyOk h1 h5 hok
  have hdom : tallyType t ≠ .dom := by interval_cases t <;> decide
  have hbarred : s.tallyBarred p .tal = false := by simp [State.tallyBarred, hjtag]
  have hunlocked : s.lockedEntry 0x1100 t v = false := by simp [State.lockedEntry]
  have hadmits : (s.armed p t && s.tally 5 != 2 && s.tallyRun.isNone && s.tallyOk t v) = true := by simp [harmed, hlive, hidle, hok]
  rw [← State.applyEntry_tally h1 h5 s p v]
  simp only [State.setEntry, entryInfo_tally h1 h5, if_neg hdom, hrange, hcommand, htype, hunlocked, hadmits]
  rw [if_neg (State.entry_takes_writes (e := (tallyType t, .tal)) nofun hbarred hmoored)]
  simp

end

/-- The write consumes the path's arm; the logbook entry precedes the tally. -/
theorem State.writeTally_armed {s : State} {p : Path} {t v : Nat} (hjtag : p ≠ .jtag) (harmed : s.armed p t = true) (hlive : s.tally 5 ≠ 2)
    (hidle : s.tallyRun = none) (hok : s.tallyOk t v = true) :
    s.writeTally p t v = { s with
      arms := s.arms.filter (fun a => a.path != armPath p), tallyRun := some { tally := t, value := v },
      logbook := s.logbook ++ [logEntry t (pathAuth p).1 (pathAuth p).2 s.time (s.tally t) v] } := by
  have hadmits : (s.armed p t && s.tally 5 != 2 && s.tallyRun.isNone && s.tallyOk t v && (p != .jtag || s.tally 5 == 0)) = true := by
    simp [harmed, hlive, hidle, hok, hjtag]
  rw [State.writeTally, hadmits]
  rfl

theorem State.armTally_of_writeTakes {s : State} {p : Path} {t : Nat} (htakes : s.writeTakes p 0x1100 0x10 t = true) :
    s.armTally p t = { s with arms := s.arms.filter (fun a => a.path != armPath p) ++ [{ path := armPath p, tally := t, tick := s.time }] } := by
  have hcommand : within t 1 5 = true := (State.legal_of_writeTakes htakes).2.1
  exact if_pos (by simpa [within] using hcommand)

/-! ### The entries that act -/

theorem State.applyEntry_moorCmd (s : State) (p : Path) : (s.applyEntry p 0x6000 0x05 0x4D).1 = s.moor 0x41 := rfl
theorem State.applyEntry_inject (s : State) (p : Path) (m : Nat) (v : BitVec 32) :
    (s.applyEntry p 0x6000 0x0C (injectValue m v)).1 = s.injectWrite (injectEntry m v) := rfl
theorem State.applyEntry_coreDivReq (s : State) (p : Path) (v : Nat) : (s.applyEntry p 0x2000 0x02 v).1 = s.reqDiv v := rfl
theorem State.applyEntry_resetCmd (s : State) (p : Path) : (s.applyEntry p 0x2200 0x01 0xA5).1 = s.deviceReset 2 := rfl
theorem State.applyEntry_yardGo (s : State) (p : Path) (v : Nat) : (s.applyEntry p 0x2200 0x07 v).1 = s.yardGo v := rfl
theorem State.applyEntry_tallyArm (s : State) (p : Path) (v : Nat) : (s.applyEntry p 0x1100 0x10 v).1 = s.armTally p v := rfl
theorem State.applyEntry_feClear (s : State) (p : Path) : (s.applyEntry p 0x6000 0x0B 1).1 = s.feClear 1 := rfl

/-- Settles O54: a write that is taken is applied, and each entry acts as its row says. -/
theorem writeRowsTakeTheirEffect : Obligations.WriteRowsTakeTheirEffect := by
  refine ⟨fun s hhelm => ⟨fun p g v ha => exec_winBase p g v s ha hhelm, fun p g v ha => exec_lock p g v s ha hhelm,
    fun p g v ha => exec_violClear p g v s ha hhelm, fun p ha => exec_gateFence p s ha hhelm, fun p v ha => exec_moorCmd p v s ha hhelm,
    fun p v ha => exec_feClear p v s ha hhelm, fun p v ha => exec_injectCorr p v s ha hhelm, fun p v ha => exec_injectUncorr p v s ha hhelm,
    fun p v ha => exec_injectPoison p v s ha hhelm, fun p v ha => exec_injectUnit p v s ha hhelm, fun p v ha => exec_coreDivReq p v s ha hhelm,
    fun p v ha => exec_resetCmd p v s ha hhelm, fun p v ha => exec_yardGo p v s ha hhelm, fun p v ha => exec_tallyArm p v s ha hhelm,
    fun p t v ha => exec_tallyWrite p t v s ha hhelm⟩, fun s p hp hhelm => ?_⟩
  refine ⟨?winBase, ?lock, ?violClear, ?gateFence, ?moorCmd, ?feClear, ?inject, ?coreDivReq, ?resetCmd, ?yardGo, ?tallyArm, ?tallyWrite⟩
  case winBase =>
    intro g v hg htakes
    rw [exec_winBase p g v s (find_units_append hp (UnitKind.has_gateSlot hg)) hhelm, State.dictWrite_of_writeTakes htakes,
      State.applyEntry_gate s p hg (by decide) (by decide), State.applyGate]
  case lock =>
    intro g v hg htakes
    rw [exec_lock p g v s (find_units_append hp (UnitKind.has_gateSlot hg)) hhelm, State.dictWrite_of_writeTakes htakes,
      State.applyEntry_gate s p hg (by decide) (by decide)]
    rfl
  case violClear =>
    intro g hg htakes
    rw [exec_violClear p g 1 s (find_units_append hp (UnitKind.has_gateSlot hg)) hhelm, State.dictWrite_of_writeTakes htakes,
      State.applyEntry_gate s p hg (by decide) (by decide)]
    rfl
  case gateFence =>
    intro htakes
    rw [exec_gateFence p s hp hhelm, State.dictWrite_of_writeTakes htakes, State.applyEntry_gate s p (g := 0) (by decide) (by decide) (by decide)]
    rfl
  case moorCmd =>
    intro htakes
    rw [exec_moorCmd p 0x4D s hp hhelm, State.dictWrite_of_writeTakes htakes, State.applyEntry_moorCmd]
  case feClear =>
    intro htakes
    rw [exec_feClear p 1 s hp hhelm, State.dictWrite_of_writeTakes htakes, State.applyEntry_feClear, State.feClear, if_pos rfl]
  case inject =>
    intro v hfree
    refine ⟨fun htakes => ?_, fun htakes => ?_, fun htakes => ?_, fun htakes harm => ?_⟩
    · rw [exec_injectCorr p v s hp hhelm, State.dictWrite_of_writeTakes htakes, State.applyEntry_inject,
        State.injectWrite_armed hfree (by decide) (by decide), injectEntry]
    · rw [exec_injectUncorr p v s hp hhelm, State.dictWrite_of_writeTakes htakes, State.applyEntry_inject,
        State.injectWrite_armed hfree (by decide) (by decide), injectEntry]
    · rw [exec_injectPoison p v s hp hhelm, State.dictWrite_of_writeTakes htakes, State.applyEntry_inject,
        State.injectWrite_armed hfree (by decide) (by decide), injectEntry]
    · refine ⟨_, unitReport v, by rw [exec_injectUnit p v s hp hhelm, State.dictWrite_of_writeTakes htakes, State.applyEntry_inject,
        State.injectWrite_unit hfree harm], rfl, nbits_injectEntry_source (by decide) v, rfl, ?_⟩
      rw [show ∀ x : State, (x.raise (unitReport v)).ent 0x6000 0x0C = x.ent 0x6000 0x0C from fun _ => rfl, State.ent_setEnt]
      exact nbit_mod_two_pow _ 31
  case coreDivReq =>
    intro v htakes hidle
    have hexec : exec (.coreDivReq p v) s = .next (s.after ((s.setEnt 0x2000 0x02 v).startDiv v)) := by
      rw [exec_coreDivReq p v s hp hhelm, State.dictWrite_of_writeTakes htakes, State.applyEntry_coreDivReq, State.reqDiv_starts htakes hidle]
    have hdiv := s.coreDiv_setEnt_req v
    refine ⟨fun hfaster => ⟨_, hexec, ?_⟩, fun hslower => ⟨_, hexec, ?_⟩⟩
    · have heffect := State.startDiv_faster (hdiv ▸ hfaster)
      rwa [hdiv] at heffect
    · have heffect := State.startDiv_slower (hdiv ▸ hslower)
      rwa [State.setEnt_clkRun, hidle] at heffect
  case resetCmd =>
    intro htakes
    rw [exec_resetCmd p 0xA5 s hp hhelm, State.dictWrite_of_writeTakes htakes, State.applyEntry_resetCmd]
  case yardGo =>
    intro htakes
    rw [exec_yardGo p 1 s hp hhelm, State.dictWrite_of_writeTakes htakes, State.applyEntry_yardGo]
  case tallyArm =>
    intro t htakes
    rw [exec_tallyArm p t s hp hhelm, State.dictWrite_of_writeTakes htakes, State.applyEntry_tallyArm, State.armTally_of_writeTakes htakes]
  case tallyWrite =>
    intro t v h1 h5 hworks hserved hreaches hwrites hmoored hjtag harmed hlive hidle hok
    have hunit : UnitKind.tally.has t = true := by simp [UnitKind.has, UnitKind.range, h1, Nat.lt_succ_of_le h5]
    rw [exec_tallyWrite p t v s (find_units_append hp hunit) hhelm,
      State.dictWrite_of_rights (by decide) hworks hserved hreaches (entryInfo_tally h1 h5) hwrites,
      State.setEntry_tally h1 h5 hmoored hjtag harmed hlive hidle hok, State.writeTally_armed hjtag harmed hlive hidle hok]

end Sys2Proof.Machine
end

section
/-!
Commit groups and the patch check (O55; 17 R392, R393; 14 R333; 13 R302; 16 R382; 09 R213, R214).
-/

namespace Sys2Proof.Machine

/-! ### COMMIT -/

theorem State.applyEntry_berthCommit (s : State) (p : Path) {b : Nat} (hb : b < nBerths) :
    (s.applyEntry p (berthIdx b) 0xFF 1).1 = s.startCommit p (berthIdx b) := by
  have hrange : 0x3100 ≤ berthIdx b ∧ berthIdx b < 0x3140 := by simp only [berthIdx, nBerths] at *; omega
  have hsub : berthIdx b - 0x3100 = b := Nat.add_sub_cancel_left ..
  simp [State.applyEntry, entryInfo, berthInfo, show ¬0x7000 ≤ berthIdx b by omega, hrange, hsub, State.applyBerth]

theorem State.applyEntry_mapCommit (s : State) (p : Path) : (s.applyEntry p 0x4000 0xFF 1).1 = s.startCommit p 0x4000 := rfl
theorem State.applyEntry_chartCommit (s : State) (p : Path) : (s.applyEntry p 0x5100 0xFF 1).1 = s.startCommit p 0x5100 := rfl

theorem UnitKind.has_berth {b : Nat} (hb : b < nBerths) : UnitKind.berth.has b = true := by
  simp [UnitKind.has, UnitKind.range, show b < 64 from hb]

section
variable (s : State) (g code : Nat)

@[simp] theorem commitResult_commits : (s.commitResult g code).commits = s.commits := by
  simp only [State.commitResult, apply_ite State.commits, State.setEnt_commits, ite_self]

@[simp] theorem commitResult_mem : (s.commitResult g code).mem = s.mem := by
  simp only [State.commitResult, apply_ite State.mem, State.setEnt_mem, ite_self]

@[simp] theorem commitResult_applied : (s.commitResult g code).applied = s.applied := by
  simp only [State.commitResult, apply_ite State.applied, State.setEnt_applied, ite_self]

end

/-- A commit of group `g` that its checks pass or refuse, before a manager is told. -/
def State.committed (s : State) (p : Path) (g : Nat) : State :=
  if (s.setEnt 0xF000 0x01 g).commitCheck g = 0 then
    ({ s.setEnt 0xF000 0x01 g with commits := (s.setEnt 0xF000 0x01 g).commits ++ [{ index := g, path := p }] } : State).commitResult g 0xFF
  else ((s.setEnt 0xF000 0x01 g).bump 0xF000 0x04 32 1).commitResult g ((s.setEnt 0xF000 0x01 g).commitCheck g)

/-- What a manager is told of is an entry and a device event. -/
theorem State.startCommit_cases (s : State) (p : Path) (g : Nat) : s.startCommit p g = s.committed p g ∨
    ∃ bits, s.startCommit p g = ((s.committed p g).setEnt 0x1000 0x17 bits).signalDev 22 41 := by
  cases p with
  | helm n => exact .inr ⟨_, rfl⟩
  | _ => exact .inl rfl

theorem State.committed_effect (s : State) (p : Path) (g : Nat) :
    (s.committed p g).commits = (if (s.setEnt 0xF000 0x01 g).commitCheck g = 0 then s.commits ++ [{ index := g, path := p }] else s.commits) ∧
      (s.committed p g).mem = s.mem ∧ (s.committed p g).applied = s.applied := by
  unfold State.committed
  split <;> simp [State.bump]

/-- A write of COMMIT runs the group where its checks pass; nothing is applied. -/
theorem State.startCommit_effect (s : State) (p : Path) (g : Nat) :
    (s.startCommit p g).commits = (if (s.setEnt 0xF000 0x01 g).commitCheck g = 0 then s.commits ++ [{ index := g, path := p }] else s.commits) ∧
      (s.startCommit p g).mem = s.mem ∧ (s.startCommit p g).applied = s.applied := by
  have heffect := s.committed_effect p g
  obtain h | ⟨bits, h⟩ := s.startCommit_cases p g
  · rw [h]
    exact heffect
  · rw [h]
    generalize s.committed p g = x at heffect
    exact heffect

theorem doQuiescentPoint_running {s : State} {g : Nat} (h : s.commits.any (fun c => c.index == g) = true) :
    doQuiescentPoint g s = (((({ s with commits := s.commits.filter (fun c => c.index != g) } : State).commitApply g).bump 0xF000 0x03 32
      1)).commitResult g 0 := if_pos h

theorem doQuiesceLimit_running {s : State} {g : Nat} (h : s.commits.any (fun c => c.index == g) = true) :
    doQuiesceLimit g s = (({ s with commits := s.commits.filter (fun c => c.index != g) } : State).bump 0xF000 0x04 32 1).commitResult g 0x01 := if_pos h

theorem State.applyEntry_discard (s : State) (p : Path) (g : Nat) : (s.applyEntry p 0xF000 0x06 g).1 = s.discardGroup g := rfl

/-! ### The patch check -/

/-- A write of PATCH_CMD starts a check, of which a manager is told. -/
theorem State.applyPatch_starts {s : State} (hidle : s.patchRun = none) (p : Path) {v : Nat} (hv : v = 1 ∨ v = 2) :
    (s.applyPatch p v).patchRun = some (v == 1) ∧ (s.applyPatch p v).ent 0x8000 0x07 = 0xFF := by
  have hcmd : s.patchCmd v = ({ s with patchRun := some (v == 1) } : State).setEnt 0x8000 0x07 0xFF :=
    if_neg (by rcases hv with rfl | rfl <;> simp [hidle])
  have hresult : (({ s with patchRun := some (v == 1) } : State).setEnt 0x8000 0x07 0xFF).ent 0x8000 0x07 = 0xFF := State.ent_setEnt _ _ _ _
  have hrun : (({ s with patchRun := some (v == 1) } : State).setEnt 0x8000 0x07 0xFF).patchRun = some (v == 1) := rfl
  unfold State.applyPatch
  rw [hcmd]
  generalize ({ s with patchRun := some (v == 1) } : State).setEnt 0x8000 0x07 0xFF = x at hresult hrun ⊢
  dsimp only
  split
  · exact ⟨hrun, (State.ent_setEnt_apart x _ (by decide) (by decide) (by decide)).trans hresult⟩
  · exact ⟨hrun, hresult⟩

theorem State.applyEntry_patchCmd (s : State) (p : Path) (v : Nat) : (s.applyEntry p 0x8000 0x06 v).1 = s.applyPatch p v := rfl

/-- The end of a check that loads nothing writes its result alone. -/
theorem doPatchCheckEnd_result {s : State} {load : Bool} (hrun : s.patchRun = some load) (hnone : ¬((s.patchCheck load).1 = 0 ∧ load = true)) :
    doPatchCheckEnd s = ({ s with patchRun := none } : State).setEnt 0x8000 0x07 (s.patchCheck load).1 := by
  unfold doPatchCheckEnd
  simp only [hrun]
  rw [if_neg hnone]

theorem doPatchCheckEnd_loads {s : State} (hrun : s.patchRun = some true) (hpass : (s.patchCheck true).1 = 0) :
    doPatchCheckEnd s = (({ s with patchRun := none } : State).loadPatch (s.patchCheck true).2).setEnt 0x8000 0x07 (s.patchCheck true).1 := by
  unfold doPatchCheckEnd
  simp only [hrun]
  rw [if_pos ⟨hpass, trivial⟩]

/-- A load changes entries and the control stores; PATCH_LEVEL and PATCH_MATCHES come from the file. -/
theorem State.loadPatch_effect (s : State) (bs : List Byte) : (s.loadPatch bs).patchRun = s.patchRun ∧
    (s.loadPatch bs).ent 0x8000 0x02 = leAt (s.staged 0 64) 0x0C 4 ∧ (s.loadPatch bs).ent 0x8000 0x08 = leAt bs 0 2 := by
  have hmatches : ∃ dict, (upTo 64).foldl (fun s i => s.setEnt 0x8000 (0x40 + i) (leAt bs (8 + 4 * i) 4)) s = { s with dict := dict } := by
    refine List.foldlRecOn (motive := fun t : State => ∃ dict, t = { s with dict := dict }) _ _ ⟨_, rfl⟩ fun t ht i _ => ?_
    obtain ⟨dict, rfl⟩ := ht
    exact ⟨_, rfl⟩
  obtain ⟨dict, hmatches⟩ := hmatches
  unfold State.loadPatch
  rw [hmatches]
  refine ⟨by simp only [State.setEnt_patchRun], State.ent_setEnt _ _ _ _, ?_⟩
  rw [State.ent_setEnt_apart _ _ (by decide) (by decide) (by decide), State.ent_setEnt_apart _ _ (by decide) (by decide) (by decide), State.ent_setEnt]

/-- A check that ends without a load: its result, and nothing of the control stores. -/
theorem State.checkEnded (s : State) (v : Nat) :
    (({ s with patchRun := none } : State).setEnt 0x8000 0x07 v).patchRun = none ∧
      (({ s with patchRun := none } : State).setEnt 0x8000 0x07 v).ent 0x8000 0x07 = v ∧
      (({ s with patchRun := none } : State).setEnt 0x8000 0x07 v).patchRam = s.patchRam ∧
      (({ s with patchRun := none } : State).setEnt 0x8000 0x07 v).ent 0x8000 0x02 = s.ent 0x8000 0x02 :=
  ⟨State.setEnt_patchRun _ _ _ _, State.ent_setEnt _ _ _ _, State.setEnt_patchRam _ _ _ _,
    State.ent_setEnt_apart _ _ (by decide) (by decide) (by decide)⟩

/-- Settles O55: a commit runs from its write to its point or its limit, a check from its write to its end. -/
theorem commitsRunToTheirPoint : Obligations.CommitsRunToTheirPoint := by
  refine ⟨fun s hhelm => ⟨fun p b ha => exec_berthCommit p b s ha hhelm, fun p ha => exec_mapCommit p s ha hhelm,
    fun p ha => exec_chartCommit p s ha hhelm, fun g => exec_quiescentPoint g s hhelm, fun g => exec_quiesceLimit g s hhelm,
    fun p g ha => exec_discard p g s ha hhelm, fun p ha => exec_verifyAndLoad p s ha hhelm, fun p ha => exec_verifyOnly p s ha hhelm,
    exec_patchCheckEnd s hhelm⟩, fun s p hp hhelm => ?_⟩
  refine ⟨?berth, ?map, ?chart, ?start, ?point, ?discard, ?checks, ?verified, ?loaded⟩
  case berth =>
    intro b hb htakes
    rw [exec_berthCommit p b s (find_units_append hp (UnitKind.has_berth hb)) hhelm, State.dictWrite_of_writeTakes htakes,
      State.applyEntry_berthCommit s p hb]
  case map =>
    intro htakes
    rw [exec_mapCommit p s hp hhelm, State.dictWrite_of_writeTakes htakes, State.applyEntry_mapCommit]
  case chart =>
    intro htakes
    rw [exec_chartCommit p s hp hhelm, State.dictWrite_of_writeTakes htakes, State.applyEntry_chartCommit]
  case start => exact fun g => s.startCommit_effect p g
  case point =>
    intro g hruns
    rw [exec_quiescentPoint g s hhelm, exec_quiesceLimit g s hhelm, doQuiescentPoint_running hruns, doQuiesceLimit_running hruns]
    exact ⟨rfl, rfl⟩
  case discard =>
    intro g htakes
    rw [exec_discard p g s hp hhelm, State.dictWrite_of_writeTakes htakes, State.applyEntry_discard]
  case checks =>
    intro hidle
    refine ⟨fun htakes => ?_, fun htakes => ?_⟩
    · refine ⟨s.applyPatch p 1, ?_, State.applyPatch_starts hidle p (.inl rfl)⟩
      rw [exec_verifyAndLoad p s hp hhelm, State.dictWrite_of_writeTakes htakes, State.applyEntry_patchCmd]
    · refine ⟨s.applyPatch p 2, ?_, State.applyPatch_starts hidle p (.inr rfl)⟩
      rw [exec_verifyOnly p s hp hhelm, State.dictWrite_of_writeTakes htakes, State.applyEntry_patchCmd]
  case verified =>
    intro hrun
    refine ⟨doPatchCheckEnd s, exec_patchCheckEnd s hhelm, ?_⟩
    rw [doPatchCheckEnd_result hrun (by simp)]
    exact s.checkEnded _
  case loaded =>
    intro hrun
    refine ⟨doPatchCheckEnd s, exec_patchCheckEnd s hhelm, ?_⟩
    by_cases hpass : (s.patchCheck true).1 = 0
    · obtain ⟨hidle, hlevel, hmatches⟩ := State.loadPatch_effect ({ s with patchRun := none } : State) (s.patchCheck true).2
      rw [doPatchCheckEnd_loads hrun hpass]
      generalize ({ s with patchRun := none } : State).loadPatch (s.patchCheck true).2 = x at hidle hlevel hmatches ⊢
      refine ⟨(State.setEnt_patchRun x _ _ _).trans hidle, State.ent_setEnt x _ _ _, fun _ => ⟨?_, ?_⟩, fun hfail => absurd hpass hfail⟩
      · exact (State.ent_setEnt_apart x _ (by decide) (by decide) (by decide)).trans hlevel
      · exact (State.ent_setEnt_apart x _ (by decide) (by decide) (by decide)).trans hmatches
    · rw [doPatchCheckEnd_result hrun fun h => hpass h.1]
      obtain ⟨hrun', hresult, hram, hlevel⟩ := s.checkEnded (s.patchCheck true).1
      exact ⟨hrun', hresult, fun h => absurd h hpass, fun _ => ⟨hram, hlevel⟩⟩

end Sys2Proof.Machine
end

section
/-!
The Helm bus (O56; 17 R399 to R401): sessions, and the requests that the SEQ rules perform.
-/

namespace Sys2Proof.Machine

theorem Instr.absent_of_manager {c : Instr} {n : Nat} (hunits : c.units = [(.manager, n)]) (h1 : 1 ≤ n) (hn : n < 128) : c.absent = none := by
  simp [Instr.absent, hunits, UnitKind.has, UnitKind.range, h1, hn]

theorem inReset_of_helmRuns {s : State} (h : s.helmRuns = true) : s.inReset = false := by
  simpa [State.helmRuns] using h

/-! ### Sessions -/

/-- A session that is written is there, where one of its node was. -/
theorem State.session_setSession {s : State} {n : Nat} {x y : Session} (hx : s.session n = some x) (hy : y.node = n) :
    (s.setSession y).session n = some y := by
  have hmatch : (fun z : Session => z.node == n) ∘ (fun z => if z.node = y.node then y else z) = fun z => z.node == n := by
    funext z
    by_cases hz : z.node = n <;> simp [hz, hy]
  have hnode : x.node = n := by simpa using List.find?_some hx
  unfold State.session at hx ⊢
  rw [State.setSession, List.find?_map, hmatch, hx]
  simp [hy, hnode]

/-- A reply is stored with the session and sent. -/
theorem State.reply_of_session {s : State} {n : Nat} {x : Session} (h : s.session n = some x) (op seqn status : Nat) (result : List Byte) :
    s.reply n op seqn status result = (s.toManager 5 n 0 (rspBytes op seqn status result)).setSession { x with resp := rspBytes op seqn status result } := by
  have hsent : (s.toManager 5 n 0 (rspBytes op seqn status result)).session n = some x := h
  rw [State.reply]
  simp only [hsent]

/-! ### OPEN -/

/-- The session's node with a fresh data-port state, and no session. -/
def State.cleared (s : State) (n : Nat) : State := (s.endSession n).setDport (.helm n) {}

/-- The session that OPEN makes. -/
def State.opened (s : State) (n : Nat) : State :=
  ({ s.cleared n with sessions := (s.cleared n).sessions ++ [{ node := n, seen := (s.cleared n).time }] } : State).helmEvent 0

section
variable (s : State) (n : Nat)

/-- The end of a session reaches data ports, sessions and arms alone. -/
theorem State.endSession_eq : ∃ dports, s.endSession n = { s with
    dports := dports, sessions := s.sessions.filter (fun x => x.node != n), arms := s.arms.filter (fun a => a.path != .helm n) } := by
  unfold State.endSession
  split <;> exact ⟨_, rfl⟩

theorem State.cleared_eq : ∃ dports, s.cleared n = { s with
    dports := SMap.set (fun _ => {}) dports (dpKey (.helm n)) {}, sessions := s.sessions.filter (fun x => x.node != n),
    arms := s.arms.filter (fun a => a.path != .helm n) } := by
  obtain ⟨dports, h⟩ := s.endSession_eq n
  rw [State.cleared, h]
  exact ⟨dports, rfl⟩

theorem State.opened_effect : (s.opened n).session n = some { node := n, seen := s.time } ∧ ((s.opened n).dport (.helm n)).burst = none ∧
    (s.opened n).mem = s.mem ∧ (s.opened n).stalls = s.stalls := by
  obtain ⟨dports, h⟩ := s.cleared_eq n
  have hnone : (s.sessions.filter (fun x => x.node != n)).find? (fun x => x.node == n) = none := by
    simp
  rw [State.opened, h]
  refine ⟨?_, ?_, rfl, rfl⟩
  · show ((s.sessions.filter (fun x => x.node != n)) ++ [({ node := n, seen := s.time } : Session)]).find? (fun x => x.node == n) = _
    rw [List.find?_append, hnone]
    simp
  · show (SMap.get (fun _ => {}) (SMap.set (fun _ => {}) dports (dpKey (.helm n)) ({} : DPort)) (dpKey (.helm n))).burst = none
    rw [SMap.get_set_same]

end

/-- What OPEN answers: RESET_EPOCH, HELM_DATA_RATE and the sessions left (17 R401). -/
def State.openResult (s : State) : List Byte :=
  leBytes 2 (s.ent 0x1000 0x07) ++ leBytes 1 (s.ent 0x1000 0x10) ++ leBytes 1 (maxSessions - s.sessions.length)

/-- OPEN of a node without a session, while there is room. -/
theorem doHelmOpen_opens {s : State} {n : Nat} (hbus : s.busOff = false) (hroom : s.sessions.length < 8) :
    doHelmOpen n 0 s = (s.opened n).reply n 0x01 0 0 (s.opened n).openResult := by
  unfold doHelmOpen
  rw [if_neg (by simp [hbus]), if_neg (by decide), if_neg (by simp [maxSessions, Nat.not_le.mpr hroom])]
  rfl

/-! ### The SEQ rules -/

section
variable {s : State} {n q op : Nat}

theorem State.req_noSession (hbus : s.busOff = false) (hnone : s.session n = none) (run : State → State × Option (Nat × List Byte)) :
    s.req n q op run = s.answerOnly n op q 0x05 := by
  simp [State.req, hbus, hnone]

/-- A request that takes its SEQ is performed in the state that has taken it. -/
theorem State.req_runs (htakes : s.reqTakes n q = true) (run : State → State × Option (Nat × List Byte)) :
    s.req n q op run = (match run (s.reqState n q) with
      | (x, some (st, r)) => if x.inReset then x else x.reply n op q st r
      | (x, none) => x) := by
  unfold State.reqTakes at htakes
  cases hsession : s.session n with
  | none => simp [hsession] at htakes
  | some y =>
    simp only [hsession, Bool.and_eq_true, Bool.not_eq_true', bne_iff_ne, ne_eq, beq_iff_eq] at htakes
    obtain ⟨hbus, ⟨hidle, hnew⟩, hnext⟩ := htakes
    have hxfer : ¬y.xfer.isSome = true := by simpa using hidle
    unfold State.req State.reqState
    rw [if_neg (by simp [hbus])]
    simp only [hsession]
    rw [if_neg hxfer, if_neg hnew, if_neg (not_not.mpr hnext)]
    rfl

/-- It is answered, unless it reset the device. -/
theorem State.req_answers {run : State → State × Option (Nat × List Byte)} {x : State} {st : Nat} {r : List Byte} (htakes : s.reqTakes n q = true)
    (hrun : run (s.reqState n q) = (x, some (st, r))) (hreset : x.inReset = false) : s.req n q op run = x.reply n op q st r := by
  rw [State.req_runs htakes, hrun]
  exact if_neg (by simp [hreset])

theorem State.req_silent {run : State → State × Option (Nat × List Byte)} {x : State} (htakes : s.reqTakes n q = true)
    (hrun : run (s.reqState n q) = (x, none)) : s.req n q op run = x := by
  rw [State.req_runs htakes, hrun]

@[simp] theorem State.inReset_reqState : (s.reqState n q).inReset = s.inReset := by
  unfold State.reqState
  split <;> rfl

/-- The status and result of a READ. -/
def readAnswer (idx sub : Nat) : Except Nat EVal → Nat × List Byte
  | .error e => (e, [])
  | .ok (.bytes b) => (0, b)
  | .ok (.num v) => (0, leBytes (match entryInfo idx sub with | some (t, _) => t.bytes | none => 0) v)

theorem doHelmRead_answers {idx sub : Nat} {out : Except Nat EVal} (htakes : s.reqTakes n q = true) (hreset : s.inReset = false)
    (hread : (s.reqState n q).dictReadAll (.helm n) idx sub = out) :
    doHelmRead n q idx sub s = (s.reqState n q).reply n 0x03 q (readAnswer idx sub out).1 (readAnswer idx sub out).2 := by
  refine State.req_answers htakes ?_ (State.inReset_reqState.trans hreset)
  rw [hread]
  rfl

theorem doHelmClose_ends (htakes : s.reqTakes n q = true) (hreset : s.inReset = false) :
    doHelmClose n q s = (((s.reqState n q).endSession n).helmEvent 1).reply n 0x02 q 0 [] := by
  refine State.req_answers htakes rfl ?_
  obtain ⟨dports, h⟩ := (s.reqState n q).endSession_eq n
  rw [h]
  exact State.inReset_reqState.trans hreset

end

/-- Settles O56: OPEN makes its session; every other request goes by the SEQ rules to what performs it. -/
theorem helmRequestsAreAnswered : Obligations.HelmRequestsAreAnswered := by
  refine ⟨fun s hhelm => ⟨fun n q ha => exec_helmOpen n q s ha hhelm, fun n q ha => exec_helmClose n q s ha hhelm,
    fun n q idx sub ha => exec_helmRead n q idx sub s ha hhelm, fun n q idx sub v ha => exec_helmWrite n q idx sub v s ha hhelm,
    fun n q off ha => exec_ctrlRd n q off s ha hhelm, fun n q off v ha => exec_ctrlWr n q off v s ha hhelm⟩,
    fun s x n q idx sub h1 hn hhelm => ⟨?opens, ?unopened, fun htakes => ?takes⟩⟩
  case opens =>
    intro hbus _ hroom
    obtain ⟨hsession, hburst, hmem, hstalls⟩ := s.opened_effect n
    refine ⟨doHelmOpen n 0 s, exec_helmOpen n 0 s (Instr.absent_of_manager rfl h1 hn) hhelm, ?_⟩
    rw [doHelmOpen_opens hbus hroom, State.reply_of_session hsession]
    generalize s.opened n = o at hsession hburst hmem hstalls ⊢
    have hsent : (o.toManager 5 n 0 (rspBytes 0x01 0 0 o.openResult)).session n = some { node := n, seen := s.time } := hsession
    exact ⟨⟨_, State.session_setSession hsent rfl, rfl, rfl, rfl⟩, hburst, hmem, hstalls⟩
  case unopened =>
    intro hbus hnone
    rw [exec_helmRead n q idx sub s (Instr.absent_of_manager rfl h1 hn) hhelm, doHelmRead, State.req_noSession hbus hnone]
  case takes =>
    have hreset := inReset_of_helmRuns hhelm
    have hread := fun out => doHelmRead_answers (out := out) (idx := idx) (sub := sub) htakes hreset
    rw [exec_helmClose n q s (Instr.absent_of_manager rfl h1 hn) hhelm, exec_helmRead n q idx sub s (Instr.absent_of_manager rfl h1 hn) hhelm]
    refine ⟨?_, fun e hout => ?_, fun b hout => ?_, fun v t a hout hinfo => ?_, fun v st hwrite hout => ?_, fun off r hctl hout => ?_,
      fun off v r hctl hout => ?_⟩
    · rw [doHelmClose_ends htakes hreset]
    · rw [hread _ hout, readAnswer]
    · rw [hread _ hout, readAnswer]
    · rw [hread _ hout, readAnswer, hinfo]
    · rw [exec_helmWrite n q idx sub v s (Instr.absent_of_manager rfl h1 hn) hhelm, doHelmWrite, State.req_answers htakes (by rw [hwrite]) hout]
    · rw [exec_ctrlRd n q off s (Instr.absent_of_manager rfl h1 hn) hhelm, doCtrlRd, State.req_answers htakes (by rw [hctl]) hout]
    · rw [exec_ctrlWr n q off v s (Instr.absent_of_manager rfl h1 hn) hhelm, doCtrlWr, State.req_answers htakes (by rw [hctl]) hout]

end Sys2Proof.Machine
end

section
/-!
Transfers and the data port (O57; 17 R395 to R403): segments, their acknowledgements and limits, the bus, and the entries and aperture of an instance.
That DP_REMAIN reads DP_LEN until the direction is fixed is log entry 88.
-/

namespace Sys2Proof.Machine

/-! ### Transfers -/

/-- A read after an acknowledgement that advances it by `d` segments. -/
def Xfer.acked (t : Xfer) (d : Nat) : Xfer :=
  { t with base := t.base + d, next := t.base + d, buf := t.buf.drop (d * 64), repeats := if d = 0 then t.repeats else 0 }

/-- A write after its last segment. -/
def Xfer.filled (t : Xfer) : Xfer := { t with base := t.base + 1, next := t.base + 1, left := 0, since := t.since + 1, repeats := 0 }

section
variable {s x : State} {n : Nat} {y : Session} {t : Xfer}

/-- The acknowledgement of the last segment of a read ends its transfer. -/
theorem doDpAck_ends {d : Nat} (hbus : s.busOff = false) (hsession : s.session n = some y) (hxfer : y.xfer = some t) (hread : t.wr = false)
    (hfind : (upTo 17).find? (fun e => decide (t.base + e ≤ t.next) && (t.base + e) % 65536 == t.next % 65536) = some d)
    (hbuf : (t.acked d).buf = []) (hleft : (t.acked d).left = 0) (hx : s.setSession { y with seen := s.time } = x) :
    doDpAck n t.seqn t.next s = x.endXfer n (t.acked d) (x.burstStatus n) := by
  obtain ⟨node, lastSeq, resp, xfer, seen⟩ := y
  obtain rfl : xfer = some t := hxfer
  have hlast : ((t.acked d).buf.isEmpty && (t.acked d).left == 0) = true := by simp [hbuf, hleft]
  unfold doDpAck
  simp only [hbus, hsession, hx, segWindow, hfind]
  rw [if_neg Bool.false_ne_true, if_neg (by simp [hread])]
  exact if_pos hlast

/-- The last segment of a write ends its transfer. -/
theorem doSeg_ends {bytes : List Byte} (hbus : s.busOff = false) (hsession : s.session n = some y) (hxfer : y.xfer = some t) (hwrite : t.wr = true)
    (hlength : bytes.length = t.left) (hlast : t.left ≤ 64) (hx : (s.setSession { y with seen := s.time }).dpPush (.helm n) (.helm n) bytes = x)
    (hreset : x.inReset = false) :
    doSeg n (t.base % 2048) bytes s = (x.sendAck n t.filled).endXfer n t.filled (x.burstStatus n) := by
  have htake : bytes.take (min segBytes t.left) = bytes := List.take_of_length_le (by simp only [segBytes]; omega)
  have hshort : min segBytes t.left ≤ t.left := Nat.min_le_right _ _
  obtain ⟨node, lastSeq, resp, xfer, seen⟩ := y
  obtain rfl : xfer = some t := hxfer
  unfold doSeg
  simp only [hbus, hsession, htake, hx, hreset, hlength, Nat.sub_self]
  rw [if_neg Bool.false_ne_true, if_neg (by simp [hwrite]), if_neg Bool.false_ne_true, if_pos trivial]
  rfl

theorem doSessionTimeout_due (hsession : s.session n = some y) (hdue : y.seen + s.ent 0x1000 0x11 * 100000000 ≤ s.time) :
    doSessionTimeout n s = (s.endSession n).helmEvent 1 := by
  simp only [doSessionTimeout, hsession, if_neg (Nat.not_lt.mpr hdue)]

/-- After four repeats without progress the transfer ends, its burst aborted. -/
theorem doHelmAckTimeout_aborts (hsession : s.session n = some y) (hxfer : y.xfer = some t) (hrepeats : 4 ≤ t.repeats)
    (hburst : (s.dport (.helm n)).burst = none) :
    doHelmAckTimeout n s = (s.setDport (.helm n) { s.dport (.helm n) with status := dpABORTED }).endXfer n t 0x0A := by
  simp only [doHelmAckTimeout, hsession, hxfer, if_pos hrepeats, hburst]
  rfl

/-- Before that the helm names the first segment of a write that it misses. -/
theorem doHelmAckTimeout_repeats (hsession : s.session n = some y) (hxfer : y.xfer = some t) (hrepeats : t.repeats < 4) (hwrite : t.wr = true) :
    doHelmAckTimeout n s = (s.setSession { y with xfer := some { t with repeats := t.repeats + 1, since := 0 } }).sendAck n
      { t with repeats := t.repeats + 1 } := by
  simp only [doHelmAckTimeout, hsession, hxfer, if_neg (Nat.not_le.mpr hrepeats), hwrite]
  rfl

end

/-- An error that takes the bus off is counted in two entries. -/
theorem doCanErrorFrame_off {s : State} (hbus : s.busOff = false) :
    doCanErrorFrame true s = ({ s.bump 0x1000 0x14 32 1 with busOff := true } : State).bump 0x1000 0x15 32 1 :=
  if_pos (by simp [State.bump, hbus])

/-! ### The data port's entries -/

section
variable {s : State} {i : DpInst} {v : Nat}

theorem State.dpSetAddr_idle (hv : v < 2 ^ 64) (halign : v % 8 = 0) (hspace : v / 2 ^ 56 ≤ 4) (hburst : (s.dport i).burst = none) :
    s.dpSetAddr i v = (s.setDport i { s.dport i with addr := v }, wsOK) := by
  rw [State.dpSetAddr, if_neg (by omega)]
  simp [hburst]

/-- DP_LEN arms a burst. -/
theorem State.dpSetLen_arms (hpos : 0 < v) (hv : v < 2 ^ 32) (halign : v % 8 = 0) (hburst : (s.dport i).burst = none)
    (hspace : s.spaceOk i ((s.dport i).addr / 2 ^ 56) = true) :
    s.dpSetLen i v = (s.setDport i { s.dport i with len := v, remain := v, status := 0xFF, burst := some { left := v } }, wsOK) := by
  rw [State.dpSetLen, if_neg (by omega)]
  simp only [hburst, hspace]
  rw [if_neg (by simp), if_neg (by omega), if_neg (by simp)]

end

/-- Settles O57: a transfer goes by its session's segments, an instance by its entries and its aperture. -/
theorem transfersMoveTheirBurst : Obligations.TransfersMoveTheirBurst := by
  refine ⟨fun s hhelm => ⟨fun n q ha => exec_dpWrite n q s ha hhelm, fun n q ha => exec_dpRead n q s ha hhelm,
    fun n q next ha => exec_dpAck n q next s ha hhelm, fun n seg bytes ha => exec_seg n seg bytes s ha hhelm,
    fun n ha => exec_sessionTimeout n s ha hhelm, fun n ha => exec_helmAckTimeout n s ha hhelm, exec_alive s hhelm, exec_busOffRecovery s hhelm,
    fun off => exec_canErrorFrame off s hhelm, fun i v ha => exec_dpAddr i v s ha hhelm, fun i v ha => exec_dpLen i v s ha hhelm,
    fun i wr bytes c ha => exec_dpData i wr bytes c s ha hhelm⟩, fun s x n q i h1 hn hhelm => ?_⟩
  refine ⟨?starts, ?acked, ?filled, ?silent, ?aborts, ?repeats, ?alive, exec_busOffRecovery s hhelm, ?busOff, ?entries⟩
  case starts =>
    intro st htakes
    rw [exec_dpWrite n q s (Instr.absent_of_manager rfl h1 hn) hhelm, exec_dpRead n q s (Instr.absent_of_manager rfl h1 hn) hhelm, doDpWrite, doDpRead]
    refine ⟨fun hstart => ?_, fun hstart => ?_, fun hstart hreset => ?_⟩
    · rw [State.req_silent htakes hstart]
    · rw [State.req_silent htakes hstart]
    · rw [State.req_answers htakes hstart hreset]
  case acked =>
    rintro y t d t' hbus hsession hxfer hread rfl hfind rfl hbuf hleft hx
    rw [exec_dpAck n t.seqn t.next s (Instr.absent_of_manager rfl h1 hn) hhelm, doDpAck_ends hbus hsession hxfer hread hfind hbuf hleft hx, Xfer.acked]
  case filled =>
    rintro y t bytes t' hbus hsession hxfer hwrite hlength hlast rfl hx hreset
    rw [exec_seg n (t.base % 2048) bytes s (Instr.absent_of_manager rfl h1 hn) hhelm,
      doSeg_ends hbus hsession hxfer hwrite hlength hlast hx hreset, Xfer.filled]
  case silent =>
    intro y hsession hdue
    rw [exec_sessionTimeout n s (Instr.absent_of_manager rfl h1 hn) hhelm, doSessionTimeout_due hsession hdue]
  case aborts =>
    intro y t hsession hxfer hrepeats hburst
    rw [exec_helmAckTimeout n s (Instr.absent_of_manager rfl h1 hn) hhelm, doHelmAckTimeout_aborts hsession hxfer hrepeats hburst]
  case repeats =>
    intro y t hsession hxfer hrepeats hwrite
    rw [exec_helmAckTimeout n s (Instr.absent_of_manager rfl h1 hn) hhelm, doHelmAckTimeout_repeats hsession hxfer hrepeats hwrite]
  case alive =>
    rintro now rfl
    rw [exec_alive s hhelm, doAlive]
  case busOff =>
    intro hbus
    refine ⟨_, exec_canErrorFrame true s hhelm, ?_⟩
    rw [doCanErrorFrame_off hbus]
    exact ⟨rfl, rfl, rfl⟩
  case entries =>
    intro hi hworks
    refine ⟨fun v halign hspace hburst => ?_, fun v hpos hv halign hburst hspace => ?_, fun bytes c hturn => ?_, fun c hturn => ?_⟩
    · rw [exec_dpAddr i v s hi hhelm, if_pos hworks, State.dpSetEntry, State.dpSetAddr_idle v.isLt halign hspace hburst]
    · rw [exec_dpLen i v s hi hhelm, if_pos hworks, State.dpSetEntry, State.dpSetLen_arms hpos hv halign hburst hspace]
    · rw [exec_dpData i true bytes c s hi hhelm, if_pos hworks, if_pos rfl, State.dpPut, hturn, if_pos rfl]
    · rw [exec_dpData i false [] c s hi hhelm, if_pos hworks, if_neg Bool.false_ne_true, State.dpLoad, hturn, if_pos rfl]

end Sys2Proof.Machine
end

section
/-!
Clock changes, heat, regulators and ageing (O59; 19 R431 to R435, R442).
How the change of a clock ends is log entry 76; which bits of STATUS_WORD are faults is log entry 77.
-/

namespace Sys2Proof.Machine

/-! ### Changes of the core clock (log entry 76) -/

section
variable {s : State}

theorem State.nextDiv_none (h : s.clkWant = none) : s.nextDiv = s := by
  rw [State.nextDiv, h]

/-- The voltage that a change waits for has settled: the divisor takes effect. -/
theorem doVoutSettled_takes {d : Nat} (hrun : s.clkRun = some d) (hwant : s.clkWant = none) :
    doVoutSettled s = ((({ s with clkRun := none } : State).setEnt 0x2000 0x03 d).setVdd d).setEnt 0x2000 0x04 0 := by
  rw [doVoutSettled, hrun]
  exact State.nextDiv_none (by simp [State.setVdd, hwant])

/-- The voltage has not settled in time: the divisor stays. -/
theorem doVoutTimeout_abandons {d : Nat} (hrun : s.clkRun = some d) (hwant : s.clkWant = none) :
    doVoutTimeout s = (({ s with clkRun := none } : State).setVdd s.coreDiv).setEnt 0x2000 0x04 1 := by
  rw [doVoutTimeout, hrun]
  exact State.nextDiv_none (by simp [State.setVdd, hwant])

theorem State.coreDiv_setVdd (s : State) (d : Nat) : (s.setVdd d).coreDiv = s.coreDiv :=
  State.ent_setEnt_apart s _ (by decide) (by decide) (by decide)

theorem State.ent_setVdd (s : State) (d : Nat) : (s.setVdd d).ent 0x2100 0x04 = vddCore s.ceiling d := State.ent_setEnt _ _ _ _

theorem State.coreDiv_setEnt_status (s : State) (v : Nat) : (s.setEnt 0x2000 0x04 v).coreDiv = s.coreDiv :=
  State.ent_setEnt_apart s v (by decide) (by decide) (by decide)

theorem State.vdd_setEnt_status (s : State) (v : Nat) : (s.setEnt 0x2000 0x04 v).ent 0x2100 0x04 = s.ent 0x2100 0x04 :=
  State.ent_setEnt_apart s v (by decide) (by decide) (by decide)

theorem State.ceiling_setEnt (s : State) (i j v : Nat) : (s.setEnt i j v).ceiling = s.ceiling := rfl

end

/-! ### Heat -/

section
variable {s : State} {h : Nat} {tenths : Int}

theorem State.ent_setTemp (s : State) {n : Nat} (hn : n < 20) (tenths : Int) {i j : Nat} (hj : j < 256) (hne : i ≠ 0xA000 ∨ j < 0x10) :
    (s.setTemp n tenths).ent i j = s.ent i j :=
  State.ent_setEnt_apart s _ (by omega) hj (by omega)

theorem doThrottle_throttles (hh : h < nSheds) (hthrottled : (s.shed h).throttled = false) (hhot : 10 * (s.ent 0x2100 0x03 : Int) ≤ tenths) :
    doThrottle h tenths s = ((s.setTemp h tenths).updShed h (fun x => { x with throttled := true })).bump 0xA000 0x04 32 1 := by
  have hh : h < 16 := hh
  have htemp : (s.setTemp h tenths).ent 0x2100 0x03 = s.ent 0x2100 0x03 := s.ent_setTemp (by omega) tenths (by decide) (by decide)
  have hcool : ((s.setTemp h tenths).shed h).throttled = false := hthrottled
  simp only [doThrottle, hcool, htemp, decide_eq_false (Int.not_lt.mpr hhot)]
  rfl

theorem doThrottleExit_cools (hh : h < nSheds) (hcool : tenths + 50 < 10 * (s.ent 0x2100 0x03 : Int)) :
    doThrottleExit h tenths s = (s.setTemp h tenths).updShed h (fun x => { x with throttled := false }) := by
  have hh : h < 16 := hh
  have htemp : (s.setTemp h tenths).ent 0x2100 0x03 = s.ent 0x2100 0x03 := s.ent_setTemp (by omega) tenths (by decide) (by decide)
  simp only [doThrottleExit, htemp]
  exact if_pos (decide_eq_true (by omega))

theorem doThermalTrip_trips (hruns : s.inReset = false) {n : Nat} (hhot : 1100 ≤ tenths) :
    doThermalTrip n tenths s = ({ s.setTemp n tenths with pins := { s.pins with thermOut := true } } : State).moor 0x42 := by
  have hruns : (s.setTemp n tenths).inReset = false := hruns
  simp only [doThermalTrip, hruns]
  exact if_pos ⟨hhot, rfl⟩

theorem doThermtripN_long (hruns : s.inReset = false) {ns : Nat} (hlong : 100 ≤ ns) :
    doThermtripN false ns s = ({ s with pins := { s.pins with thermIn := false } } : State).moor 0x42 := by
  simp [doThermtripN, hruns, hlong]

end

/-! ### Regulators and ageing (log entry 77) -/

/-- A fault of the regulator of a rail under PMBus is reported. -/
theorem doPmbusPoll_fault {s : State} {rail : Nat} {w : BitVec 16} (hrail : rail < 11) (hpmbus : s.ent 0x2100 (0x10 + rail) ≠ 0)
    (hfault : pmbFault w = true) : doPmbusPoll [(rail, w)] s = s.raise (pmbReport rail) := by
  simp [doPmbusPoll, hrail, hpmbus, hfault]

theorem doAgeAlarm_sets {s : State} {h : Nat} {margin : Int} (hmargin : margin < 30) :
    doAgeAlarm h margin s = (s.setEnt 0xA000 (0x30 + h) (i32 margin)).setEnt 0xA000 0x05
      (Nat.lor ((s.setEnt 0xA000 (0x30 + h) (i32 margin)).ent 0xA000 0x05) (2 ^ h)) :=
  if_pos hmargin

theorem nbit_lor_two_pow (v h : Nat) : nbit (Nat.lor v (2 ^ h)) h = true := by
  rw [nbit, show Nat.lor v (2 ^ h) = v ||| 2 ^ h from rfl, Nat.testBit_or, Nat.testBit_two_pow_self, Bool.or_true]

/-- Settles O59: each command by its lemma above. -/
theorem powerCommandsTakeEffect : Obligations.PowerCommandsTakeEffect := by
  refine ⟨fun s hhelm => ⟨exec_voutSettled s hhelm, exec_voutTimeout s hhelm, fun h x ha => exec_throttle h x s ha hhelm,
    fun h x ha => exec_throttleExit h x s ha hhelm, fun n x ha => exec_thermalTrip n x s ha hhelm, fun l => exec_pmbusPoll l s hhelm,
    fun l => exec_pmbAlertN l s hhelm, fun h m ha => exec_ageAlarm h m s ha hhelm⟩, fun s level ns => exec_thermtripN level ns s, fun s hhelm => ?_⟩
  have hruns : s.inReset = false := by simpa [State.helmRuns] using hhelm
  refine ⟨fun d hrun hwant => ⟨?settled, ?timeout⟩, fun h tenths hh => ⟨fun hthrottled hhot => ?throttles, fun hcool => ?cools⟩, ?trips, ?thermtrip,
    ?pmbus, ?ages⟩
  case settled =>
    refine ⟨doVoutSettled s, exec_voutSettled s hhelm, ?_⟩
    rw [doVoutSettled_takes hrun hwant]
    refine ⟨?_, by simp [State.setVdd], State.ent_setEnt _ _ _ _, ?_⟩
    · rw [State.coreDiv_setEnt_status, State.coreDiv_setVdd, State.coreDiv, State.ent_setEnt]
    · rw [State.vdd_setEnt_status, State.ent_setVdd, State.ceiling_setEnt]
      rfl
  case timeout =>
    refine ⟨doVoutTimeout s, exec_voutTimeout s hhelm, ?_⟩
    rw [doVoutTimeout_abandons hrun hwant]
    refine ⟨?_, by simp [State.setVdd], State.ent_setEnt _ _ _ _, ?_⟩
    · rw [State.coreDiv_setEnt_status, State.coreDiv_setVdd]
      rfl
    · rw [State.vdd_setEnt_status, State.ent_setVdd]
      rfl
  case throttles =>
    refine ⟨doThrottle h tenths s, exec_throttle h tenths s (Instr.absent_of_unit_lt rfl rfl hh) hhelm, ?_⟩
    rw [doThrottle_throttles hh hthrottled hhot]
    have hcount : ((s.setTemp h tenths).updShed h (fun x => { x with throttled := true })).ent 0xA000 0x04 = s.ent 0xA000 0x04 :=
      s.ent_setTemp (Nat.lt_trans hh (by decide)) tenths (by decide) (by decide)
    refine ⟨?_, ?_, ?_, ?_⟩
    · rw [State.bump, State.shed_of_setEnt, State.shed_updShed]
    · rw [State.bump, State.ent_setEnt, hcount, satAdd]
    · rw [bump_mem]
      rfl
    · rw [bump_stalls]
      rfl
  case cools =>
    refine ⟨doThrottleExit h tenths s, exec_throttleExit h tenths s (Instr.absent_of_unit_lt rfl rfl hh) hhelm, ?_⟩
    rw [doThrottleExit_cools hh hcool, State.shed_updShed]
    exact ⟨rfl, rfl, rfl⟩
  case trips =>
    intro n tenths hn hhot
    rw [exec_thermalTrip n tenths s (Instr.absent_of_unit_lt rfl rfl hn) hhelm, doThermalTrip_trips hruns hhot]
  case thermtrip =>
    intro ns hlong
    rw [exec_thermtripN false ns s, doThermtripN_long hruns hlong]
  case pmbus =>
    intro rail w hrail hpmbus hfault
    rw [exec_pmbusPoll _ s hhelm, exec_pmbAlertN _ s hhelm, doPmbusPoll_fault hrail hpmbus hfault]
    exact ⟨rfl, rfl⟩
  case ages =>
    intro h margin hh hmargin
    have hh : h < 16 := hh
    refine ⟨doAgeAlarm h margin s, exec_ageAlarm h margin s (Instr.absent_of_unit_lt rfl rfl hh) hhelm, ?_⟩
    rw [doAgeAlarm_sets hmargin]
    refine ⟨?_, ?_, by simp, by simp⟩
    · rw [State.ent_setEnt, nbit_lor_two_pow]
    · rw [State.ent_setEnt_apart _ _ (by decide) (by omega) (by omega), State.ent_setEnt]

end Sys2Proof.Machine
end

section
/-!
Resets, boot, tallies and the JTAG instructions (O60; 19 R438 to R449; 20 R462, R465).
That each BOOT takes one step is log entry 79, what a fall of PWRGOOD keeps log entry 81, and which pins the boundary register samples log entry 91.
-/

namespace Sys2Proof.Machine

/-! ### What the steps before a reset leave -/

/-- The time, the tallies and every entry outside the links' objects are the same in `s` and `t`. -/
structure State.SameButLinks (s t : State) : Prop where
  time : t.time = s.time
  tallies : t.tallies = s.tallies
  ent : ∀ i j, j < 256 → (∀ k < nLinks, i ≠ lkIdx k) → t.ent i j = s.ent i j

theorem State.SameButLinks.refl (s : State) : s.SameButLinks s := ⟨rfl, rfl, fun _ _ _ _ => rfl⟩

theorem State.SameButLinks.trans {s t u : State} (hst : s.SameButLinks t) (htu : t.SameButLinks u) : s.SameButLinks u :=
  ⟨htu.time.trans hst.time, htu.tallies.trans hst.tallies, fun i j hj hi => (htu.ent i j hj hi).trans (hst.ent i j hj hi)⟩

theorem State.sameButLinks_setEnt_link (s : State) {k : Nat} (hk : k < nLinks) {j : Nat} (hj : j < 256) (v : Nat) :
    s.SameButLinks (s.setEnt (lkIdx k) j v) :=
  ⟨rfl, rfl, fun _ _ hj' hi => State.ent_setEnt_apart s v hj hj' (.inl (hi k hk))⟩

theorem State.sameButLinks_setLink (s : State) (k : Nat) (x : Link) : s.SameButLinks (s.setLink k x) := ⟨rfl, rfl, fun _ _ _ _ => rfl⟩

theorem State.sameButLinks_sendDown (s : State) {k : Nat} (hk : k < nLinks) (reason : Nat) : s.SameButLinks (s.sendDown k reason) := by
  unfold State.sendDown
  split
  · unfold State.transmit State.bump
    dsimp only
    exact (s.sameButLinks_setLink k _).trans (State.sameButLinks_setEnt_link _ hk (j := 0x16) (by decide) _)
  · exact .refl s

theorem State.sameButLinks_quieten (s : State) (nodedown : Nat) : s.SameButLinks (s.quieten nodedown) := by
  have hlinks : s.SameButLinks ((upTo nLinks).foldl (fun s k =>
      if lkRuns (s.lkState k) then (s.sendDown k nodedown).setEnt (lkIdx k) 0x03 lsDOWN else s) s) := by
    refine List.foldlRecOn (motive := s.SameButLinks) _ _ (.refl s) fun t ht k hmem => ht.trans ?_
    have hk : k < nLinks := mem_upTo.mp hmem
    split
    · exact (t.sameButLinks_sendDown hk nodedown).trans (State.sameButLinks_setEnt_link _ hk (by decide) _)
    · exact .refl t
  unfold State.quieten
  generalize List.foldl _ s (upTo nLinks) = t at hlinks ⊢
  exact hlinks.trans ⟨rfl, rfl, fun _ _ _ _ => rfl⟩

theorem ne_lkIdx {i : Nat} (hi : i < 0x5010 ∨ 0x501C ≤ i) : ∀ k < nLinks, i ≠ lkIdx k := by
  intro k hk
  have hk : k < 12 := hk
  simp only [lkIdx]
  omega

/-! ### Resets (log entry 81) -/

/-- An entry after a reset: its value where a reset does not reach it, else its Reset value. -/
theorem State.ent_enterReset (s : State) {i j : Nat} (hj : j < 256) (hne : i ≠ 0x5000 ∨ j ≠ 0x02) :
    s.enterReset.ent i j = if keptEntry (ekey i j) then s.ent i j else entryDefault (ekey i j) := by
  unfold State.enterReset
  rw [State.ent_setEnt_apart _ _ (by decide) hj hne]
  exact SMap.get_filter_key _ _ _ _

theorem State.fixedId_enterReset (s : State) : s.enterReset.ent 0x5000 0x02 = s.tally 1 := State.ent_setEnt _ _ _ _

section
variable (s : State)

@[simp] theorem State.enterReset_inReset : s.enterReset.inReset = true := by
  rw [State.enterReset, State.setEnt_inReset]

@[simp] theorem State.enterReset_stalls : s.enterReset.stalls = [] := by
  rw [State.enterReset, State.setEnt_stalls]

@[simp] theorem State.enterReset_records : s.enterReset.records = [] := by
  rw [State.enterReset, State.setEnt_records]

@[simp] theorem State.enterReset_applied : s.enterReset.applied = [] := by
  rw [State.enterReset, State.setEnt_applied]

@[simp] theorem State.enterReset_time : s.enterReset.time = s.time := by
  rw [State.enterReset, State.setEnt_time]

@[simp] theorem State.enterReset_tallies : s.enterReset.tallies = s.tallies := by
  rw [State.enterReset, State.setEnt_tallies]

/-- A device reset as its two writes over the reset. -/
theorem State.deviceReset_eq (c : Nat) : s.deviceReset c =
    ((s.quieten 2).enterReset.setEnt 0x1000 0x07 ((s.ent 0x1000 0x07 + 1) % 65536)).setEnt 0x2200 0x02 c := by
  have hcount : (s.quieten 2).enterReset.ent 0x1000 0x07 = s.ent 0x1000 0x07 := by
    rw [State.ent_enterReset _ (by decide) (by decide), if_pos (by decide), (s.sameButLinks_quieten 2).ent _ _ (by decide) (ne_lkIdx (by decide))]
  rw [State.deviceReset, hcount]

/-- An entry that a device reset does not write itself. -/
theorem State.ent_deviceReset (c : Nat) {i j : Nat} (hj : j < 256) (hcount : i ≠ 0x1000 ∨ j ≠ 0x07) (hcause : i ≠ 0x2200 ∨ j ≠ 0x02) :
    (s.deviceReset c).ent i j = (s.quieten 2).enterReset.ent i j := by
  rw [State.deviceReset_eq, State.ent_setEnt_apart _ _ (by decide) hj hcause, State.ent_setEnt_apart _ _ (by decide) hj hcount]

end

section
variable {s : State}

theorem doResetN_long (hruns : s.inReset = false) {ns : Nat} (hlong : 1000 ≤ ns) :
    doResetN false ns s = ({ s with pins := { s.pins with resetN := false } } : State).deviceReset 1 := by
  simp [doResetN, hruns, hlong, show ¬ns < 100 by omega]

section
variable (hreset : s.inReset = true) (hresetN : s.pins.resetN = true) (hpwrgood : s.pins.pwrgood = true)
include hreset hresetN hpwrgood

theorem doResetExit_leaves (hmoorN : s.pins.moorN = true) (hthermIn : s.pins.thermIn = true) : doResetExit s = { s with inReset := false } := by
  simp [doResetExit, hreset, hresetN, hpwrgood, hmoorN, hthermIn]

theorem doResetExit_moors (hmoorN : s.pins.moorN = false) : doResetExit s = ({ s with inReset := false } : State).moor 0x40 := by
  simp [doResetExit, hreset, hresetN, hpwrgood, hmoorN]

end

/-- The state that a rise of PWRGOOD finds when no tally is being programmed. -/
theorem doPowerOnReset_idle (low : Bool) (hidle : s.tallyRun = none) : doPowerOnReset low s =
    ({ pending := s.pending, seqNo := s.seqNo, fresh := s.fresh, mem := s.mem, tallies := s.tallies, logbook := s.logbook, helmTx := s.helmTx, inReset := true,
       pins := { s.pins with pwrgood := true, thermIn := !low, thermOut := false, lantern := false, mpPerst := 0, idle := true } } : State).setEnt
      0x5000 0x02 (s.tally 1) := by
  rw [doPowerOnReset, hidle]

/-! ### Boot (log entry 79) -/

/-- A boot step's trace record reaches the trace and TRACE_HEAD alone. -/
theorem State.traceBoot_eq (s : State) (n : Nat) : ∃ trace v, s.traceBoot n = ({ s with trace := trace } : State).setEnt 0xA000 0x07 v := ⟨_, _, rfl⟩

theorem State.ent_traceBoot (s : State) (n : Nat) {i j : Nat} (hj : j < 256) (hi : i ≠ 0xA000) : (s.traceBoot n).ent i j = s.ent i j := by
  obtain ⟨trace, v, h⟩ := s.traceBoot_eq n
  rw [h, State.ent_setEnt_apart _ _ (by decide) hj (.inl hi)]
  rfl

@[simp] theorem State.traceBoot_mem (s : State) (n : Nat) : (s.traceBoot n).mem = s.mem := by
  obtain ⟨trace, v, h⟩ := s.traceBoot_eq n
  rw [h, State.setEnt_mem]

/-- `s` with boot at step `n`. -/
def State.atStep (s : State) (n : Nat) : State := { s with bootStep := n }

@[simp] theorem State.atStep_bootStep (s : State) (n : Nat) : (s.atStep n).bootStep = n := rfl
@[simp] theorem State.atStep_mem (s : State) (n : Nat) : (s.atStep n).mem = s.mem := rfl
@[simp] theorem State.ent_atStep (s : State) (n i j : Nat) : (s.atStep n).ent i j = s.ent i j := rfl

section
variable (hruns : s.inReset = false) (hmoored : s.ent 0x6000 0x02 = 0) (hrom : s.ent 0x2200 0x03 < 2)
include hruns hmoored hrom

/-- Neither reset nor a moor nor an end of boot holds BOOT back. -/
theorem State.boot_goes_on : (s.inReset || s.ent 0x6000 0x02 == 1 || decide (2 ≤ s.ent 0x2200 0x03)) = false := by
  simp [hruns, hmoored, hrom]

theorem doBoot_starts (f : FlashImages) (hstep : s.bootStep = 0) : doBoot f s = ((s.setEnt 0x2000 0x01 1).traceBoot 1).atStep 1 := by
  rw [doBoot, State.boot_goes_on hruns hmoored hrom, if_neg Bool.false_ne_true, hstep]
  rfl

theorem doBoot_clocks (f : FlashImages) (hstep : s.bootStep = 2) : doBoot f s = (s.bootClocks.traceBoot 3).atStep 3 := by
  rw [doBoot, State.boot_goes_on hruns hmoored hrom, if_neg Bool.false_ne_true, hstep]
  rfl

end

/-- Step 3 gives the lowest divisor of the ceiling point, with its voltage. -/
theorem State.bootClocks_effect (s : State) : s.bootClocks.ent 0x2200 0x03 = 1 ∧ s.bootClocks.coreDiv = lowestDiv s.ceiling ∧
    s.bootClocks.ent 0x2100 0x04 = vddCore s.ceiling (lowestDiv s.ceiling) ∧ s.bootClocks.mem = s.mem := by
  rw [State.bootClocks]
  refine ⟨?_, ?_, ?_, ?_⟩
  · rw [State.setVdd, State.ent_setEnt_apart _ _ (by decide) (by decide) (by decide), State.ent_setEnt_apart _ _ (by decide) (by decide) (by decide),
      State.ent_setEnt]
  · rw [State.coreDiv_setVdd, State.coreDiv, State.ent_setEnt]
  · rw [State.ent_setVdd, State.ceiling_setEnt, State.ceiling_setEnt]
  · rw [State.setVdd, State.setEnt_mem, State.setEnt_mem, State.setEnt_mem]

/-! ### Tallies -/

theorem State.tally_setTally (s : State) (t v : Nat) : (s.setTally t v).tally t = v := SMap.get_set_same _ _ _ _

theorem State.tally_setTally_other (s : State) {t u : Nat} (v : Nat) (h : u ≠ t) : (s.setTally t v).tally u = s.tally u := SMap.get_set_other _ _ _ h

/-- A tally that sets no clock. -/
theorem doTallyProgrammed_takes {r : TallyRun} (hrun : s.tallyRun = some r) (hclock : r.tally ≠ 4) : doTallyProgrammed s =
    (({ s with tallyRun := none } : State).setTally r.tally r.value).setTally (0x10 + r.tally) (s.tally (0x10 + r.tally) - 1) := by
  simp only [doTallyProgrammed, hrun]
  exact if_neg fun h => hclock h.1

/-! ### The test access port (log entry 91) -/

theorem doDbgAccess_answers {x : State} {off : Nat} {wr : Option Word64} {v : Word64} (halign : off % 8 = 0) (hrom : s.romHalted = false)
    (hmoored : s.ent 0x6000 0x02 ≠ 1) (haccess : s.ctlAccess .debug off wr = (x, .ok v)) :
    doDbgAccess off wr s = { x with tap := { x.tap with ir := .dbgAccess, dbgErr := false, dbgData := v } } := by
  rw [doDbgAccess, if_neg (by simp [halign, hrom, hmoored]), haccess]

end

/-- Settles O60: each command by its lemma above. -/
theorem resetBootAndTapCommandsTakeEffect : Obligations.ResetBootAndTapCommandsTakeEffect := by
  refine ⟨fun s hhelm => ⟨fun f => exec_boot f s hhelm, fun off wr => exec_dbgAccess off wr s hhelm⟩, fun s => ⟨exec_resetExit s,
    fun low => exec_powerOnReset low s, exec_pwrgoodFall s, fun level ns => exec_resetN level ns s, exec_tallyProgrammed s, exec_bypass s, exec_idcode s,
    fun bits => exec_samplePreload bits s, exec_extest s, fun level => exec_trstN level s⟩, fun s => ?_⟩
  refine ⟨?powerOn, ?fall, ?resetN, ?reset, ?exit, ?boot, ?tally, exec_bypass s, exec_idcode s, fun bits => exec_samplePreload bits s, exec_extest s,
    ?dbgAccess, exec_trstN false s⟩
  case powerOn =>
    intro low hidle
    refine ⟨doPowerOnReset low s, exec_powerOnReset low s, ?_⟩
    rw [doPowerOnReset_idle low hidle]
    simp only [State.setEnt_inReset, State.setEnt_time, State.setEnt_stalls, State.setEnt_records, State.setEnt_applied, State.setEnt_tallies,
      State.setEnt_logbook, State.setEnt_pins, State.ent_setEnt, true_and]
    constructor <;> rw [State.ent_setEnt_apart _ _ (by decide) (by decide) (by decide)] <;> rfl
  case fall =>
    refine ⟨doPwrgoodFall s, exec_pwrgoodFall s, s.enterReset_inReset, rfl, s.enterReset_stalls, s.enterReset_time, s.enterReset_tallies⟩
  case resetN =>
    intro ns hlong hruns
    rw [exec_resetN false ns s, doResetN_long hruns hlong]
  case reset =>
    intro c
    have hquiet := s.sameButLinks_quieten 2
    refine ⟨?_, ?_, ?_, ?_, ?_, ?_, State.ent_setEnt _ _ _ _, ?_, ?_, ?_, ?_⟩
    · rw [State.deviceReset_eq, State.setEnt_inReset, State.setEnt_inReset, State.enterReset_inReset]
    · rw [State.deviceReset_eq, State.setEnt_stalls, State.setEnt_stalls, State.enterReset_stalls]
    · rw [State.deviceReset_eq, State.setEnt_records, State.setEnt_records, State.enterReset_records]
    · rw [State.deviceReset_eq, State.setEnt_applied, State.setEnt_applied, State.enterReset_applied]
    · rw [State.deviceReset_eq, State.setEnt_time, State.setEnt_time, State.enterReset_time, hquiet.time]
    · rw [State.deviceReset_eq, State.setEnt_tallies, State.setEnt_tallies, State.enterReset_tallies, hquiet.tallies]
    · rw [State.deviceReset_eq, State.ent_setEnt_apart _ _ (by decide) (by decide) (by decide), State.ent_setEnt]
    · rw [State.ent_deviceReset s c (by decide) (by decide) (by decide), State.fixedId_enterReset, State.tally, hquiet.tallies]
      rfl
    · rw [State.ent_deviceReset s c (by decide) (by decide) (by decide), State.ent_enterReset _ (by decide) (by decide), if_neg (by decide)]
      rfl
    · rw [State.ent_deviceReset s c (by decide) (by decide) (by decide), State.ent_enterReset _ (by decide) (by decide), if_pos (by decide),
        hquiet.ent _ _ (by decide) (ne_lkIdx (by decide))]
  case exit =>
    intro hreset hresetN hpwrgood
    refine ⟨fun hmoorN hthermIn => ?_, fun hmoorN => ?_⟩
    · rw [exec_resetExit s, doResetExit_leaves hreset hresetN hpwrgood hmoorN hthermIn]
    · rw [exec_resetExit s, doResetExit_moors hreset hresetN hpwrgood hmoorN]
  case boot =>
    intro f hhelm hmoored hrom
    have hruns : s.inReset = false := by simpa [State.helmRuns] using hhelm
    refine ⟨fun hstep => ⟨doBoot f s, exec_boot f s hhelm, ?_⟩, fun hstep => ⟨doBoot f s, exec_boot f s hhelm, ?_⟩⟩
    · rw [doBoot_starts hruns hmoored hrom f hstep]
      refine ⟨rfl, ?_, ?_⟩
      · rw [State.ent_atStep, State.ent_traceBoot _ 1 (by decide) (by decide), State.ent_setEnt]
      · rw [State.atStep_mem, State.traceBoot_mem, State.setEnt_mem]
    · rw [doBoot_clocks hruns hmoored hrom f hstep, State.coreDiv]
      simp only [State.ent_atStep, State.atStep_mem, State.atStep_bootStep, State.traceBoot_mem, State.ent_traceBoot, ne_eq, Nat.reduceLT, Nat.reduceEqDiff,
        not_false_eq_true, true_and]
      exact s.bootClocks_effect
  case tally =>
    intro r hrun h1 h5 hclock
    refine ⟨doTallyProgrammed s, exec_tallyProgrammed s, ?_⟩
    rw [doTallyProgrammed_takes hrun hclock]
    refine ⟨rfl, ?_, State.tally_setTally _ _ _, rfl, rfl⟩
    rw [State.tally_setTally_other _ _ (by omega), State.tally_setTally]
  case dbgAccess =>
    intro off wr x v hhelm halign hrom hmoored haccess
    rw [exec_dbgAccess off wr s hhelm, doDbgAccess_answers halign hrom hmoored haccess]

end Sys2Proof.Machine
end
